-- ==== Sys2Proof/Word.lean ====
section
/-! DEFINITION. The words of the Briurjor: a 64-bit register word, a byte, and the sparse map
by number that holds whatever exists once per index (queues, islands, windows). -/

namespace Sys2Proof

/-- A register value: every register of BAR0 and BAR2 is 64 bits wide (R465). -/
abbrev Word := BitVec 64

/-- One byte of a structure in memory. -/
abbrev Byte := BitVec 8

/-- A structure as it lies in memory, byte 0 first; multi-byte fields are little-endian (R6). -/
abbrev Bytes := List Byte

/-- A sparse map by number: the entries in ascending key, each key once.
A key that is not listed holds the default its reader names. -/
abbrev NMap (α : Type) := List (Nat × α)

end Sys2Proof
end

