-- ==== Sys2Proof/Syntax.lean ====
section
/-! DEFINITION. The commands of the block: one constructor of `Instr` per row of the opcode table, with the operands
that come from outside the device (R7 and the rule each row names). Durations that the spec bounds but does not fix
are not operands: the order of the commands says what happened first. -/

namespace Sys2Proof

/-- A host function: 0 is PF0, n is VF n; also a tenant, since tenant n is function n (Table 0-8). -/
abbrev Fn := Fin 64
/-- A T-island. -/
abbrev IslN := Fin 64
/-- A room. -/
abbrev Room := Fin 64
/-- A Steward register g0–g31. -/
abbrev Reg := Fin 32
/-- A task slot of a T-island. -/
abbrev SlotN := Fin 16
/-- A DMA tag. -/
abbrev Tag := Fin 8
/-- A Range-Coding Engine. -/
abbrev Rce := Fin 16
/-- An Edge-Layer Engine. -/
abbrev Ele := Fin 4
/-- A link port. -/
abbrev Port := Fin 8
/-- A window number. -/
abbrev Win := Fin 256
/-- Immediate of the R form (Table 7-4). -/
abbrev Imm15 := BitVec 15
/-- Immediate of the J form (Table 7-4). -/
abbrev Imm23 := BitVec 23
/-- Number of a task control word. -/
abbrev Csr := BitVec 9

/-- A host access to BAR0 or to a function's BAR2 page, at a byte offset, with its size in bytes. -/
structure Access where
  fn : Fn
  bar2 : Bool
  off : Nat
  size : Nat
  deriving DecidableEq, Repr

/-- Who writes a transaction command: PF0 through CFG_TXN_CTRL, or a tenant through its transaction window for a room. -/
inductive Src where
  | pf0
  | tenant (fn : Fn) (room : Room)
  deriving DecidableEq, Repr

/-- The authorisation block of R442 as the device finds it: fetched without error or poison, and its 256 bytes. -/
structure FuseAuth where
  fetched : Bool
  block : Bytes
  deriving DecidableEq, Repr

/-- What an in-doubt member learns from one query (R89). -/
inductive Doubt where
  /-- No outcome learned: some member has not answered yet. -/
  | none
  | swap (t : Nat)
  /-- ABORT, with the members that failed, one bit each. -/
  | abort (failed : Nat)
  /-- The coordinator and every reachable member report no record; from one member, that it has none. -/
  | noRecord
  deriving DecidableEq, Repr

/-- What starts a warm chip reset (Table 5-6). -/
inductive WarmCause where
  | register (v : Word) | hotReset | busReset | linkDisable
  deriving DecidableEq, Repr

/-- Which reset or kill completes. -/
inductive ResetScope where
  | kill (fn : Fn) | island (isl : IslN) | room (room : Room) | tenant (tenant : Fn)
  deriving DecidableEq, Repr

/-- Branch conditions (Table 7-4). -/
inductive Cond where
  | eq | ne | lt | ge | ltu | geu
  deriving DecidableEq, Repr

/-- How a DMA request came to an end at the far side (R139, R296): the bytes that arrived from the host, the parts of
them that carry poison as offset and length, whether any completion met an error or a timeout, and the nanoseconds by
which a Cellar refresh stalled it. -/
structure DmaResult where
  data : Bytes
  bad : List (Nat × Nat)
  err : Bool
  stall : Nat
  deriving DecidableEq, Repr

/-- What the residue checks of R172 saw in a Grid operation: no mismatch, one at a row-step, or a second one in the retry at a row-step
of its own. -/
inductive Residue where
  | clean | once (row : Nat) | twice (row : Nat) (again : Nat)
  deriving DecidableEq, Repr

/-- An ECC error that an operation met in a crate word (R176). -/
structure CrateErr where
  crate : Fin 16
  word : Fin 512
  /-- Uncorrectable. -/
  fatal : Bool
  deriving DecidableEq, Repr

/-- A crate transfer completes: its place in the commit order, and the ECC errors it met. -/
structure XferEnd where
  ord : Nat
  errs : List CrateErr
  deriving DecidableEq, Repr

/-- The save and restore of an island's crates completes: the island, and the ECC errors the save met. -/
structure SwapEnd where
  isl : IslN
  errs : List CrateErr
  deriving DecidableEq, Repr

/-- A Grid operation completes: what the residue checks saw, and the ECC errors its row-steps met. -/
structure GridEnd where
  res : Residue
  errs : List CrateErr
  deriving DecidableEq, Repr

/-- Fields of a vector instruction (Table 11-1). -/
structure VFields where
  vd : Fin 32
  va : Fin 32
  vb : Fin 32
  vc : Fin 32
  fmt : Fin 32
  p : Fin 8
  imm : BitVec 24
  deriving DecidableEq, Repr

/-- What the partner presents in the pairing checks of R304: its chip ID, the PEER of its twin port, its ROOMS, and the
level and parity word of each of those rooms. -/
structure TwinCheck where
  chip : Nat
  peer : Nat
  rooms : Word
  words : List (Nat × Nat × Word)
  deriving DecidableEq, Repr

/-- A twin comparison message (R308): the store-stream checksum, status, DETAIL, OUT_LEN, NFLAGS and digest; and what the exchange
of block hashes brings on a mismatch: the store log by ascending block key (KIND × 2^32 + BLOCK) with each block's hash and the GTC
of its last store. -/
structure TwinMsg where
  status : Nat
  detail : Nat
  outLen : Nat
  nflags : Nat
  digest : Bytes
  checksum : Nat
  blocks : List (Nat × Nat × Nat)
  deriving DecidableEq, Repr

/-- What a scrubber finds in a line or word. -/
inductive EccResult where
  | clean | corrected | uncorrectable
  deriving DecidableEq, Repr

/-- The three classes of mesh packets, each with a virtual channel of its own. -/
inductive MeshClass where
  | request | response | message
  deriving DecidableEq, Repr

/-- A payload flit as the receiver captures it: 256 payload bits and one parity bit for each 32-bit lane (R26). -/
structure MeshFlit where
  data : Bytes
  parity : BitVec 8
  deriving DecidableEq, Repr

/-- The outstanding request of a task that a mesh packet serves: T-island, slot, DMA tag, and the offset of the packet's
first payload byte in the request's data. -/
structure MeshReq where
  isl : Nat
  slot : Nat
  tag : Nat
  off : Nat
  deriving DecidableEq, Repr

/-- A mesh packet at the end of its way (R27, R28, R32). -/
structure MeshPacket where
  /-- Source numbers of the sender and of the receiver. -/
  src : Nat
  dst : Nat
  /-- Attach point at which it enters the mesh, and the one that its header names, by number in Table 2-2. -/
  entry : Nat
  port : Nat
  cls : MeshClass
  /-- Its number among the packets of its class that the sender has sent to the receiver. -/
  seq : Nat
  /-- What the SECDED of the header found on the way. -/
  header : EccResult
  flits : List MeshFlit
  req : Option MeshReq
  deriving DecidableEq, Repr

/-- Sensor readings at a thermal step (R447). -/
structure Sensors where
  tjC : Nat
  hbm0C : Nat
  hbm1C : Nat
  inletC : Nat
  powerW : Nat
  /-- Over the preceding 1 ms every sensor read 92 °C or less and the power stayed at or below 0.95 × LIMIT_W. -/
  cool : Bool
  deriving DecidableEq, Repr

/-- Link header of a frame (Table 16-1), TYPE apart: the command says the type. -/
structure LHdr where
  vc : Nat
  seq : Nat
  ack : Nat
  epoch : Nat
  nblk : Nat
  prot : Bool
  poison : Nat
  crvc : Nat
  crcnt : Nat
  deriving DecidableEq, Repr

/-- Transaction header (Table 16-2), OPC apart: the command says the opcode. -/
structure THdr where
  status : Nat
  len : Nat
  src : Nat
  tag : Nat
  e2e : Nat
  addr : Nat
  deriving DecidableEq, Repr

/-- What the partner presents during TRAINING (R350). -/
structure Partner where
  phyOk : Bool
  authOk : Bool
  epoch : Nat
  chip : Nat
  mode : Nat
  protect : Bool
  /-- SHA-384 of the owner key that signed its Living layout, as a number. -/
  ownerHash : Nat
  pools : List Nat
  rate : Nat
  deriving DecidableEq, Repr

/-- A member's answer to a span check (R378). -/
structure SpanAns where
  spanId : Nat
  ndev : Nat
  devs : List (Nat × Nat)
  level : Nat
  parity : Word
  deriving DecidableEq, Repr

/-- A span start message (R379). -/
structure SpanStartMsg where
  ref : Nat
  graph : Nat
  gd : Bytes
  wd : Bytes
  start : Nat
  queue : Nat
  desc : Bytes
  deriving DecidableEq, Repr

/-- Content of a MSG frame (Table 16-3, R382): the spec gives its kinds and no bit layout. -/
inductive LMsg where
  | vote (member : Nat) (ready : Bool) (tag : Nat)
  | swap (tag t : Nat)
  | abort (tag failed : Nat)
  | query (tag member : Nat)
  | answer (tag : Nat) (d : Doubt)
  | portMap (chip ver : Nat) (ports : List Nat)
  /-- A span check, and an answer to it: the head's room, the member's room or position. -/
  | spanAsk (head room pos : Nat)
  | spanCheck (head pos : Nat) (a : SpanAns)
  | spanStart (room : Nat) (st : SpanStartMsg)
  | spanStop (room ref : Nat)
  /-- A member's part of a task is over: status and DETAIL if it failed, refresh hits and link retries met there. -/
  | spanEnd (ref : Nat) (status : Option (Nat × Nat)) (hits retries : Nat)
  | twinStart (queue no outcome : Nat)
  | twinCompare (queue no : Nat) (m : TwinMsg)
  /-- What the partner presents in the pairing checks (R304). -/
  | twinPair (c : TwinCheck)
  /-- GTC alignment: the sender's ALIGN. -/
  | align (chip level : Nat)
  /-- Lease traffic: opcode, windows, LEASE_US. -/
  | lease (opc : Nat) (wins : List Nat) (us : Nat)
  deriving DecidableEq, Repr

/-- Which side's timer of a lease expires. -/
inductive LeaseSide where
  | grantor | holder
  deriving DecidableEq, Repr

/-- An event handed to the Ledger writer (R420). -/
structure Event where
  gtc : Nat
  src : Nat
  cls : Nat
  code : Nat
  /-- 0x7F for an event that concerns no single tenant. -/
  tenant : Nat
  sev : Nat
  /-- 42 payload bytes. -/
  payload : Bytes
  deriving DecidableEq, Repr

/-- A book whose holders latched a wrong count (R427): quantity, index, and the HELD they report. -/
structure BookIn where
  q : Nat
  index : Nat
  held : Nat
  deriving DecidableEq, Repr

/-- One firmware image in flash as the ROM judges it (R433). -/
structure FwImage where
  sigOk : Bool
  svn : Nat
  deriving DecidableEq, Repr

/-- What boot finds (R432–R435). -/
structure BootIn where
  fuseOk : Bool
  trainOk : Bool
  bootMs : Nat
  speed : Nat
  width : Nat
  deriving DecidableEq, Repr

/-- Causes of a main-domain loss (R449). -/
inductive TripCause where
  | thermal | undervoltage | overcurrent
  deriving DecidableEq, Repr

/-- How a firmware update ends (R436). -/
inductive FwResult where
  | fetchFault | badSignature | lowSvn | flashFail | staged (svn : Nat)
  deriving DecidableEq, Repr

/-- PLDM sensors of Table 20-14. -/
inductive PldmSensor where
  | hottest | quadrant (q : Fin 4) | hbm0 | hbm1 | inlet | power | voltage | k | rasState | bootStage | lastTrip
  deriving DecidableEq, Repr

/-- Why a receiver discards a frame (R342, R345, R360). -/
inductive Corrupt where
  | crc | malformed | tag
  deriving DecidableEq, Repr

/-- IDE_KM requests (R441). -/
inductive IdeOp where
  | query | keyProg (sub : Nat) | setGo (sub : Nat) | setStop (sub : Nat)
  deriving DecidableEq, Repr

/-- JTAG instructions (R452). -/
inductive Jtag where
  | bypass | idcode | samplePreload (v : Word) | extest (v : Word)
  deriving DecidableEq, Repr

/-- The commands, one constructor per row of the opcode table. -/
inductive Instr where
  -- Register accesses
  /-- REGISTER_WRITE. A write of `v` to a register (R7–R10, Table 0-5). -/
  | registerWrite (a : Access) (v : Word)
  /-- RC_READ. A read of a register; its RC fields then clear (Table 0-5). -/
  | rcRead (a : Access)
  /-- RWT_WRITE. A PF0 write of `v` to the RWT register at a BAR0 offset (R71). -/
  | rwtWrite (off : Nat) (v : Word)
  /-- ATTIC_PEEK. A read of CFG_ATTIC_PEEK_DATA, or of TXW_WDATA with PEEK set (R74, R94). -/
  | atticPeek (src : Src)
  -- Transactions, layout loads and the Hatch
  /-- OPEN. OPEN of the chip scope or of a room, with the FENCE bit of OPEN as written. -/
  | openTxn (src : Src) (fence : Bool)
  /-- COMMIT. COMMIT with a token. -/
  | commit (src : Src) (token : Nat) (force : Bool) (maint : Bool) (cell : Bool)
  /-- ROLLBACK. ROLLBACK with a token. -/
  | rollback (src : Src) (token : Nat)
  /-- KEEPALIVE. KEEPALIVE with a token. -/
  | keepalive (src : Src) (token : Nat)
  /-- TXW_WDATA_WRITE. A tenant writes TXW_WDATA. -/
  | txwWdataWrite (fn : Fn) (v : Word)
  /-- IDLE_TIMEOUT. The idle time of a scope reaches its limit; 64 is the chip scope. -/
  | idleTimeout (scope : Nat)
  /-- VALIDATION_DONE. Validation of a commit ends; `auth` is the authorisation block that R442 fetches. -/
  | validationDone (scope : Nat) (auth : FuseAuth)
  /-- LAYOUT_GO. CFG_LAYOUT_CTRL is written with GO. -/
  | layoutGo (token : Nat) (cellar : Bool)
  /-- LAYOUT_LOAD_DONE. The image has arrived, up to the offset of a fetch fault if there was one. -/
  | layoutLoadDone (img : Bytes) (fault : Option Nat)
  /-- HATCH_PREPARE. The commit at the head of the Hatch queue enters Prepare. -/
  | hatchPrepare
  /-- HATCH_READY. Every affected resource is ready. -/
  | hatchReady
  /-- HATCH_DEADLINE. CFG_HATCH_DEADLINE passes during Prepare. -/
  | hatchDeadline
  /-- HATCH_FORCE_STOPPED. The last task stopped under FORCE has confirmed. -/
  | hatchForceStopped
  /-- HATCH_SWAP. The GTC reaches T. -/
  | hatchSwap
  /-- HATCH_CLEARING_DONE. Clearing ends; a bit of `failed` marks a room whose clearing met an error. -/
  | hatchClearingDone (failed : Word)
  /-- HATCH_VOTE. A vote reaches the coordinator of a cell-wide Hatch. -/
  | hatchVote (member : Nat) (ready : Bool) (tag : Nat)
  /-- HATCH_SWAP_MSG. SWAP(T) reaches a member. -/
  | hatchSwapMsg (tag : Nat) (t : Nat)
  /-- HATCH_ABORT_MSG. ABORT reaches a member, naming the member that failed. -/
  | hatchAbortMsg (tag : Nat) (failed : Nat)
  /-- IN_DOUBT. A member that voted ready reaches the limit with no outcome. -/
  | inDoubt
  /-- IN_DOUBT_QUERY. The answer to a query of an in-doubt member. -/
  | inDoubtQuery (answer : Doubt)
  /-- QUIESCE. CFG_MAINT_CTRL.QUIESCE is written 1. -/
  | quiesce (qforce : Bool)
  /-- QUIESCE_RELEASE. CFG_MAINT_CTRL.QUIESCE is written 0. -/
  | quiesceRelease
  -- Tenants, rooms and resets
  /-- TASK_KILL. A kill through TEN_KILL (function 0) or TRW_KILL. -/
  | taskKill (fn : Fn) (queue : Nat) (matchTag : Bool)
  /-- ISLAND_RESET. TEN_ISL_RESET is written with GO. -/
  | islandReset (isl : IslN)
  /-- ROOM_RESET. A room reset by PF0 (function 0) or by the owner. -/
  | roomReset (by_ : Fn) (room : Room) (flush : Bool)
  /-- TENANT_RESET. A tenant reset by PF0 or by the tenant. -/
  | tenantReset (by_ : Fn) (tenant : Fn) (scrub : Bool)
  /-- FLR. A Function Level Reset of a function. -/
  | flr (fn : Fn)
  /-- VF_ENABLE_CHANGE. VF Enable and NumVFs take new values. -/
  | vfEnableChange (enable : Bool) (num : Nat)
  /-- WARM_CHIP_RESET. A warm chip reset; `burnOk` is the read-back of a pending burn (R443). -/
  | warmChipReset (cause : WarmCause) (burnOk : Bool)
  /-- RESET_DONE. A kill, island, room or tenant reset completes. -/
  | resetDone (scope : ResetScope)
  /-- SCRUB_DONE. The zeroing of a tenant reset with SCRUB ends. -/
  | scrubDone (tenant : Fn)
  /-- DISPATCH_STALL. A dispatcher has made no dispatch for 1 ms while a descriptor was startable. -/
  | dispatchStall (room : Room)
  -- Session queues and polling
  /-- QUEUE_ACTIVATE. QCFG_CTRL is written with OP 1. -/
  | queueActivate (fn : Fn) (mode : Nat) (log2 : Nat)
  /-- QUEUE_DEACTIVATE. QCFG_CTRL is written with OP 2. -/
  | queueDeactivate (fn : Fn)
  /-- DOORBELL. DB is written. -/
  | doorbell (fn : Fn) (v : Word)
  /-- RING_ENTRY_FETCH. Descriptors read from a host ring arrive, or the read fails. -/
  | ringEntryFetch (queue : Nat) (data : Bytes) (err : Bool)
  /-- PUSH_WRITE. A write into the push window. -/
  | pushWrite (fn : Fn) (off : Nat) (data : Bytes)
  /-- PUSH_TIMEOUT. A partly filled push slot reaches PUSH_TMO_US. -/
  | pushTimeout (fn : Fn) (slot : Nat)
  /-- SCAN_CTRL_WRITE. SCAN_CTRL is written. -/
  | scanCtrlWrite (fn : Fn) (v : Word)
  /-- RING_SCAN. The scan block of a function has been read. -/
  | ringScan (fn : Fn) (data : Bytes) (err : Bool)
  /-- CONTEXT_FETCH_DONE. The context of a cold queue arrives. -/
  | contextFetchDone (queue : Nat)
  /-- TASK_START. The dispatcher of a room starts its next startable descriptor. -/
  | taskStart (room : Room)
  /-- RUN. A Steward runs the earliest-started READY slot of its island. -/
  | run (isl : IslN)
  /-- NOP. The NOP descriptor at the head of a queue completes. -/
  | nop (queue : Nat)
  /-- STATE_ZERO. The STATE_ZERO descriptor at the head of a queue runs. -/
  | stateZero (queue : Nat)
  /-- CRCFG_CTRL_WRITE. CRCFG_CTRL is written. -/
  | crcfgCtrlWrite (fn : Fn) (v : Word)
  /-- CR_HEAD_WRITE. CR_HEAD_i is written. -/
  | crHeadWrite (fn : Fn) (ring : Nat) (v : Word)
  /-- PP_ENABLE. PP_CTRL is written. -/
  | ppEnable (fn : Fn) (v : Word)
  /-- POLL_UPDATE. COALESCE_NS has passed since a change of a polled value. -/
  | pollUpdate (fn : Fn)
  /-- BACKLOG_UPDATE. BACKLOG_US has passed with a WAITING count not zero. -/
  | backlogUpdate (fn : Fn)
  -- Steward instructions: the RUNNING slot of an island executes one
  /-- ADD. Rd = rs1 + rs2 (Tables 7-3 and 7-4). -/
  | add (isl : IslN) (rd : Reg) (rs1 : Reg) (rs2 : Reg)
  /-- SUB. Rd = rs1 - rs2 (Tables 7-3 and 7-4). -/
  | sub (isl : IslN) (rd : Reg) (rs1 : Reg) (rs2 : Reg)
  /-- AND. Bitwise and (Tables 7-3 and 7-4). -/
  | andR (isl : IslN) (rd : Reg) (rs1 : Reg) (rs2 : Reg)
  /-- OR. Bitwise or (Tables 7-3 and 7-4). -/
  | orR (isl : IslN) (rd : Reg) (rs1 : Reg) (rs2 : Reg)
  /-- XOR. Bitwise exclusive or (Tables 7-3 and 7-4). -/
  | xorR (isl : IslN) (rd : Reg) (rs1 : Reg) (rs2 : Reg)
  /-- SLL. Shift left (Tables 7-3 and 7-4). -/
  | sll (isl : IslN) (rd : Reg) (rs1 : Reg) (rs2 : Reg)
  /-- SRL. Logical shift right (Tables 7-3 and 7-4). -/
  | srl (isl : IslN) (rd : Reg) (rs1 : Reg) (rs2 : Reg)
  /-- SRA. Arithmetic shift right (Tables 7-3 and 7-4). -/
  | sra (isl : IslN) (rd : Reg) (rs1 : Reg) (rs2 : Reg)
  /-- SLT. Signed less than (Tables 7-3 and 7-4). -/
  | slt (isl : IslN) (rd : Reg) (rs1 : Reg) (rs2 : Reg)
  /-- SLTU. Unsigned less than (Tables 7-3 and 7-4). -/
  | sltu (isl : IslN) (rd : Reg) (rs1 : Reg) (rs2 : Reg)
  /-- MUL. Low 64 bits of the product (Tables 7-3 and 7-4). -/
  | mul (isl : IslN) (rd : Reg) (rs1 : Reg) (rs2 : Reg)
  /-- MULH. High 64 bits of the signed product (Tables 7-3 and 7-4). -/
  | mulh (isl : IslN) (rd : Reg) (rs1 : Reg) (rs2 : Reg)
  /-- MIN. Signed minimum (Tables 7-3 and 7-4). -/
  | minR (isl : IslN) (rd : Reg) (rs1 : Reg) (rs2 : Reg)
  /-- MAX. Signed maximum (Tables 7-3 and 7-4). -/
  | maxR (isl : IslN) (rd : Reg) (rs1 : Reg) (rs2 : Reg)
  /-- ADDI. Immediate add (Tables 7-3 and 7-4). -/
  | addi (isl : IslN) (rd : Reg) (rs1 : Reg) (imm : Imm15)
  /-- ANDI. Immediate and (Tables 7-3 and 7-4). -/
  | andi (isl : IslN) (rd : Reg) (rs1 : Reg) (imm : Imm15)
  /-- ORI. Immediate or (Tables 7-3 and 7-4). -/
  | ori (isl : IslN) (rd : Reg) (rs1 : Reg) (imm : Imm15)
  /-- XORI. Immediate exclusive or (Tables 7-3 and 7-4). -/
  | xori (isl : IslN) (rd : Reg) (rs1 : Reg) (imm : Imm15)
  /-- SLLI. Immediate shift left (Tables 7-3 and 7-4). -/
  | slli (isl : IslN) (rd : Reg) (rs1 : Reg) (imm : Imm15)
  /-- SRLI. Immediate logical shift right (Tables 7-3 and 7-4). -/
  | srli (isl : IslN) (rd : Reg) (rs1 : Reg) (imm : Imm15)
  /-- SRAI. Immediate arithmetic shift right (Tables 7-3 and 7-4). -/
  | srai (isl : IslN) (rd : Reg) (rs1 : Reg) (imm : Imm15)
  /-- SLTI. Immediate signed less than (Tables 7-3 and 7-4). -/
  | slti (isl : IslN) (rd : Reg) (rs1 : Reg) (imm : Imm15)
  /-- LUI. rd = sign-extended imm23 shifted left by 15. -/
  | lui (isl : IslN) (rd : Reg) (imm : Imm23)
  /-- LB. Load from the Shelf (Tables 7-3 and 7-4). -/
  | lb (isl : IslN) (rd : Reg) (rs1 : Reg) (imm : Imm15)
  /-- LH. Load from the Shelf (Tables 7-3 and 7-4). -/
  | lh (isl : IslN) (rd : Reg) (rs1 : Reg) (imm : Imm15)
  /-- LW. Load from the Shelf (Tables 7-3 and 7-4). -/
  | lw (isl : IslN) (rd : Reg) (rs1 : Reg) (imm : Imm15)
  /-- LD. Load from the Shelf (Tables 7-3 and 7-4). -/
  | ld (isl : IslN) (rd : Reg) (rs1 : Reg) (imm : Imm15)
  /-- LBU. Load from the Shelf (Tables 7-3 and 7-4). -/
  | lbu (isl : IslN) (rd : Reg) (rs1 : Reg) (imm : Imm15)
  /-- LHU. Load from the Shelf (Tables 7-3 and 7-4). -/
  | lhu (isl : IslN) (rd : Reg) (rs1 : Reg) (imm : Imm15)
  /-- LWU. Load from the Shelf (Tables 7-3 and 7-4). -/
  | lwu (isl : IslN) (rd : Reg) (rs1 : Reg) (imm : Imm15)
  /-- SB. Store to the Shelf (Tables 7-3 and 7-4). -/
  | sb (isl : IslN) (rs2 : Reg) (rs1 : Reg) (imm : Imm15)
  /-- SH. Store to the Shelf (Tables 7-3 and 7-4). -/
  | sh (isl : IslN) (rs2 : Reg) (rs1 : Reg) (imm : Imm15)
  /-- SW. Store to the Shelf (Tables 7-3 and 7-4). -/
  | sw (isl : IslN) (rs2 : Reg) (rs1 : Reg) (imm : Imm15)
  /-- SD. Store to the Shelf (Tables 7-3 and 7-4). -/
  | sd (isl : IslN) (rs2 : Reg) (rs1 : Reg) (imm : Imm15)
  /-- BRANCH. Conditional branch. -/
  | branch (isl : IslN) (cond : Cond) (rs1 : Reg) (rs2 : Reg) (imm : Imm15)
  /-- JAL. Jump and link. -/
  | jal (isl : IslN) (rd : Reg) (imm : Imm23)
  /-- JALR. Indirect jump and link. -/
  | jalr (isl : IslN) (rd : Reg) (rs1 : Reg) (imm : Imm15)
  /-- CSRR. Read of a task control word. -/
  | csrr (isl : IslN) (rd : Reg) (csr : Csr)
  /-- CSRW. Write of a task control word. -/
  | csrw (isl : IslN) (csr : Csr) (rs1 : Reg)
  /-- WAIT. Wait for the conditions named by rs1. -/
  | wait (isl : IslN) (rs1 : Reg)
  /-- TRAP. Raise TRAP. -/
  | trap (isl : IslN) (rs1 : Reg)
  /-- EXIT. End the task or the segment. -/
  | exit (isl : IslN) (rs1 : Reg)
  /-- ERET. Return from a handler. -/
  | eret (isl : IslN)
  /-- FENCE. Order earlier stores and DMA writes. -/
  | fence (isl : IslN)
  /-- DMA_RD. Issue a DMA read. -/
  | dmaRd (isl : IslN) (rd : Reg) (rs1 : Reg)
  /-- DMA_WR. Issue a DMA write. -/
  | dmaWr (isl : IslN) (rd : Reg) (rs1 : Reg)
  /-- DMA_WAITTAG. Wait for tags and deliver DMA_ERROR. -/
  | dmaWaittag (isl : IslN) (rs1 : Reg)
  -- Task slots and DMA
  /-- WAIT_SATISFIED. The condition of a WAITING slot comes to hold. -/
  | waitSatisfied (isl : IslN) (slot : SlotN)
  /-- DMA_COMPLETE. Every completion of a DMA request has arrived or timed out. -/
  | dmaComplete (isl : IslN) (slot : SlotN) (tag : Tag) (r : DmaResult)
  /-- STOP_REQUEST. A stop request reaches a task slot. -/
  | stopRequest (isl : IslN) (slot : SlotN)
  /-- STOP_COMPLETE. A stopping slot finishes draining. -/
  | stopComplete (isl : IslN) (slot : SlotN)
  /-- TASK_END. The final writes of a lead slot have finished. -/
  | taskEnd (isl : IslN) (slot : SlotN)
  -- Crates and the Grid
  /-- CRATE_LOAD. Copy rows into a crate; the operand words are in rs1 and rs2. -/
  | crateLoad (isl : IslN) (cr : Reg) (rs1 : Reg) (rs2 : Reg) (p6 : Bool)
  /-- CRATE_STORE. Copy rows out of a crate. -/
  | crateStore (isl : IslN) (cr : Reg) (rs1 : Reg) (rs2 : Reg) (p6 : Bool)
  /-- CRATE_ZERO. Zero a crate. -/
  | crateZero (isl : IslN) (cr : Reg)
  /-- CRATE_RELEASE. Empty a crate. -/
  | crateRelease (isl : IslN) (cr : Reg)
  /-- CRATE_MAP. Overlay a crate. -/
  | crateMap (isl : IslN) (cr : Reg) (rs1 : Reg)
  /-- CRATE_UNMAP. Remove an overlay. -/
  | crateUnmap (isl : IslN) (cr : Reg)
  /-- CRATE_XFER_DONE. A crate transfer of an island completes. -/
  | crateXferDone (isl : IslN) (x : XferEnd)
  /-- CRATE_SWAP_DONE. The save and restore of an island's crates completes. -/
  | crateSwapDone (x : SwapEnd)
  /-- GRID_FMT. Set the format codes. -/
  | gridFmt (isl : IslN) (rs1 : Reg)
  /-- GRID_MM. Issue a block product from zero. -/
  | gridMm (isl : IslN) (rs1 : Reg)
  /-- GRID_MMA. Issue a block product that adds. -/
  | gridMma (isl : IslN) (rs1 : Reg)
  /-- GRID_OP_START. The head Grid operation enters its first row-step. -/
  | gridOpStart (isl : IslN)
  /-- GRID_OP_DONE. The head Grid operation of an island completes. -/
  | gridOpDone (isl : IslN) (x : GridEnd)
  -- Vector engine
  /-- VEC_RUN. Queue a vector program. -/
  | vecRun (isl : IslN) (rs1 : Reg) (rs2 : Reg)
  /-- VEC_SYNC. Order later vector programs. -/
  | vecSync (isl : IslN)
  /-- VEC_PROGRAM_START. The head vector program starts. -/
  | vecProgramStart (isl : IslN)
  /-- VEND. End of the program (Table 11-3). -/
  | vend (isl : IslN) (f : VFields)
  /-- VNOP. No effect (Table 11-3). -/
  | vnop (isl : IslN) (f : VFields)
  /-- VADDP. Address register add (Table 11-3). -/
  | vaddp (isl : IslN) (f : VFields)
  /-- VLD. Load as binary32 (Table 11-3). -/
  | vld (isl : IslN) (f : VFields)
  /-- VLDI. Load as INT32 (Table 11-3). -/
  | vldi (isl : IslN) (f : VFields)
  /-- VLDW. Load E8M31 (Table 11-3). -/
  | vldw (isl : IslN) (f : VFields)
  /-- VST. Store binary32 (Table 11-3). -/
  | vst (isl : IslN) (f : VFields)
  /-- VSTI. Store INT32 (Table 11-3). -/
  | vsti (isl : IslN) (f : VFields)
  /-- VSTW. Store E8M31 (Table 11-3). -/
  | vstw (isl : IslN) (f : VFields)
  /-- VADD. Add (Table 11-3). -/
  | vadd (isl : IslN) (f : VFields)
  /-- VSUB. Subtract (Table 11-3). -/
  | vsub (isl : IslN) (f : VFields)
  /-- VMUL. Multiply (Table 11-3). -/
  | vmul (isl : IslN) (f : VFields)
  /-- VFMA. Fused multiply-add (Table 11-3). -/
  | vfma (isl : IslN) (f : VFields)
  /-- VMAX. Maximum (Table 11-3). -/
  | vmax (isl : IslN) (f : VFields)
  /-- VMIN. Minimum (Table 11-3). -/
  | vmin (isl : IslN) (f : VFields)
  /-- VABS. Absolute value (Table 11-3). -/
  | vabs (isl : IslN) (f : VFields)
  /-- VNEG. Negate (Table 11-3). -/
  | vneg (isl : IslN) (f : VFields)
  /-- VCMPLT. Less than (Table 11-3). -/
  | vcmplt (isl : IslN) (f : VFields)
  /-- VSEL. Select (Table 11-3). -/
  | vsel (isl : IslN) (f : VFields)
  /-- VBCAST. Broadcast (Table 11-3). -/
  | vbcast (isl : IslN) (f : VFields)
  /-- VCVTIF. INT32 to binary32 (Table 11-3). -/
  | vcvtif (isl : IslN) (f : VFields)
  /-- VCVTFI. binary32 to INT32 (Table 11-3). -/
  | vcvtfi (isl : IslN) (f : VFields)
  /-- VIADD. INT32 add (Table 11-3). -/
  | viadd (isl : IslN) (f : VFields)
  /-- VISUB. INT32 subtract (Table 11-3). -/
  | visub (isl : IslN) (f : VFields)
  /-- VIMUL. INT32 multiply (Table 11-3). -/
  | vimul (isl : IslN) (f : VFields)
  /-- VAND. And (Table 11-3). -/
  | vand (isl : IslN) (f : VFields)
  /-- VOR. Or (Table 11-3). -/
  | vor (isl : IslN) (f : VFields)
  /-- VXOR. Exclusive or (Table 11-3). -/
  | vxor (isl : IslN) (f : VFields)
  /-- VSHL. Shift left (Table 11-3). -/
  | vshl (isl : IslN) (f : VFields)
  /-- VSHRL. Logical shift right (Table 11-3). -/
  | vshrl (isl : IslN) (f : VFields)
  /-- VSHRA. Arithmetic shift right (Table 11-3). -/
  | vshra (isl : IslN) (f : VFields)
  /-- VIMIN. INT32 minimum (Table 11-3). -/
  | vimin (isl : IslN) (f : VFields)
  /-- VIMAX. INT32 maximum (Table 11-3). -/
  | vimax (isl : IslN) (f : VFields)
  /-- VIMM. Immediate (Table 11-3). -/
  | vimm (isl : IslN) (f : VFields)
  /-- VADDW. Wide add (Table 11-3). -/
  | vaddw (isl : IslN) (f : VFields)
  /-- VCVTFW. binary32 to wide (Table 11-3). -/
  | vcvtfw (isl : IslN) (f : VFields)
  /-- VSFU. Special function (Table 11-3). -/
  | vsfu (isl : IslN) (f : VFields)
  /-- VGATE. Gate (Table 11-3). -/
  | vgate (isl : IslN) (f : VFields)
  /-- VRMAX. Row maximum (Table 11-3). -/
  | vrmax (isl : IslN) (f : VFields)
  /-- VRSUM. Row sum (Table 11-3). -/
  | vrsum (isl : IslN) (f : VFields)
  /-- VRSEXP. Row exponentials (Table 11-3). -/
  | vrsexp (isl : IslN) (f : VFields)
  /-- VRMEAN. Row mean (Table 11-3). -/
  | vrmean (isl : IslN) (f : VFields)
  /-- VRVAR. Row variance (Table 11-3). -/
  | vrvar (isl : IslN) (f : VFields)
  /-- VRMS. Row mean square (Table 11-3). -/
  | vrms (isl : IslN) (f : VFields)
  /-- VTREE. Canonical tree (Table 11-3). -/
  | vtree (isl : IslN) (f : VFields)
  /-- VSDOT. Strict dot product (Table 11-3). -/
  | vsdot (isl : IslN) (f : VFields)
  /-- VDW. Depthwise chain (Table 11-3). -/
  | vdw (isl : IslN) (f : VFields)
  -- Range coding and edge layers
  /-- RCE_JOB_SUBMIT. A job block reaches the assembling RCE. -/
  | rceJobSubmit (isl : IslN) (slot : SlotN) (ord : Nat)
  /-- ENCODE. The assembling RCE runs the coding of an ENCODE job. -/
  | encode (rce : Rce)
  /-- DECODE. The assembling RCE runs the decoding of a DECODE job. -/
  | decode (rce : Rce)
  /-- SUBSTREAM_REQUEST. An RCE takes the next waiting substream request. -/
  | substreamRequest (rce : Rce)
  /-- FRAME_ASSEMBLY. Every substream of the RCE’s job has ended. -/
  | frameAssembly (rce : Rce)
  /-- RCE_RESTART. An error inside an RCE. -/
  | rceRestart (rce : Rce)
  /-- ELE_LAYER_START. An ELE takes the next waiting layer request; the extent of its input is `rows` by `cols` positions. -/
  | eleLayerStart (ele : Ele) (rows : Nat) (cols : Nat)
  /-- ELE_CHUNK. The ELE takes up what stands ready for its layer: the raw chunk that a tied read has brought, the tensor from the room, or room in the raw buffer for its next chunk of output. -/
  | eleChunk (ele : Ele)
  /-- ELE_LAYER_DONE. The running layer of an ELE completes. -/
  | eleLayerDone (ele : Ele)
  /-- ELE_RESTART. An error inside an ELE. -/
  | eleRestart (ele : Ele)
  -- Reproducibility and twins
  /-- RESPONSE_RELEASE. A held response reaches its release instant. -/
  | responseRelease (isl : IslN) (slot : SlotN) (tag : Tag)
  /-- REARM. REPRO_ROOM_n_CTRL.REARM is written 1. -/
  | rearm (room : Room)
  /-- PAIR. PAIR is written; `peer` is what the partner presents in the pairing checks, where it has written PAIR within the last 10 ms. -/
  | pair (peer : Option TwinCheck)
  /-- UNPAIR. UNPAIR is written. -/
  | unpair
  /-- PAIRING_TIMEOUT. 10 ms pass without both devices passing. -/
  | pairingTimeout
  /-- TWIN_START_MSG. A start message reaches the secondary; the outcome under R121 is 0 on time, 1 late, 2 dropped. -/
  | twinStartMsg (queue : Nat) (no : Nat) (outcome : Nat)
  /-- TWIN_COMPARE. A comparison message arrives. -/
  | twinCompare (queue : Nat) (no : Nat) (m : TwinMsg)
  /-- TWIN_SOLO_TIMEOUT. A twin message is overdue, or the twin port leaves UP. -/
  | twinSoloTimeout
  /-- DIGEST_REFETCH. The input bytes not hashed inline arrive. -/
  | digestRefetch (isl : IslN) (slot : SlotN) (data : Bytes) (err : Bool)
  -- Cellar, Pantry and BAR4
  /-- LOAD. The LOAD request of a Pantry window starts. In a room of a span, `before` is the number of islands of the members before this device and `total` that of all members (R379); elsewhere both are ignored. -/
  | load (win : Win) (before : Nat) (total : Nat)
  /-- UNLOAD. The UNLOAD request of a Pantry window starts. -/
  | unload (win : Win)
  /-- GRAPH_LOAD_DONE. The copies of a graph load finish. -/
  | graphLoadDone (win : Win)
  /-- BAR4_READ. A host read through BAR4. -/
  | bar4Read (fn : Fn) (off : Nat) (len : Nat)
  /-- BAR4_WRITE. A host write through BAR4. -/
  | bar4Write (fn : Fn) (off : Nat) (data : Bytes)
  /-- CELLAR_SCRUB. The scrubber reads a line. -/
  | cellarScrub (ctl : Fin 4) (line : Nat) (e : EccResult)
  /-- SHELF_SCRUB. A Shelf scrubber reads a word. -/
  | shelfScrub (isl : IslN) (word : Nat) (e : EccResult)
  -- Mesh, time and clocks
  /-- MESH_PACKET_ARRIVE. A mesh packet reaches its destination. -/
  | meshPacketArrive (p : MeshPacket)
  /-- REQUEST_TIMEOUT. A mesh request of a task has been outstanding for 10 µs: issued by `unit`, on DMA tag `tag` where that is the T-island. -/
  | requestTimeout (isl : IslN) (slot : SlotN) (unit : Nat) (tag : Nat)
  /-- PASSAGE_STALL. A Stream Passage handshake has been outstanding for 1 ms. -/
  | passageStall (passage : Nat)
  /-- GTC_FULL_VALUE. The full GTC value reaches an island. -/
  | gtcFullValue (src : Nat) (value : Nat)
  /-- GTC_ERR_MEASURE. The Housekeeper measures GTC_ERR; `after` is the error after a recalibration. -/
  | gtcErrMeasure (src : Nat) (err : Int) (after : Int)
  /-- REF_LOST. The board reference fails. -/
  | refLost
  /-- REF_RESTORED. The board reference returns. -/
  | refRestored
  /-- THERMAL_STEP. The 100 µs step of the thermal factor, with the sensor readings. -/
  | thermalStep (r : Sensors)
  /-- DCO_RETUNE. A retune ends. -/
  | dcoRetune (src : Nat)
  /-- GTC_STEP_APPLY. The last task that deferred a step has ended. -/
  | gtcStepApply
  -- Hatal Link
  /-- HEARTBEAT_SEND. 10 µs have passed since the last heartbeat sent. -/
  | heartbeatSend (port : Port)
  /-- HEARTBEAT. A heartbeat frame arrives. -/
  | heartbeat (port : Port) (h : LHdr) (epoch : Nat) (chip : Nat) (gtc : Nat) (echo : Nat)
  /-- HEARTBEAT_TIMEOUT. 31 µs pass without a valid heartbeat. -/
  | heartbeatTimeout (port : Port)
  /-- LOSS_OF_SIGNAL. An active lane loses signal or FEC lock. -/
  | lossOfSignal (port : Port) (lane : Fin 16)
  /-- NAK. A NAK arrives, naming the next SEQ the partner expects. -/
  | nak (port : Port) (h : LHdr) (seq : Nat)
  /-- CREDIT_FRAME. A credit and acknowledge frame arrives. -/
  | creditFrame (port : Port) (h : LHdr)
  /-- TRAINING_START. The backoff has elapsed with signal on every lane. -/
  | trainingStart (port : Port)
  /-- TRAINING_DONE. The steps of R350 end with what the partner presented. -/
  | trainingDone (port : Port) (p : Partner)
  /-- TRAINING_TIMEOUT. 200 ms of TRAINING pass. -/
  | trainingTimeout (port : Port)
  /-- PROBATION_END. PROBATION ends with the error counts seen. -/
  | probationEnd (port : Port) (uncorr : Nat) (crcFails : Nat) (corrected : Nat)
  /-- BACKOFF_RESET. 1 s in UP has passed. -/
  | backoffReset (port : Port)
  /-- LINK_PORT_RESET. LINK_n_CTRL.RESET is written 1. -/
  | linkPortReset (port : Port)
  /-- LINK_QUARANTINE. LINK_n_CTRL.QUARANTINE is written 1. -/
  | linkQuarantine (port : Port)
  /-- LINK_RELEASE. LINK_n_CTRL.RELEASE is written 1. -/
  | linkRelease (port : Port)
  /-- REKEY. LINK_n_CTRL.REKEY is written 1. -/
  | rekey (port : Port)
  /-- READ. A READ frame arrives. -/
  | read (port : Port) (h : LHdr) (t : THdr)
  /-- READ_RESP. A READ_RESP frame arrives. -/
  | readResp (port : Port) (h : LHdr) (t : THdr) (data : Bytes)
  /-- WRITE. A WRITE frame arrives. -/
  | write (port : Port) (h : LHdr) (t : THdr) (data : Bytes)
  /-- WRITE_ACK. A WRITE_ACK frame arrives. -/
  | writeAck (port : Port) (h : LHdr) (t : THdr)
  /-- COLL. A COLL frame arrives. -/
  | coll (port : Port) (h : LHdr) (t : THdr) (data : Bytes)
  /-- MSG. A MSG frame arrives. -/
  | msg (port : Port) (h : LHdr) (t : THdr) (m : LMsg)
  /-- LEASE_REQ. A LEASE_REQ frame arrives. -/
  | leaseReq (port : Port) (h : LHdr) (t : THdr) (win : Nat)
  /-- LEASE_GRANT. A LEASE_GRANT frame arrives. -/
  | leaseGrant (port : Port) (h : LHdr) (t : THdr) (win : Nat) (leaseUs : Nat)
  /-- LEASE_RENEW. A LEASE_RENEW frame arrives. -/
  | leaseRenew (port : Port) (h : LHdr) (t : THdr) (wins : List Nat)
  /-- LEASE_ACK. A LEASE_ACK frame arrives. -/
  | leaseAck (port : Port) (h : LHdr) (t : THdr) (wins : List Nat)
  /-- LEASE_RELEASE. A LEASE_RELEASE frame arrives. -/
  | leaseRelease (port : Port) (h : LHdr) (t : THdr) (win : Nat)
  /-- LEASE_RENEW_TIMER. 10 µs have passed since the last renewal sent to a grantor. -/
  | leaseRenewTimer (grantor : Nat)
  /-- LEASE_EXPIRY. A lease timer reaches its expiry. -/
  | leaseExpiry (side : LeaseSide) (chip : Nat) (win : Nat)
  /-- LEASE_IDLE_RELEASE. A held lease has seen no request for LEASE_US. -/
  | leaseIdleRelease (chip : Nat) (win : Nat)
  /-- REMOTE_REQ_TIMEOUT. A remote request has had no response for RETRY_US. -/
  | remoteReqTimeout (tag : Nat)
  -- Cells, yards and spans
  /-- PORT_MAP. A port-map message arrives: the states of the sender’s eight ports. -/
  | portMap (chip : Nat) (ver : Nat) (ports : List Nat)
  /-- PORT_MAP_TIMER. 1 ms has passed since the last port-map messages. -/
  | portMapTimer
  /-- PTP_SYNC. A PTP Sync is received: PTP time in ns at its receipt. -/
  | ptpSync (ptp : Nat)
  /-- PTP_LOSS. An event of R374 loses PTP. -/
  | ptpLoss
  /-- TOP_CHIP_WRITE. TOP_CHIP is written. -/
  | topChipWrite (v : Word)
  /-- SPAN_CHECK. A member’s answer reaches the head. -/
  | spanCheck (room : Room) (pos : Nat) (ans : SpanAns)
  /-- SPAN_CHECK_TIMER. 10 ms have passed, or RETRY_US without an answer. -/
  | spanCheckTimer (room : Room)
  /-- SPAN_START. A start message reaches a member. -/
  | spanStart (room : Room) (st : SpanStartMsg)
  /-- SPAN_STOP. A stop message reaches a member. -/
  | spanStop (room : Room) (ref : Nat)
  /-- HEAD_UNREACHABLE. The head has been unreachable for RETRY_US. -/
  | headUnreachable (room : Room)
  -- Sweep, Audit, verification and drain
  /-- SWEEP_SLOT_END. The slot of the swept unit ends. -/
  | sweepSlotEnd
  /-- SWEEP_FORCE. 75% of the slot has passed. -/
  | sweepForce
  /-- SWEEP_STEP_START. A Sweep step starts. -/
  | sweepStepStart
  /-- SWEEP_STEP_DONE. The Sweep step under way completes. -/
  | sweepStepDone (pass_ : Bool)
  /-- SWEEP_YIELD. Work arrives at the swept unit. -/
  | sweepYield
  /-- AUDIT_GO. RAS_AUDIT is written. -/
  | auditGo (v : Word)
  /-- AUDIT_TEST_DONE. The pass of an Audit test ends, of PF0 or of a room Audit, or the named step fails. -/
  | auditTestDone (room : Option Room) (failed : Option Nat)
  /-- AUDIT_ABORT. The Audit unit has not become idle within 100 ms. -/
  | auditAbort
  /-- VERIFY_START. A suspect unit is idle and its verification pass starts. -/
  | verifyStart (unit : Nat)
  /-- VERIFY_DONE. A verification pass ends, or the named step fails. -/
  | verifyDone (unit : Nat) (failed : Option Nat)
  /-- DRAIN_LIMIT. RAS_DRAIN.LIMIT_MS has passed. -/
  | drainLimit
  /-- DRAIN_COMPLETE. No task runs and the entry is written. -/
  | drainComplete
  -- The Ledger and the Inventory
  /-- LEDGER_EVENT. A unit hands over an event. -/
  | ledgerEvent (src : Nat) (cls : Nat) (code : Nat) (ten : Nat) (sev : Nat) (payload : Bytes)
  /-- LEDGER_SEAL. The writer takes the next staged event. -/
  | ledgerSeal
  /-- COALESCE_CLOSE. A coalescing counter is due. -/
  | coalesceClose (src : Nat) (cls : Nat) (code : Nat) (ten : Nat)
  /-- MIRROR_COPY. The mirror copies the next record. -/
  | mirrorCopy
  /-- HOST_HEAD_WRITE. LEDG_HOST_HEAD is written. -/
  | hostHeadWrite (v : Word)
  /-- LEDG_CFG_WRITE. LEDG_CFG is written. -/
  | ledgCfgWrite (v : Word)
  /-- INJECT. LEDG_INJECT is written. -/
  | inject (v : Word)
  /-- INVENTORY_AUDIT. LEDG_INV_CTRL is written. -/
  | inventoryAudit (v : Word)
  /-- AUDIT_INSTANT. GTC reaches T; `wrong` are the books whose holders latched another count than the machine’s own, through a fault. -/
  | auditInstant (wrong : List BookIn)
  -- Boot, power and attestation
  /-- PERST. A low pulse of PERST# of `ns`; `hotC` is the hottest sensor at its rising edge. -/
  | perst (ns : Nat) (hotC : Nat)
  /-- BOOT_READY. Boot completes its stages, with what they found. -/
  | bootReady (b : BootIn)
  /-- MAIN_INPUT_REMOVED. Main input power is removed. -/
  | mainInputRemoved
  /-- THERMAL_TRIP. A sensor at 105 °C, an undervoltage or an overcurrent. -/
  | thermalTrip (cause : TripCause)
  /-- D3HOT_ENTRY. PF0 PowerState = D3hot. -/
  | d3hotEntry
  /-- D0_RETURN. PF0 PowerState = D0. -/
  | d0Return
  /-- POWER_GATE. A unit in no room has been idle for 1 ms. -/
  | powerGate (unit : Nat)
  /-- POWER_WAKE. A gated unit is woken. -/
  | powerWake (unit : Nat)
  /-- COMPLETION_TIMEOUT. The completion timeout of a host read passes. -/
  | completionTimeout (isl : IslN) (slot : SlotN) (tag : Tag)
  /-- FW_UPDATE. HK_FW_CTRL is written with GO. -/
  | fwUpdate (v : Word)
  /-- FW_UPDATE_DONE. A firmware update ends. -/
  | fwUpdateDone (r : FwResult)
  /-- GET_VERSION. SPDM request. -/
  | getVersion
  /-- GET_CAPABILITIES. SPDM request. -/
  | getCapabilities
  /-- NEGOTIATE_ALGORITHMS. SPDM request. -/
  | negotiateAlgorithms
  /-- GET_DIGESTS. SPDM request. -/
  | getDigests
  /-- GET_CERTIFICATE. SPDM request. -/
  | getCertificate (slot : Nat)
  /-- CHALLENGE. SPDM request. -/
  | challenge (slot : Nat)
  /-- GET_MEASUREMENTS. SPDM request. -/
  | getMeasurements (index : Nat)
  /-- KEY_EXCHANGE. SPDM request. -/
  | keyExchange (session : Nat)
  /-- FINISH. SPDM request; `ok` is the verdict on its authenticator. -/
  | finish (session : Nat) (ok : Bool)
  /-- KEY_UPDATE. SPDM request. -/
  | keyUpdate (session : Nat)
  /-- END_SESSION. SPDM request. -/
  | endSession (session : Nat)
  /-- GET_RETIREMENT. SMBus vendor command 0x01. -/
  | getRetirement
  /-- GET_IDENTITY. SMBus vendor command 0x02. -/
  | getIdentity
  /-- PLDM_SENSOR_READ. PLDM sensor read over SMBus. -/
  | pldmSensorRead (sensor : PldmSensor)
  /-- CORRUPT_FRAME. A frame arrives that the receiver discards. -/
  | corruptFrame (port : Port) (k : Corrupt) (h : LHdr)
  /-- POWER_ON. Auxiliary power arrives. -/
  | powerOn
  /-- IDE_KM_REQUEST. An IDE_KM request over a secured session. -/
  | ideKmRequest (session : Nat) (op : IdeOp)
  /-- BOUNDARY_SCAN. A JTAG instruction takes effect. -/
  | boundaryScan (j : Jtag)
  /-- RATE_PACED_SEND. The bucket of the partner has refilled enough. -/
  | ratePacedSend (port : Port)
  /-- RESERVED_INSTRUCTION. An instruction word that is reserved or undefined is reached. -/
  | reservedInstruction (isl : IslN) (vec : Bool) (w : Word)
  deriving DecidableEq, Repr

end Sys2Proof
end

