-- ==== Sys2Proof/Machine/Bits.lean ====
section
/-! DEFINITION. Bit fields, byte order, saturation, sparse maps and sets of numbers: the helpers every
chapter uses. Bit 0 is the least significant (R5); bytes are little-endian (R6). -/

namespace Sys2Proof.Machine

/-- The field of `n` bits whose lowest bit is `lo`. -/
def fld (w : Word) (lo n : Nat) : Nat := (w.toNat / 2 ^ lo) % 2 ^ n

/-- A number's field, for words wider than a register. -/
def nfld (w lo n : Nat) : Nat := (w / 2 ^ lo) % 2 ^ n

/-- One bit of a word. -/
def bitOf (w : Word) (i : Nat) : Bool := w.getLsbD i

/-- One bit of a number. -/
def nbit (w i : Nat) : Bool := (w / 2 ^ i) % 2 == 1

def b2n (b : Bool) : Nat := if b then 1 else 0

/-- A word packed from fields, each given by lowest bit, width and value; a value too large keeps its low bits. -/
def packW : List (Nat × Nat × Nat) → Word
  | [] => 0
  | (lo, n, v) :: rest => BitVec.ofNat 64 ((v % 2 ^ n) * 2 ^ lo) ||| packW rest

/-- A word with one field replaced. -/
def setFld (w : Word) (lo n v : Nat) : Word :=
  (w &&& ~~~ (BitVec.ofNat 64 ((2 ^ n - 1) * 2 ^ lo))) ||| BitVec.ofNat 64 ((v % 2 ^ n) * 2 ^ lo)

/-- The mask of the fields given by lowest bit and width. -/
def maskW : List (Nat × Nat) → Word
  | [] => 0
  | (lo, n) :: rest => BitVec.ofNat 64 ((2 ^ n - 1) * 2 ^ lo) ||| maskW rest

/-- A word with one bit set. -/
def setBit (w : Word) (i : Nat) : Word := w ||| BitVec.ofNat 64 (2 ^ i)

/-- A word with one bit clear. -/
def clrBit (w : Word) (i : Nat) : Word := w &&& ~~~ (BitVec.ofNat 64 (2 ^ i))

/-- The word whose bit `i` says whether `p i`, for `i` below `n`. -/
def wordOf (n : Nat) (p : Nat → Bool) : Word :=
  (List.range n).foldl (fun w i => if p i then setBit w i else w) 0

/-- The numbers of the set bits below `n`, ascending. -/
def bitsOf (n : Nat) (w : Word) : List Nat := (List.range n).filter (bitOf w)

/-- A count that stops at the largest value of an `n`-bit field. -/
def sat (n v : Nat) : Nat := if v < 2 ^ n then v else 2 ^ n - 1

/-- One more, saturating in `n` bits. -/
def sat1 (n v : Nat) : Nat := sat n (v + 1)

/-- One more, wrapping in `n` bits. -/
def wrap1 (n v : Nat) : Nat := (v + 1) % 2 ^ n

/-- A number reduced modulo `2 ^ n` (wrap of Table 0-6). -/
def wrapN (n : Nat) (v : Int) : Nat := (v % (2 ^ n : Int)).toNat

/-- The signed value of an `n`-bit field. -/
def signed (n v : Nat) : Int := if v % 2 ^ n < 2 ^ (n - 1) then (v % 2 ^ n : Nat) else (v % 2 ^ n : Nat) - (2 ^ n : Int)

/-- Rounded-up quotient. -/
def cdiv (a b : Nat) : Nat := (a + b - 1) / b

/-- `n` bytes of a number, little-endian. -/
def le : Nat → Nat → Bytes
  | 0, _ => []
  | n + 1, v => BitVec.ofNat 8 v :: le n (v / 256)

/-- The number that bytes spell, little-endian. -/
def unle : Bytes → Nat
  | [] => 0
  | b :: r => b.toNat + 256 * unle r

/-- `n` bytes of a number, most significant first. -/
def be (n v : Nat) : Bytes := (le n v).reverse

/-- The number that bytes spell, most significant first. -/
def unbe (b : Bytes) : Nat := unle b.reverse

/-- `len` bytes from `off`. -/
def slice (b : Bytes) (off len : Nat) : Bytes := (b.drop off).take len

/-- The little-endian number of `len` bytes at `off`. -/
def leAt (b : Bytes) (off len : Nat) : Nat := unle (slice b off len)

def zeros (n : Nat) : Bytes := List.replicate n 0

/-- Bytes cut or filled with zeros to exactly `n`. -/
def fit (n : Nat) (b : Bytes) : Bytes := (b ++ zeros n).take n

def allZero (b : Bytes) : Bool := b.all (· == 0)

/-- Bytes with those from `off` replaced by `v`. -/
def patch (b : Bytes) (off : Nat) (v : Bytes) : Bytes := b.take off ++ v ++ b.drop (off + v.length)

/-- `u` rounded down to a multiple of `n`. -/
def alignDown (n u : Nat) : Nat := u / n * n

/-- The aligned units of `n` bytes that `len` bytes at `a` touch, as unit addresses. -/
def unitsOf (n a len : Nat) : List Nat :=
  if len = 0 then [] else (List.range ((a + len - 1) / n - a / n + 1)).map (fun i => (a / n + i) * n)

/-! ### Sparse maps -/

/-- The entry of a key, if the map lists it. -/
def NMap.find? {α : Type} (m : NMap α) (k : Nat) : Option α :=
  match m with
  | [] => none
  | (j, v) :: r => if j = k then some v else NMap.find? r k

/-- The entry of a key, or the default. -/
def NMap.getD {α : Type} (m : NMap α) (k : Nat) (d : α) : α := (NMap.find? m k).getD d

/-- The map with one entry set, keys ascending. -/
def NMap.set {α : Type} (m : NMap α) (k : Nat) (v : α) : NMap α :=
  match m with
  | [] => [(k, v)]
  | (j, w) :: r => if k < j then (k, v) :: (j, w) :: r else if k = j then (k, v) :: r else (j, w) :: NMap.set r k v

/-- The map without a key. -/
def NMap.del {α : Type} (m : NMap α) (k : Nat) : NMap α := m.filter (fun e => e.1 != k)

/-- The map with one entry changed from its value or the default. -/
def NMap.upd {α : Type} (m : NMap α) (k : Nat) (d : α) (f : α → α) : NMap α := NMap.set m k (f (NMap.getD m k d))

/-- Every entry changed. -/
def NMap.mapV {α : Type} (m : NMap α) (f : Nat → α → α) : NMap α := m.map (fun e => (e.1, f e.1 e.2))

def NMap.keys {α : Type} (m : NMap α) : List Nat := m.map (·.1)

/-! ### Sets of numbers, ascending -/

/-- A number put into an ascending list, once. -/
def insN (k : Nat) : List Nat → List Nat
  | [] => [k]
  | j :: r => if k < j then k :: j :: r else if k = j then j :: r else j :: insN k r

def insAll (ks : List Nat) (l : List Nat) : List Nat := ks.foldl (fun a k => insN k a) l

def delAll (ks : List Nat) (l : List Nat) : List Nat := l.filter (fun k => !ks.contains k)

/-- The first element for which no other comes strictly before it. -/
def firstBy {α : Type} (lt : α → α → Bool) : List α → Option α
  | [] => none
  | a :: r =>
    match firstBy lt r with
    | none => some a
    | some b => if lt b a then some b else some a

/-- One element of a list replaced. -/
def setAt {α : Type} : List α → Nat → α → List α
  | [], _, _ => []
  | _ :: r, 0, v => v :: r
  | a :: r, n + 1, v => a :: setAt r n v

/-- Repeat a step. -/
def iter {α : Type} (f : α → α) : Nat → α → α
  | 0, a => a
  | n + 1, a => iter f n (f a)

end Sys2Proof.Machine
end

