-- ==== Sys2Proof/Machine/Formats.lean ====
section
/-! DEFINITION. Number formats (Number Formats, R179–R197): every code's exact value, the output
conversions with their flags, MX scales, and the E8M31 accumulator with its addition (R204, R205). -/

namespace Sys2Proof.Machine

/-- An exact value, or a special class: `(-1)^neg × m × 2^e`, infinity, NaN (true: signalling). -/
inductive Val where
  | fin (neg : Bool) (m : Nat) (e : Int)
  | inf (neg : Bool)
  | nan (signalling : Bool)
  deriving DecidableEq, Repr

/-- The sticky flags one operation sets: [0] OF, [1] UF, [2] NX, [3] NV (R213). -/
abbrev Flags := Nat

def flOF : Flags := 1
def flUF : Flags := 2
def flNX : Flags := 4
def flNV : Flags := 8

/-- The element formats: Table 8-1, binary32, HS16 and INT32 (R198). -/
inductive Fmt where
  | int8 | uint8 | mxint8 | e4m3 | e5m2 | e3m2 | e2m3 | e2m1 | hf8a | hf8b | hf6 | hi8 | hi4 | f16 | bf16
  | f32 | hs16 | int32
  deriving DecidableEq, Repr

/-- The format of a Table 8-1 code; 0xF is reserved. -/
def Fmt.ofCode : Nat → Option Fmt
  | 0 => some .int8 | 1 => some .uint8 | 2 => some .mxint8 | 3 => some .e4m3 | 4 => some .e5m2 | 5 => some .e3m2
  | 6 => some .e2m3 | 7 => some .e2m1 | 8 => some .hf8a | 9 => some .hf8b | 10 => some .hf6 | 11 => some .hi8
  | 12 => some .hi4 | 13 => some .f16 | 14 => some .bf16 | _ => none

/-- Exponent bits, fraction bits and bias of a floating format (Tables 9-1, 9-2). -/
def Fmt.float : Fmt → Option (Nat × Nat × Nat)
  | .f32 => some (8, 23, 127) | .f16 => some (5, 10, 15) | .bf16 => some (8, 7, 127)
  | .e4m3 => some (4, 3, 7) | .e5m2 => some (5, 2, 15) | .e3m2 => some (3, 2, 3) | .e2m3 => some (2, 3, 1)
  | .e2m1 => some (2, 1, 1) | .hf8a => some (4, 3, 8) | .hf8b => some (5, 2, 16) | .hf6 => some (3, 2, 4)
  | _ => none

/-- Bits of one element. -/
def Fmt.bits : Fmt → Nat
  | .f32 | .int32 => 32
  | .f16 | .bf16 | .hs16 => 16
  | .e3m2 | .e2m3 | .hf6 => 6
  | .e2m1 | .hi4 => 4
  | _ => 8

def Fmt.isMx : Fmt → Bool
  | .mxint8 | .e4m3 | .e5m2 | .e3m2 | .e2m3 | .e2m1 => true
  | _ => false

/-- Of the house family (Table 9-8); binary32, HS16 and INT32 are allowed in every profile. -/
def Fmt.isHouse : Fmt → Bool
  | .hf8a | .hf8b | .hf6 | .hi8 | .hi4 => true
  | _ => false

/-- Allowed by a NUMERIC FAMILY value (R198). -/
def Fmt.allowed (f : Fmt) (family : Nat) : Bool :=
  match f with
  | .f32 | .hs16 | .int32 => true
  | _ => if f.isHouse then nbit family 1 else nbit family 0

/-- IEEE infinity and NaN at the top exponent. -/
def Fmt.hasInf : Fmt → Bool
  | .f32 | .f16 | .bf16 | .e5m2 => true
  | _ => false

/-- The canonical NaN of R189, where the format has one. -/
def Fmt.nan? : Fmt → Option Nat
  | .f32 => some 0x7FC00000 | .f16 => some 0x7E00 | .bf16 => some 0x7FC0 | .e4m3 => some 0x7F | .e5m2 => some 0x7E
  | .hf8a | .hf8b | .hi8 => some 0x80 | .hi4 => some 8
  | _ => none

/-- Formats that can hold −0. -/
def Fmt.hasNegZero : Fmt → Bool
  | .f32 | .f16 | .bf16 | .e4m3 | .e5m2 | .e3m2 | .e2m3 | .e2m1 => true
  | _ => false

/-- The least and the greatest integer of an integer format, and its unit's exponent (R183, R184, R193). -/
def Fmt.int : Fmt → Option (Int × Int × Int)
  | .int8 => some (-128, 127, 0) | .uint8 => some (0, 255, 0) | .mxint8 => some (-128, 127, -6)
  | .hi8 => some (-127, 127, 0) | .hi4 => some (-7, 7, 0) | .hs16 => some (0, 65535, 0)
  | .int32 => some (-2147483648, 2147483647, 0)
  | _ => none

/-- The value of an integer as a sign and a magnitude. -/
def Val.ofInt (i : Int) (e : Int) : Val := .fin (decide (i < 0)) i.natAbs e

/-- The value of a floating code (R179), specials apart. -/
def decFloat (eb fb bias code : Nat) : Val :=
  let s := nbit code (eb + fb)
  let ex := nfld code fb eb
  let f := nfld code 0 fb
  if ex = 0 then .fin s f (1 - (bias : Int) - fb) else .fin s (2 ^ fb + f) ((ex : Int) - bias - fb)

/-- The value of a code, subnormals honoured and −0 kept (Tables 9-1, 9-2; R183, R184). -/
def Fmt.decode (f : Fmt) (code : Nat) : Val :=
  let c := code % 2 ^ f.bits
  match f.float with
  | some (eb, fb, bias) =>
    let s := nbit c (eb + fb)
    let ex := nfld c fb eb
    let fr := nfld c 0 fb
    if f.hasInf && ex == 2 ^ eb - 1 then (if fr = 0 then .inf s else .nan (f != .e5m2 && !nbit fr (fb - 1)))
    else match f with
      | .e4m3 => if ex = 15 ∧ fr = 7 then .nan false else decFloat eb fb bias c
      | .hf8a | .hf8b => if c = 0x80 then .nan false else decFloat eb fb bias c
      | .hf6 => if c = 0x20 then .fin false 0 0 else decFloat eb fb bias c
      | _ => decFloat eb fb bias c
  | none =>
    match f with
    | .int8 => .ofInt (signed 8 c) 0
    | .uint8 | .hs16 => .fin false c 0
    | .mxint8 => .ofInt (signed 8 c) (-6)
    | .hi8 => if c = 0x80 then .nan false else .ofInt (signed 8 c) 0
    | .hi4 => if c = 8 then .nan false else .ofInt (signed 4 c) 0
    | _ => .ofInt (signed 32 c) 0

/-- A subnormal code, judged by the element alone (R188). -/
def Fmt.isSub (f : Fmt) (code : Nat) : Bool :=
  match f.float with
  | some (eb, fb, _) => nfld code fb eb == 0 && nfld code 0 fb != 0
  | none => false

/-- MODE flushes this format's subnormals (Table 9-5). -/
def flushes (mode : Nat) (f : Fmt) : Bool :=
  f.float.isSome && (mode == 0 || (mode == 1 && (f.bits == 16 || f.bits == 32)))

/-- A code as an operation reads it: flushed under R188, −0 as +0 in a fast room (R186, R191). -/
def Fmt.load (f : Fmt) (mode code : Nat) : Val :=
  if flushes mode f && f.isSub code then .fin false 0 0
  else match f.decode code with
    | .fin s 0 e => if mode = 2 then .fin s 0 e else .fin false 0 0
    | v => v

/-- The flags of reading a code: NV for a signalling NaN in strict mode (R189). -/
def loadFlags (mode : Nat) : Val → Flags
  | .nan true => if mode = 2 then flNV else 0
  | _ => 0

/-- A value times the E8M0 scale X (R182). -/
def Val.scale (x : Nat) : Val → Val
  | .fin s m e => if x = 255 then .nan false else .fin s m (e + x - 127)
  | v => if x = 255 then .nan false else v

/-- The position of the highest set bit of `m × 2^e`. -/
def topBit (m : Nat) (e : Int) : Int := (Nat.log2 m : Int) + e

/-- `m × 2^e` in units of `2^q`, rounded: mode 0 or 1 to nearest even, 2 toward zero, 3 to nearest with ties away;
and whether it was inexact. -/
def roundAt (mode m : Nat) (e q : Int) : Nat × Bool :=
  if q ≤ e then (m * 2 ^ (e - q).toNat, false)
  else
    let sh := (q - e).toNat
    let d := m / 2 ^ sh
    let r := m % 2 ^ sh
    if r = 0 then (d, false)
    else
      let half := 2 ^ (sh - 1)
      let up := match mode with
        | 2 => false
        | 3 => decide (half ≤ r)
        | _ => decide (half < r) || (decide (r = half) && d % 2 == 1)
      (if up then d + 1 else d, true)

/-- Rounding to `p` significant bits with an unbounded exponent range: units, their exponent, inexactness. -/
def roundFree (mode p m : Nat) (e : Int) : Nat × Int × Bool :=
  let q := topBit m e - p + 1
  let (d, x) := roundAt mode m e q
  (d, q, x)

/-- Whether `m × 2^e` is below `2^t`, `m` not zero. -/
def below (m : Nat) (e t : Int) : Bool := decide (topBit m e < t)

/-- A finite magnitude rounded into a floating format with `p` significant bits, least normal exponent `emin` and
greatest finite magnitude `mx × 2^mxe`: units and their exponent, or none on overflow; and the flags NX, UF, OF. -/
def roundFmt (mode p : Nat) (emin : Int) (mx : Nat) (mxe : Int) (m : Nat) (e : Int) : Option (Nat × Int) × Flags :=
  if m = 0 then (some (0, emin - p + 1), 0)
  else
    let (fd, fq, _) := roundFree mode p m e
    if decide ((fd : Int) * 2 ^ (fq - mxe).toNat > (mx : Int) * 2 ^ (mxe - fq).toNat) then (none, flOF + flNX)
    else
      let q := max (topBit m e - p + 1) (emin - p + 1)
      let (d, x) := roundAt mode m e q
      let tiny := below fd fq emin
      (some (d, q), (if x then flNX else 0) + (if x && tiny then flUF else 0))

/-- The code of `d × 2^q` in a floating format, exactly representable. -/
def encFloat (eb fb bias : Nat) (neg : Bool) (d : Nat) (q : Int) : Nat :=
  let s := b2n neg * 2 ^ (eb + fb)
  if d = 0 then s
  else
    let t := topBit d q
    if t < 1 - (bias : Int) then s + (roundAt 2 d q (1 - (bias : Int) - fb)).1
    else s + (t + bias).toNat * 2 ^ fb + ((roundAt 2 d q (t - fb)).1 - 2 ^ fb)

/-- The greatest finite code of a floating format, sign apart. -/
def Fmt.maxCode (f : Fmt) : Nat :=
  match f with
  | .f32 => 0x7F7FFFFF | .f16 => 0x7BFF | .bf16 => 0x7F7F | .e4m3 => 0x7E | .e5m2 => 0x7B
  | .e3m2 | .hf6 | .e2m3 => 0x1F | .e2m1 => 7 | _ => 0x7F

/-- The magnitude of a value known finite. -/
def Val.mag : Val → Nat × Int
  | .fin _ m e => (m, e)
  | _ => (0, 0)

/-- Finite overflow goes to ±max finite, whatever OUTCONV (R193). -/
def Fmt.saturates : Fmt → Bool
  | .hf8a | .hf8b | .hf6 | .e3m2 | .e2m3 | .e2m1 => true
  | f => f.int.isSome

/-- Greater in magnitude. -/
def magLt (a b : Nat × Int) : Bool :=
  decide ((a.1 : Int) * 2 ^ (a.2 - b.2).toNat < (b.1 : Int) * 2 ^ (b.2 - a.2).toNat)

/-- Where an MXFP8 E5M2 element overflows: above 59,392, or from there under RNA_SAT; never under RTZ_SAT (R196). -/
def e5m2Over (outconv : Nat) (x : Nat × Int) : Bool :=
  outconv != 2 && (if outconv = 3 then !magLt x (59392, 0) else magLt (59392, 0) x)

/-- The two's complement code of an integer in the format's width. -/
def Fmt.encInt (f : Fmt) (i : Int) : Nat := wrapN f.bits i

/-- One output conversion (R192–R195): the code and the flags. A NAN written as +0, or an INF written as a finite value
or as NaN, differs from its source, so it sets NX (DEDUCED, log entry 10). -/
def Fmt.convert (f : Fmt) (mode outconv : Nat) (v : Val) : Nat × Flags :=
  match f.float, f.int with
  | some (eb, fb, bias), _ =>
    let s := fun (b : Bool) => b2n b * 2 ^ (eb + fb)
    match v with
    | .nan sg =>
      match f.nan? with
      | some c => (c, if mode = 2 ∧ sg then flNV else 0)
      | none => (0, flNV + flNX)
    | .inf b =>
      if f.hasInf then (s b + (2 ^ eb - 1) * 2 ^ fb, 0)
      else match f.nan?, outconv with
        | some c, 1 => (c, flNX)
        | _, _ => (s b + f.maxCode, flNX)
    | .fin b m e =>
      let emin := 1 - (bias : Int)
      if m = 0 then (if b && mode == 2 && f.hasNegZero then s true else 0, 0)
      else if flushes mode f && below m e emin then (0, flUF + flNX)
      else
        let mx := (f.decode f.maxCode).mag
        match (if f == .e5m2 && e5m2Over outconv (m, e) then (none, flOF + flNX) else roundFmt outconv (fb + 1) emin mx.1 mx.2 m e) with
        | (none, fl) =>
          if f.saturates || outconv != 1 then (s b + f.maxCode, fl)
          else if f.hasInf then (s b + (2 ^ eb - 1) * 2 ^ fb, fl)
          else ((f.nan?).getD 0, fl)
        | (some (d, q), fl) =>
          if d = 0 then (if b && mode == 2 && f.hasNegZero then s true else 0, fl)
          else (encFloat eb fb bias b d q, fl)
  | none, some (lo, hi, u) =>
    match v with
    | .nan _ => (match f.nan? with | some c => (c, 0) | none => (0, flNV + flNX))
    | .inf b => (match f.nan?, outconv with
      | some c, 1 => (c, flNV + flNX)
      | _, _ => (f.encInt (if b then lo else hi), flNV + flNX))
    | .fin b m e =>
      let (d, x) := roundAt outconv m e u
      let i : Int := if b then -(d : Int) else d
      if i < lo then (f.encInt lo, flOF + flNX)
      else if hi < i then (f.encInt hi, flOF + flNX)
      else (f.encInt i, if x then flNX else 0)
  | none, none => (0, 0)

/-- The element emax of Table 9-7. -/
def Fmt.mxEmax : Fmt → Int
  | .e4m3 => 8 | .e5m2 => 15 | .e3m2 => 4 | .e2m3 | .e2m1 => 2 | _ => 0

/-- The largest magnitude of a block. -/
def maxMag (vs : List Val) : Nat × Int := vs.foldl (fun a v => if magLt a v.mag then v.mag else a) (0, 0)

def Val.isNan : Val → Bool
  | .nan _ => true
  | _ => false

def Val.isFin : Val → Bool
  | .fin _ _ _ => true
  | _ => false

/-- An MX output block (R196): the scale X, the element codes, the flags. A block with a NAN or an INF reads as NaN throughout, so
every other source of it differs from what is written (R195). -/
def Fmt.convertMx (f : Fmt) (mode outconv : Nat) (vs : List Val) : Nat × List Nat × Flags :=
  if !vs.all Val.isFin then (255, vs.map (fun _ => 0), flNV + (if vs.all Val.isNan then 0 else flNX))
  else
    let a := maxMag vs
    let x0 : Int := if a.1 = 0 then 127 else topBit a.1 a.2 - f.mxEmax + 127
    let x : Nat := if 254 < x0 then 254 else x0.toNat
    let cs := vs.map (fun v => match v with
      | .fin s m e => f.convert mode outconv (.fin s m (e - x + 127))
      | w => f.convert mode outconv w)
    (x, cs.map (·.1), cs.foldl (fun fl c => fl ||| c.2) (if 254 < x0 then flOF else 0))

/-! ### Exact sums and products -/

/-- The signed integer of a finite value in units of `2^q`, `q` at or below its exponent. -/
def Val.toInt (v : Val) (q : Int) : Int :=
  match v with
  | .fin s m e => (if s then -1 else 1) * ((m : Int) * 2 ^ (e - q).toNat)
  | _ => 0

/-- The exact sum of two finite values; an exactly zero sum is +0 unless both are −0. -/
def addFin (a b : Val) : Val :=
  match a, b with
  | .fin s m e, .fin t n f =>
    let q := min e f
    let i := a.toInt q + b.toInt q
    if i = 0 then .fin (s && t && m == 0 && n == 0) 0 0 else .ofInt i q
  | _, _ => .nan false

/-- The exact sum with specials: NAN absorbs, infinities of opposite sign give NAN and NV (R205, R211). -/
def Val.add (a b : Val) : Val × Flags :=
  match a, b with
  | .nan _, _ => (.nan false, 0)
  | _, .nan _ => (.nan false, 0)
  | .inf s, .inf t => if s = t then (.inf s, 0) else (.nan false, flNV)
  | .inf s, _ => (.inf s, 0)
  | _, .inf t => (.inf t, 0)
  | _, _ => (addFin a b, 0)

def Val.neg : Val → Val
  | .fin s m e => .fin (!s) m e
  | .inf s => .inf (!s)
  | v => v

/-- The exact product, with the specials of Table 10-1 (R200, R211). -/
def Val.mul (a b : Val) : Val × Flags :=
  match a, b with
  | .nan _, _ => (.nan false, 0)
  | _, .nan _ => (.nan false, 0)
  | .inf s, .inf t => (.inf (s != t), 0)
  | .inf s, .fin t m _ => if m = 0 then (.nan false, flNV) else (.inf (s != t), 0)
  | .fin s m _, .inf t => if m = 0 then (.nan false, flNV) else (.inf (s != t), 0)
  | .fin s m e, .fin t n f => (.fin (s != t) (m * n) (e + f), 0)

def Val.isZero : Val → Bool
  | .fin _ m _ => m == 0
  | _ => false

/-- a < b; the two zeros are equal, and a NaN is below nothing and nothing below it. -/
def Val.lt (a b : Val) : Bool :=
  match a, b with
  | .nan _, _ => false
  | _, .nan _ => false
  | .inf s, .inf t => s && !t
  | .inf s, _ => s
  | _, .inf t => !t
  | .fin _ _ e, .fin _ _ f => let q := min e f; decide (a.toInt q < b.toInt q)

/-! ### The E8M31 accumulator (R204, R205) -/

/-- The canonical E8M31 NAN. -/
def accNan : Nat := 0x7FC0000000

/-- The value of an E8M31 word; bits [63:40] are ignored (R163). -/
def accVal (w : Nat) : Val :=
  let s := nbit w 39
  let e := nfld w 31 8
  let f := nfld w 0 31
  if e = 255 then (if f = 0 then .inf s else .nan false)
  else if e = 0 then .fin s f (-126 - 31)
  else .fin s (2 ^ 31 + f) ((e : Int) - 127 - 31)

/-- A value rounded once to E8M31, to nearest even (R205). -/
def toAcc (v : Val) : Nat × Flags :=
  match v with
  | .nan _ => (accNan, 0)
  | .inf s => (b2n s * 2 ^ 39 + 255 * 2 ^ 31, 0)
  | .fin s m e =>
    match roundFmt 0 32 (-126) (2 ^ 32 - 1) (127 - 31) m e with
    | (none, fl) => (b2n s * 2 ^ 39 + 255 * 2 ^ 31, fl)
    | (some (d, q), fl) => (if d = 0 then 0 else encFloat 8 31 127 s d q, fl)

/-- One addition into an accumulator or at a tree node (R205). -/
def accAdd (a b : Nat) : Nat × Flags :=
  let (v, f) := (accVal a).add (accVal b)
  let (w, g) := toAcc v
  (w, f ||| g)

/-- The smallest tree division: the largest power of two below `m` (R206). -/
def treeSplit (m : Nat) : Nat := 2 ^ (Nat.log2 (m - 1))

/-- The canonical tree of R206 over a list of at most `2^fuel` values. -/
def tree {α : Type} (f : α → α → α) (z : α) : Nat → List α → α
  | _, [] => z
  | _, [x] => x
  | 0, x :: _ => x
  | n + 1, xs =>
    let h := treeSplit xs.length
    f (tree f z n (xs.take h)) (tree f z n (xs.drop h))

/-! ### The Grid's group sum (R200–R203) -/

/-- A product aligned and truncated toward minus infinity, in units of `2^u`, and whether a nonzero bit was discarded (R201). Its
error lies in (−u, 0] (R202; alignTerm_error). -/
def alignTerm (u : Int) (t : Bool × Nat × Int) : Int × Bool :=
  let i : Int := if t.1 then -(t.2.1 : Int) else t.2.1
  if u ≤ t.2.2 then (i * 2 ^ (t.2.2 - u).toNat, false)
  else (i / 2 ^ (u - t.2.2).toNat, decide (i % 2 ^ (u - t.2.2).toNat ≠ 0))

/-- Nonzero finite products aligned and truncated toward minus infinity: their sum in units of `2^u`, and whether a nonzero bit was
discarded (R201, R203). -/
def alignSum (fs : List (Bool × Nat × Int)) : Val × Bool :=
  match fs with
  | [] => (.fin false 0 0, false)
  | (_, m0, e0) :: r =>
    let emax := r.foldl (fun a t => max a (topBit t.2.1 t.2.2)) (topBit m0 e0)
    let u := emax - 26
    let as := fs.map (alignTerm u)
    (.ofInt (as.foldl (fun a t => a + t.1) (0 : Int)) u, as.any (·.2))

/-- A group sum: an integer in units of `2^u`, or a special. Its error lies in (−31u, 0], since each product is rounded toward minus
infinity by less than u and the largest is exact (R202; alignTerms_bound). -/
def groupSum (ps : List (Val × Flags)) : Val × Flags :=
  let (sum, cut) := alignSum (ps.filterMap (fun p => match p.1 with
    | .fin s m e => if m = 0 then none else some (s, m, e)
    | _ => none))
  let nv := ps.foldl (fun f p => f ||| p.2) 0 ||| (if cut then flNX else 0)
  let isNan := ps.any (fun p => p.1.isNan)
  let posInf := ps.any (fun p => p.1 == Val.inf false)
  let negInf := ps.any (fun p => p.1 == Val.inf true)
  if isNan then (.nan false, nv)
  else if posInf && negInf then (.nan false, nv ||| flNV)
  else if posInf then (.inf false, nv)
  else if negInf then (.inf true, nv)
  else (sum, nv)

/-- The group of bfloat16 elements as the decoder sees it: an element more than 127 binades below the largest
decodes as +0 and sets UF (R186). -/
def bfClamp (vs : List Val) : List Val × Flags :=
  let tops := vs.filterMap (fun v => match v with
    | .fin _ m e => if m = 0 then none else some (e + 7)
    | _ => none)
  match tops with
  | [] => (vs, 0)
  | t :: r =>
    let emax := r.foldl max t
    let drop := fun (v : Val) => match v with
      | .fin _ m e => m != 0 && decide (e + 7 - (emax - 63) < -64)
      | _ => false
    (vs.map (fun v => if drop v then .fin false 0 0 else v), if vs.any drop then flUF else 0)

/-- One group of one operand row, decoded for the Grid under the room's MODE with scale X where the format is MX
(R185–R188). -/
def gridGroup (f : Fmt) (mode x : Nat) (codes : List Nat) : List Val × Flags :=
  let vs := codes.map (fun c => f.load mode c)
  if f.isMx then (vs.map (Val.scale x), 0)
  else if f = .bf16 then bfClamp vs
  else (vs, 0)

/-- The group sum of two decoded groups. -/
def dotGroup (a b : List Val) : Val × Flags := groupSum ((a.zip b).map (fun p => p.1.mul p.2))

end Sys2Proof.Machine
end

