-- ==== Sys2Proof/Machine/Sfu.lean ====
section
/-! DEFINITION. The binary32 lane arithmetic and the special function unit (Vector Engine and Special
Functions, R226, R229–R233, R236–R239). Every table entry is the correctly rounded value that R230 and R231
define; it is computed here in fixed point with 256 fractional bits and then rounded once. -/

namespace Sys2Proof.Machine

/-! ### Real constants and functions in fixed point -/

/-- Fractional bits of the fixed point in which table values are computed. -/
def fxP : Nat := 256

def fxOne : Nat := 2 ^ 256

/-- Σ term × x^i / (k (k+1) … (k+i−1)), the Taylor series of exp. -/
def fxExpLoop (x : Nat) : Nat → Nat → Nat → Nat → Nat
  | 0, _, _, acc => acc
  | n + 1, k, term, acc => let t := term * x / fxOne / k; fxExpLoop x n (k + 1) t (acc + t)

/-- e^x for x in [0, 64). -/
def fxExp (x : Nat) : Nat := fxExpLoop x 400 1 fxOne fxOne

/-- Σ z^(2i+1) / (2i+1). -/
def fxAtanhLoop (z2 : Nat) : Nat → Nat → Nat → Nat → Nat
  | 0, _, _, acc => acc
  | n + 1, k, pw, acc => let q := pw * z2 / fxOne; fxAtanhLoop z2 n (k + 2) q (acc + q / k)

/-- atanh of num/den, at most 1/3. -/
def fxAtanh (num den : Nat) : Nat :=
  let z := fxOne * num / den
  fxAtanhLoop (z * z / fxOne) 100 3 z z

def fxLn2 : Nat := 2 * fxAtanh 1 3

/-- ln of num/den in [1, 2]. -/
def fxLn (num den : Nat) : Nat := 2 * fxAtanh (num - den) (num + den)

/-- Alternating Σ 1 / ((2i+1) x^(2i+1)). -/
def fxAtanInvLoop (x2 : Nat) : Nat → Nat → Nat → Int → Int → Int
  | 0, _, _, _, acc => acc
  | n + 1, k, pw, sg, acc => let q := pw / x2; fxAtanInvLoop x2 n (k + 2) q (-sg) (acc + sg * ((q / k : Nat) : Int))

/-- arctan of 1/x. -/
def fxAtanInv (x : Nat) : Int := fxAtanInvLoop (x * x) 200 3 (fxOne / x) (-1) ((fxOne / x : Nat) : Int)

/-- π by Machin's formula. -/
def fxPi : Nat := (16 * fxAtanInv 5 - 4 * fxAtanInv 239).toNat

/-- One bit of the integer square root. -/
def isqrtLoop (n : Nat) : Nat → Nat → Nat
  | 0, r => r
  | b + 1, r => let c := r + 2 ^ b; isqrtLoop n b (if c * c ≤ n then c else r)

/-- The integer square root of a number below 2^1024. -/
def isqrt (n : Nat) : Nat := isqrtLoop n (Nat.log2 n / 2 + 1) 0

/-- Square root of a fixed-point number. -/
def fxSqrt (x : Nat) : Nat := isqrt (x * fxOne)

/-- Σ z^(2i+1) / (1·3·5…(2i+1)). -/
def fxPhiLoop (z2 : Nat) : Nat → Nat → Nat → Nat → Nat
  | 0, _, _, acc => acc
  | n + 1, k, t, acc => let q := t * z2 / fxOne / k; fxPhiLoop z2 n (k + 2) q (acc + q)

/-- Φ(−z), the standard normal lower tail, for z in [0, 8]. -/
def fxTail (z : Nat) : Nat :=
  let z2 := z * z / fxOne
  let pdf := fxOne * fxOne / (fxExp (z2 / 2) * fxSqrt (2 * fxPi) / fxOne)
  fxOne / 2 - pdf * fxPhiLoop z2 400 3 z z / fxOne

/-- The cores of Table 11-5. -/
inductive Core where
  | exp2 | log2g | recip | rsqrt | sqrt | tanhz | tail
  deriving DecidableEq, Repr

/-- A core at `num / 2^den`, in fixed point (Table 11-5). -/
def Core.at (c : Core) (num den : Nat) : Nat :=
  let x := num * fxOne / 2 ^ den
  match c with
  | .exp2 => fxExp (x * fxLn2 / fxOne)
  | .log2g => if num = 2 ^ den then fxOne * fxOne / fxLn2 else fxLn num (2 ^ den) * fxOne / fxLn2 * fxOne / (x - fxOne)
  | .recip => fxOne * 2 ^ den / num
  | .rsqrt => fxOne * fxOne / fxSqrt x
  | .sqrt => fxSqrt x
  | .tanhz => if num = 0 then fxOne else let e := fxExp (2 * x); (e - fxOne) * fxOne / (e + fxOne) * fxOne / x
  | .tail => fxTail x

/-! ### Rounding to binary32 -/

/-- RN: rounded to binary32, to nearest even, subnormals honoured; the flag NX only (R232). -/
def rn (v : Val) : Val × Flags :=
  match v with
  | .fin s m e =>
    match roundFmt 0 24 (-126) (2 ^ 24 - 1) (127 - 23) m e with
    | (none, _) => (.inf s, flNX)
    | (some (d, q), fl) => (.fin s d q, fl &&& flNX)
  | v => (v, 0)

def rnV (v : Val) : Val := (rn v).1

/-- A fixed-point number as a value. -/
def fxVal (n : Nat) : Val := .fin false n (-256)

/-- RN of a core at `num / 2^den`. -/
def Core.rn (c : Core) (num den : Nat) : Val := rnV (fxVal (c.at num den))

def valOne : Val := .fin false 1 0

def vMul (a b : Val) : Val := (a.mul b).1
def vAdd (a b : Val) : Val := (a.add b).1
def vSub (a b : Val) : Val := (a.add b.neg).1

/-- A step that carries the flags of earlier ones. -/
abbrev FV := Val × Flags

def fRn (v : Val) (f : Flags) : FV := let (w, g) := rn v; (w, f ||| g)

/-- fma(a, b, c): the exact a × b + c rounded once. -/
def fFma (a b c : FV) : FV := fRn (vAdd (vMul a.1 b.1) c.1) (a.2 ||| b.2 ||| c.2)
def fMul (a b : FV) : FV := fRn (vMul a.1 b.1) (a.2 ||| b.2)
/-- A last product, left exact: the lane it is written to rounds it once, with the flags of an output (R195, R232). -/
def fLast (a b : FV) : FV := (vMul a.1 b.1, a.2 ||| b.2)
def fAdd (a b : FV) : FV := fRn (vAdd a.1 b.1) (a.2 ||| b.2)
def fNeg (a : FV) : FV := (a.1.neg, a.2)
def fOf (v : Val) : FV := (v, 0)

/-- Where a core is tabulated: start in units of Δ, and log2 of 1/Δ, for an argument's interval (Table 11-5). -/
structure CoreTab where
  core : Core
  start : Nat
  dlog : Nat

/-- `r` in units of `2^-k` (a non-negative dyadic): whole units, and the exact fraction of one. -/
def unitsAt (r : Val) (k : Nat) : Nat × Val :=
  match r with
  | .fin _ m e =>
    let q := e + k
    if 0 ≤ q then (m * 2 ^ q.toNat, .fin false 0 0)
    else (m / 2 ^ (-q).toNat, .fin false (m % 2 ^ (-q).toNat) q)
  | _ => (0, .fin false 0 0)

/-- NX of a table entry: the core is not a binary32 number there. A core whose fixed-point value lies within 2^-200 of a
binary32 number is that number. -/
def Core.nx (c : Core) (num den : Nat) : Flags :=
  match vSub (fxVal (c.at num den)) (c.rn num den) with
  | .fin _ m e => if m = 0 || topBit m e < -200 then 0 else flNX
  | _ => 0

/-- The PWL core value (R230). The rounding of the entry y_j sets NX as the worked example says, and that of d_j where
t is not 0. -/
def pwl (t : CoreTab) (r : Val) : FV :=
  let (n, frac) := unitsAt r t.dlog
  let y0 := t.core.rn n t.dlog
  let y1 := t.core.rn (n + 1) t.dlog
  let d := rn (vSub y1 y0)
  fRn (vAdd y0 (vMul frac d.1)) (t.core.nx n t.dlog ||| (if frac.isZero then 0 else d.2))

/-- The ITER value of a quadratic-table core: Δ' = Δ ÷ 8 (R231). -/
def quad (t : CoreTab) (r : Val) : FV :=
  let k := t.dlog + 3
  let (n, frac) := unitsAt r k
  let y0 := t.core.rn n k
  let y1 := t.core.rn (n + 1) k
  let d := rn (vSub y1 y0)
  let c := fxVal (t.core.at (2 * n + 1) (k + 1))
  let s := rn (vSub (vMul (.fin false 2 0) (vAdd y0 y1)) (vMul (.fin false 4 0) c))
  let fl := t.core.nx n k ||| (if frac.isZero then 0 else d.2 ||| s.2)
  fFma (fOf frac) (fFma (fOf (vSub frac valOne)) (fOf s.1) (fOf d.1)) (y0, fl)

def tabExp2 : CoreTab := ⟨.exp2, 0, 5⟩
def tabLog2 : CoreTab := ⟨.log2g, 32, 5⟩
def tabRecip : CoreTab := ⟨.recip, 32, 5⟩
def tabTanh : CoreTab := ⟨.tanhz, 0, 6⟩
def tabTail : CoreTab := ⟨.tail, 0, 2⟩

/-- The √ cores: Δ = 1/32 on [1, 2), 1/16 on [2, 4). -/
def tabRoot (c : Core) (m : Val) : CoreTab := if m.lt (.fin false 2 0) then ⟨c, 32, 5⟩ else ⟨c, 32, 4⟩

/-- m in [1, 2) and e with the value = m × 2^e. -/
def normalize (m : Nat) (e : Int) : Val × Int := (.fin false m (-(Nat.log2 m : Int)), topBit m e)

/-- m in [1, 4) and an even e. -/
def normEven (m : Nat) (e : Int) : Val × Int :=
  let t := topBit m e
  let ev := t - t % 2
  (.fin false m (e - ev), ev)

/-- A value times 2^n, rounded to binary32 with the flags of an output (R195), flushed under R188. -/
def scaleOut (mode : Nat) (v : FV) (n : Int) : FV :=
  match v.1 with
  | .fin s m e =>
    let (c, fl) := Fmt.f32.convert mode 1 (.fin s m (e + n))
    (Fmt.f32.decode c, v.2 ||| fl)
  | w => (w, v.2)

/-- floor of a finite value. -/
def vFloor : Val → Int
  | .fin s m e =>
    let i : Int := if s then -(m : Int) else m
    if 0 ≤ e then i * 2 ^ e.toNat else i / 2 ^ (-e).toNat
  | _ => 0

def valOfInt (i : Int) : Val := .ofInt i 0

/-- Bounds an exponent so that numbers stay small: beyond ±2000 every binary32 result has underflowed. -/
def clampE (n : Int) : Int := max (-2000) (min n 2000)

/-- The 2^u core of the room's method; iter: SFU = 1. -/
def coreExp2 (iter : Bool) (u : Val) : FV := if iter then quad tabExp2 u else pwl tabExp2 u

/-- exp2 (Table 11-6). -/
def sfExp2 (mode : Nat) (iter : Bool) (x : FV) : FV :=
  match x.1 with
  | .nan _ => x
  | .inf s => (if s then .fin false 0 0 else .inf false, x.2)
  | v =>
    if !v.lt (.fin false 128 0) then (.inf false, x.2 ||| (flOF + flNX))
    else
      let n := vFloor v
      let u := fRn (vSub v (valOfInt n)) x.2
      let c := coreExp2 iter u.1
      scaleOut mode (c.1, c.2 ||| u.2) (clampE n)

def cLhi : Val := rnV (fxVal (fxOne * fxOne / fxLn2))
def cLlo : Val := rnV (vSub (fxVal (fxOne * fxOne / fxLn2)) cLhi)
def cNhi : Val := rnV (fxVal fxLn2)
def cNlo : Val := rnV (vSub (fxVal fxLn2) cNhi)
/-- 2 × √(2/π) in fixed point. -/
def fxK : Nat := 2 * fxSqrt (2 * fxOne * fxOne / fxPi)
def cK1 : Val := rnV (fxVal fxK)
def cK2 : Val := rnV (fxVal (fxK * 44715 / 1000000))

/-- exp (Table 11-6). -/
def sfExp (mode : Nat) (iter : Bool) (x : FV) : FV :=
  match x.1 with
  | .nan _ => x
  | .inf s => (if s then .fin false 0 0 else .inf false, x.2)
  | v =>
    if !(vMul v (.fin false 100 0)).lt (.fin false 8873 0) then (.inf false, x.2 ||| (flOF + flNX))
    else if !iter then sfExp2 mode false (fMul x (fOf cLhi))
    else
      let t := fMul x (fOf cLhi)
      match t.1 with
      | .inf _ => (.fin false 0 0, t.2)
      | tv =>
        if tv.lt (.fin true 2000 0) then scaleOut mode (valOne, t.2) (-2000)
        else
          let n := vFloor tv
          let u := fFma (fOf v) (fOf cLlo) (fFma (fOf v) (fOf cLhi) (fOf (valOfInt (-n))))
          let u := (u.1, u.2 ||| t.2)
          let (n, u) :=
            if u.1.lt (.fin false 0 0) then (n - 1, fRn (vAdd u.1 valOne) u.2)
            else if !u.1.lt valOne then (n + 1, fRn (vSub u.1 valOne) u.2)
            else (n, u)
          let c := if u.1.lt valOne then quad tabExp2 u.1 else fOf (.fin false 2 0)
          scaleOut mode (c.1, c.2 ||| u.2) (clampE n)

/-- log2 of m × 2^e by PWL: fma(m − 1, g(m), e). -/
def pwlLog2 (m : Val) (e : Int) : FV :=
  fFma (fOf (vSub m valOne)) (pwl tabLog2 m) (fOf (valOfInt e))

/-- One Newton step of log2. -/
def stepLog2 (mode : Nat) (m : Val) (y : FV) : FV :=
  let w := fFma (fOf m) (sfExp2 mode true (fNeg y)) (fOf (.fin true 1 0))
  fFma w (fOf cLhi) y

/-- One Newton step of log. -/
def stepLn (mode : Nat) (m : Val) (y : FV) : FV :=
  fAdd y (fFma (fOf m) (sfExp mode true (fNeg y)) (fOf (.fin true 1 0)))

/-- log2, or log when `nat` (Table 11-6). -/
def sfLog (nat : Bool) (mode : Nat) (iter : Bool) (x : FV) : FV :=
  match x.1 with
  | .nan _ => x
  | .inf s => if s then (.nan false, x.2 ||| flNV) else x
  | .fin s m e =>
    if m = 0 then (.inf true, x.2 ||| flOF)
    else if s then (.nan false, x.2 ||| flNV)
    else
      let (mm, ee) := normalize m e
      if !iter then
        let l := pwlLog2 mm ee
        let l := (l.1, l.2 ||| x.2)
        if nat then fMul l (fOf cNhi) else l
      else
        let y0 := pwlLog2 mm 0
        if nat then
          let y := stepLn mode mm (stepLn mode mm (fMul y0 (fOf cNhi)))
          let r := fFma (fOf (valOfInt ee)) (fOf cNhi) (fFma (fOf (valOfInt ee)) (fOf cNlo) y)
          (r.1, r.2 ||| x.2)
        else
          let y := stepLog2 mode mm (stepLog2 mode mm y0)
          fRn (vAdd (valOfInt ee) y.1) (y.2 ||| x.2)

/-- A quotient of positive integers × 2^e with a sticky bit, so that one rounding of it is correct. -/
def divSticky (a b : Nat) (e : Int) : Nat × Int :=
  let sh := 64 + Nat.log2 b
  let q := a * 2 ^ sh / b
  (2 * q + (if a * 2 ^ sh % b = 0 then 0 else 1), e - sh - 1)

/-- A square root × 2^e (e even) with a sticky bit. -/
def sqrtSticky (m : Nat) (e : Int) : Nat × Int :=
  let (m, e) := if e % 2 = 0 then (m, e) else (2 * m, e - 1)
  let n := m * 2 ^ 128
  let r := isqrt n
  (2 * r + (if r * r = n then 0 else 1), (e - 128) / 2 - 1)

/-- The reciprocal kernel on m in [1, 2) (R230, R231). -/
def kRecip (iter : Bool) (m : Val) : FV :=
  let y := pwl tabRecip m
  let step := fun (y : FV) => fFma y (fFma (fOf m.neg) y (fOf valOne)) y
  if iter then step (step y) else y

/-- reciprocal (Table 11-6, R233); of an infinity, the zero of its sign. -/
def sfRecip (mode : Nat) (iter : Bool) (x : FV) : FV :=
  match x.1 with
  | .nan _ => x
  | .inf s => (.fin s 0 0, x.2)
  | .fin s m e =>
    if m = 0 then (.inf s, x.2 ||| flOF)
    else if mode = 2 then
      let (q, f) := divSticky 1 m (-e)
      scaleOut mode (.fin s q f, x.2) 0
    else
      let (mm, ee) := normalize m e
      let y := kRecip iter mm
      let r := scaleOut mode (y.1, y.2 ||| x.2) (-ee)
      (if s then r.1.neg else r.1, r.2)

/-- The 1/√m kernel on [1, 4). -/
def kRsqrt (iter : Bool) (m : Val) : FV :=
  let y := pwl (tabRoot .rsqrt m) m
  let step := fun (y : FV) =>
    let h := fMul (fOf m) y
    fFma (fMul (fOf (.fin false 1 (-1))) y) (fFma (fNeg h) y (fOf valOne)) y
  if iter then step (step y) else y

/-- The √m kernel on [1, 4). -/
def kSqrt (iter : Bool) (m : Val) : FV :=
  let s := pwl (tabRoot .sqrt m) m
  let y := pwl (tabRoot .rsqrt m) m
  let step := fun (s : FV) => fFma (fMul (fOf (.fin false 1 (-1))) y) (fFma (fNeg s) s (fOf m)) s
  if iter then step (step s) else s

/-- rsqrt or sqrt (Table 11-6, R233); `free` is the value where the spec states none. -/
def sfRoot (recip : Bool) (free : Val) (mode : Nat) (iter : Bool) (x : FV) : FV :=
  match x.1 with
  | .nan _ => x
  | .inf s => if s then (.nan false, x.2 ||| flNV) else if mode = 2 ∧ !recip then x else (free, x.2)
  | .fin s m e =>
    if m = 0 then
      if recip then (if s then (free, x.2) else (.inf false, x.2 ||| flOF))
      else (.fin s 0 0, x.2)
    else if s then (.nan false, x.2 ||| flNV)
    else if mode = 2 ∧ !recip then
      let (q, f) := sqrtSticky m e
      scaleOut mode (.fin false q f, x.2) 0
    else
      let (mm, ee) := normEven m e
      let y := if recip then kRsqrt iter mm else kSqrt iter mm
      scaleOut mode (y.1, y.2 ||| x.2) (if recip then -(ee / 2) else ee / 2)

/-- sigmoid: reciprocal(RN(1 + exp(−x))). -/
def sfSigmoid (mode : Nat) (iter : Bool) (x : FV) : FV :=
  match x.1 with
  | .nan _ => x
  | .inf s => (if s then .fin false 0 0 else valOne, x.2)
  | _ => sfRecip mode iter (fAdd (fOf valOne) (sfExp mode iter (fNeg x)))

def vAbs : Val → Val
  | .fin _ m e => .fin false m e
  | .inf _ => .inf false
  | v => v

def vSign : Val → Bool
  | .fin s _ _ => s
  | .inf s => s
  | _ => false

def sfTanh (mode : Nat) (iter : Bool) (x : FV) : FV :=
  match x.1 with
  | .nan _ => x
  | .inf s => (.fin s 1 0, x.2)
  | v =>
    if (vAbs v).lt (.fin false 1 (-1)) then
      let h := if iter then quad tabTanh (vAbs v) else pwl tabTanh (vAbs v)
      fLast x h
    else
      let e := sfExp mode iter (vMul (vAbs v) (.fin false 2 0), x.2)
      let r := sfRecip mode iter (fAdd e (fOf valOne))
      let t := fRn (vSub valOne (vMul (.fin false 2 0) r.1)) r.2
      (if vSign v then t.1.neg else t.1, t.2)

/-- E(z) for z ≥ 0: 0 beyond 8. -/
def sfTail (iter : Bool) (z : Val) : FV :=
  if !z.lt (.fin false 8 0) then fOf (.fin false 0 0) else if iter then quad tabTail z else pwl tabTail z

def sfGeluErf (_mode : Nat) (iter : Bool) (x : FV) : FV :=
  match x.1 with
  | .nan _ => x
  | .inf s => (if s then .fin false 0 0 else .inf false, x.2)
  | v =>
    let phi := if v.lt (.fin false 0 0) then sfTail iter (vAbs v)
      else let e := sfTail iter (vAbs v); fRn (vSub valOne e.1) e.2
    fLast x phi

def sfGeluTanh (mode : Nat) (iter : Bool) (x : FV) : FV :=
  match x.1 with
  | .nan _ => x
  | .inf s => (if s then .fin false 0 0 else .inf false, x.2)
  | _ =>
    let z := fMul x (fFma (fOf cK2) (fMul x x) (fOf cK1))
    fLast x (sfSigmoid mode iter z)

def sfSilu (mode : Nat) (iter : Bool) (x : FV) : FV :=
  match x.1 with
  | .nan _ => x
  | .inf s => (if s then .fin false 0 0 else .inf false, x.2)
  | _ => fLast x (sfSigmoid mode iter x)

def sfSoftplus (mode : Nat) (iter : Bool) (x : FV) : FV :=
  match x.1 with
  | .nan _ => x
  | .inf s => (if s then .fin false 0 0 else .inf false, x.2)
  | v =>
    if (Val.fin false 16 0).lt v then x
    else if v.lt (.fin true 16 0) then sfExp mode iter x
    else sfLog true mode iter (fAdd (fOf valOne) (sfExp mode iter x))

/-- A binary32 lane as an operation reads it, with its flags (R188, R189). -/
def laneIn (mode code : Nat) : FV := let v := Fmt.f32.load mode code; (v, loadFlags mode v)

/-- An exact result written to a binary32 lane (R226). -/
def laneOut (mode : Nat) (v : FV) : Nat × Flags := let (c, f) := Fmt.f32.convert mode 1 v.1; (c, v.2 ||| f)

/-- One special function on one lane (Table 11-4); `free` gives the lane where Table 11-6 states no result. -/
def sfu (mode : Nat) (iter : Bool) (free : Nat) (fn code : Nat) : Nat × Flags :=
  let x := laneIn mode code
  let fv := Fmt.f32.decode free
  let isInf := match x.1 with | .inf _ => true | _ => false
  let r := match fn with
    | 0 => sfExp mode iter x
    | 1 => sfExp2 mode iter x
    | 2 => sfLog true mode iter x
    | 3 => sfLog false mode iter x
    | 4 => sfSigmoid mode iter x
    | 5 => sfTanh mode iter x
    | 6 => sfGeluErf mode iter x
    | 7 => sfGeluTanh mode iter x
    | 8 => sfSilu mode iter x
    | 9 => sfSoftplus mode iter x
    | 10 => if isInf && mode != 2 then (fv, x.2) else sfRecip mode iter x
    | 11 => sfRoot true fv mode iter x
    | _ => sfRoot false fv mode iter x
  laneOut mode r

/-! ### Lane operations -/

def lAdd (mode a b : Nat) : Nat × Flags :=
  let x := laneIn mode a; let y := laneIn mode b
  let (v, f) := x.1.add y.1
  laneOut mode (v, x.2 ||| y.2 ||| f)

def lSub (mode a b : Nat) : Nat × Flags :=
  let x := laneIn mode a; let y := laneIn mode b
  let (v, f) := x.1.add y.1.neg
  laneOut mode (v, x.2 ||| y.2 ||| f)

def lMul (mode a b : Nat) : Nat × Flags :=
  let x := laneIn mode a; let y := laneIn mode b
  let (v, f) := x.1.mul y.1
  laneOut mode (v, x.2 ||| y.2 ||| f)

def lFma (mode a b c : Nat) : Nat × Flags :=
  let x := laneIn mode a; let y := laneIn mode b; let z := laneIn mode c
  let (p, f) := x.1.mul y.1
  let (v, g) := p.add z.1
  laneOut mode (v, x.2 ||| y.2 ||| z.2 ||| f ||| g)

/-- Maximum, or minimum when `mn` (R190). -/
def lMaxMin (mn : Bool) (mode a b : Nat) : Nat × Flags :=
  let x := laneIn mode a; let y := laneIn mode b
  let nan := fun (v : Val) => match v with | .nan _ => true | _ => false
  let less := fun (p q : Val) => p.lt q || (p.isZero && q.isZero && vSign p && !vSign q)
  let v := if nan x.1 || nan y.1 then .nan false
    else if less x.1 y.1 then (if mn then x.1 else y.1) else (if mn then y.1 else x.1)
  laneOut mode (v, x.2 ||| y.2)

def lAbs (mode a : Nat) : Nat × Flags := let x := laneIn mode a; laneOut mode (vAbs x.1, x.2)
def lNeg (mode a : Nat) : Nat × Flags := let x := laneIn mode a; laneOut mode (x.1.neg, x.2)

/-- −1 where a < b as binary32, else 0; a NaN gives 0. -/
def lCmpLt (mode a b : Nat) : Nat × Flags :=
  let x := laneIn mode a; let y := laneIn mode b
  (if x.1.lt y.1 then 0xFFFFFFFF else 0, x.2 ||| y.2)

def lCvtIF (mode a : Nat) : Nat × Flags := laneOut mode (.ofInt (signed 32 a) 0, 0)

def lCvtFI (mode a : Nat) : Nat × Flags :=
  let x := laneIn mode a
  let (c, f) := Fmt.int32.convert mode 0 x.1
  (c, x.2 ||| f)

/-- A binary32 lane as an E8M31 word, exactly (VCVTFW). -/
def lToWide (mode a : Nat) : Nat × Flags := let x := laneIn mode a; let (w, f) := toAcc x.1; (w, x.2 ||| f)

/-! ### Rows -/

/-- A binary32 tree node: the exact sum of its children rounded once. -/
def nodeAdd (mode : Nat) (a b : Nat × Flags) : Nat × Flags :=
  let (c, f) := lAdd mode a.1 b.1
  (c, a.2 ||| b.2 ||| f)

/-- tree(0, N) over binary32 lanes (R206, R236); a row of one element is that lane, read and written as any binary32 lane. -/
def rowSum (mode : Nat) : List Nat → Nat × Flags
  | [x] => laneOut mode (laneIn mode x)
  | xs => tree (nodeAdd mode) (0, 0) 13 (xs.map (fun x => (x, 0)))

/-- A binary32 lane divided by N, correctly rounded. -/
def laneDiv (mode : Nat) (a : Nat × Flags) (n : Nat) : Nat × Flags :=
  let x := laneIn mode a.1
  match x.1 with
  | .fin s m e => let (q, f) := divSticky m n e; laneOut mode (.fin s q f, a.2 ||| x.2)
  | v => laneOut mode (v, a.2 ||| x.2)

/-- Lane operations over a row, flags joined. -/
def mapRow (f : Nat → Nat × Flags) (xs : List Nat) : List Nat × Flags :=
  let ys := xs.map f
  (ys.map (·.1), ys.foldl (fun a y => a ||| y.2) 0)

/-- Node of a strict dot product: children are exact products or binary32 values; one rounding (R210, R211). -/
def strictNode (a b : Val × Flags) : Val × Flags :=
  let (v, f) := a.1.add b.1
  let (c, g) := laneOut 2 (v, a.2 ||| b.2 ||| f)
  (Fmt.f32.decode c, g)

/-- A strict dot product of two rows (R210, R239), before the initial value. -/
def strictDot (as bs : List Nat) : Nat × Flags :=
  let ps := (as.zip bs).map (fun p =>
    let x := laneIn 2 p.1; let y := laneIn 2 p.2
    let (v, f) := x.1.mul y.1
    (v, x.2 ||| y.2 ||| f))
  laneOut 2 (tree strictNode (.fin false 0 0, 0) 13 ps)

/-- The depthwise chain of one lane (R238). -/
def dwChain (mode : Nat) (acc : Nat) (taps : List (Nat × Nat)) : Nat × Flags :=
  taps.foldl (fun a t => let (c, f) := lFma mode t.1 t.2 a.1; (c, a.2 ||| f)) (acc, 0)

end Sys2Proof.Machine
end

