-- ==== Sys2Proof/Machine/EdgeLayer.lean ====
section
/-! DEFINITION. The arithmetic of an edge layer (Convolution, Tiling and Edge Layers, R243, R245,
R255–R260): raw samples to a tensor, and a tensor to raw samples, with the history the layer carries. -/

namespace Sys2Proof.Machine

/-- The parameter block of Table 12-4. -/
structure EleParam where
  kind : Nat
  bits : Nat
  cin : Nat
  cout : Nat
  kh : Nat
  kw : Nat
  dil : Nat
  stride : Nat
  alpha : Nat
  eflags : Nat
  stateOff : Nat
  tfmt : Nat
  feed : Nat
  chunkKib : Nat
  zero : Nat
  gain : Nat
  buf : Nat
  deriving DecidableEq, Repr

def EleParam.parse (b : Bytes) : EleParam :=
  { kind := leAt b 0 1, bits := leAt b 1 1, cin := leAt b 2 1, cout := leAt b 3 1, kh := leAt b 4 1, kw := leAt b 5 1,
    dil := leAt b 6 1, stride := leAt b 7 1, alpha := leAt b 8 2, eflags := leAt b 10 2, stateOff := leAt b 12 4,
    tfmt := leAt b 16 1, feed := leAt b 17 1, chunkKib := leAt b 18 2, zero := leAt b 20 4, gain := leAt b 24 4,
    buf := leAt b 28 4 }

def EleParam.ingest (p : EleParam) : Bool := p.kind == 0 || p.kind == 1
def EleParam.audio (p : EleParam) : Bool := p.kind == 0 || p.kind == 2
def EleParam.dither (p : EleParam) : Bool := nbit p.eflags 0
def EleParam.causal (p : EleParam) : Bool := nbit p.eflags 1
def EleParam.pmode (p : EleParam) : Nat := nfld p.eflags 2 2

/-- Elements of one output's dot product: taps times channels (R243). -/
def EleParam.k (p : EleParam) : Nat := p.kh * p.kw * p.cin

/-- Bytes of a raw sample of one channel. -/
def EleParam.sampleBytes (p : EleParam) : Nat := if p.audio || p.bits == 10 then 2 else 1

/-- Samples of left halo that a causal layer carries, all channels (Table 12-5). -/
def EleParam.halo (p : EleParam) : Nat := (p.kw - 1) * p.dil * p.cin

/-- Bytes of the ELE state (Table 12-5). -/
def EleParam.stateBytes (p : EleParam) : Nat := 0x18 + (if p.causal then 4 * p.halo else 0)

/-- What a layer carries between frames: dither word, previous samples, halo; lanes are binary32 codes. -/
structure EleState where
  r : Nat
  prev : List Nat
  halo : List Nat
  deriving DecidableEq, Repr

def EleState.read (p : EleParam) (b : Bytes) : EleState :=
  { r := leAt b 0 4, prev := (List.range 4).map (fun i => leAt b (8 + 4 * i) 4),
    halo := if p.causal then (List.range p.halo).map (fun i => leAt b (0x18 + 4 * i) 4) else [] }

def EleState.write (p : EleParam) (s : EleState) : Bytes :=
  le 4 s.r ++ zeros 4 ++ (fit 16 (s.prev.flatMap (le 4))) ++ (if p.causal then s.halo.flatMap (le 4) else [])

/-- Raw samples as integers, in order (R255). -/
def rawSamples (p : EleParam) (b : Bytes) : List Int :=
  (List.range (b.length / p.sampleBytes)).map (fun i =>
    let v := leAt b (i * p.sampleBytes) p.sampleBytes
    if p.audio then signed 16 v else ((v % 2 ^ p.bits : Nat) : Int))

/-- One raw sample as it lies in memory. -/
def rawOut (p : EleParam) (i : Int) : Bytes := le p.sampleBytes (wrapN (8 * p.sampleBytes) i)

/-- A position along one dimension under a padding mode: an index, the pad value, or zero (Table 12-2). -/
inductive PadPos where
  | at_ (i : Nat)
  | zero
  | const
  deriving DecidableEq, Repr

def padPos (pmode n : Nat) (i : Int) : PadPos :=
  if 0 ≤ i ∧ i < n then .at_ i.toNat
  else match pmode with
    | 0 => .zero
    | 1 => .const
    | 2 => .at_ (if i < 0 then (-i).toNat else (2 * ((n : Int) - 1) - i).toNat)
    | _ => .at_ (if i < 0 then 0 else n - 1)

/-- Where a layer's input lies: its extent and the padding before it. -/
structure EleGeom where
  rows : Nat
  cols : Nat
  outRows : Nat
  outCols : Nat
  padTop : Nat
  padLeft : Nat
  deriving DecidableEq, Repr

/-- The input lane under tap (ky, kx) and channel c of output (oy, ox), with the flags of a pad constant's conversion: from the
tensor, the halo or the padding. `pad` gives the constant at a position outside the tensor (R246). -/
def eleTap (p : EleParam) (g : EleGeom) (xs halo : List Nat) (pad : Int → Int → Nat → Nat × Flags) (oy ox ky kx c : Nat) :
    Nat × Flags :=
  let y : Int := (oy * p.stride + ky * p.dil : Nat) - (g.padTop : Int)
  let x : Int := (ox * p.stride + kx * p.dil : Nat) - (g.padLeft : Int)
  if p.causal && decide (x < 0) then
    let h := p.halo / p.cin
    (halo.getD (((h : Int) + x).toNat * p.cin + c) 0, 0)
  else
    match padPos p.pmode g.rows y, padPos p.pmode g.cols x with
    | .at_ r, .at_ q => (xs.getD ((r * g.cols + q) * p.cin + c) 0, 0)
    | .const, _ => pad y x c
    | _, .const => pad y x c
    | _, _ => (0, 0)

/-- One output: acc = bias, then fma over the taps in K order (R257). -/
def eleOut (mode : Nat) (p : EleParam) (g : EleGeom) (ws xs halo : List Nat) (pad : Int → Int → Nat → Nat × Flags)
    (oy ox j : Nat) : Nat × Flags :=
  let base := j * (p.k + 1)
  let ins := (List.range p.k).map (fun k =>
    let t := k / p.cin
    eleTap p g xs halo pad oy ox (t / p.kw) (t % p.kw) (k % p.cin))
  let (y, f) := dwChain mode (ws.getD (base + p.k) 0) (ins.zipIdx.map (fun x => (ws.getD (base + x.2) 0, x.1.1)))
  (y, ins.foldl (fun a x => a ||| x.2) f)

/-- Every output element: rows, columns, channels. -/
def eleFilter (mode : Nat) (p : EleParam) (g : EleGeom) (ws xs halo : List Nat)
    (pad : Int → Int → Nat → Nat × Flags) : List (Nat × Flags) :=
  (List.range (g.outRows * g.outCols * p.cout)).map (fun i =>
    let q := i / p.cout
    eleOut mode p g ws xs halo pad (q / g.outCols) (q % g.outCols) (i % p.cout))

/-- −A × 2^−15 or A × 2^−15 as a binary32 lane. -/
def alphaLane (p : EleParam) (neg : Bool) : Nat := (Fmt.f32.convert 2 1 (.fin neg p.alpha (-15))).1

/-- Pre-emphasis channel by channel (R257): the samples after it, and the last sample of each channel before it. -/
def preEmphasis (mode : Nat) (p : EleParam) : List Nat → Nat → List Nat → List (Nat × Flags) → List (Nat × Flags) × List Nat
  | [], _, prev, acc => (acc.reverse, prev)
  | x :: r, ch, prev, acc =>
    let y := if p.alpha = 0 then (x, 0) else lFma mode (alphaLane p true) (prev.getD ch 0) x
    preEmphasis mode p r ((ch + 1) % p.cin) (setAt prev ch x) (y :: acc)

/-- The last `n` of a list. -/
def lastN {α : Type} (n : Nat) (l : List α) : List α := l.drop (l.length - n)

/-- A raw sample as its value: RN(RN(v − Z) × G) (R257). -/
def eleSample (mode : Nat) (p : EleParam) (v : Int) : Nat × Flags :=
  let d := lSub mode (lCvtIF mode (wrapN 32 v)).1 p.zero
  let x := lMul mode d.1 p.gain
  (x.1, d.2 ||| x.2)

/-- An ingest layer (R257): output lanes, the flags of all its arithmetic, and the state it leaves. -/
def eleIngest (mode : Nat) (p : EleParam) (g : EleGeom) (ws : List Nat) (pad : Int → Int → Nat → Nat × Flags) (st : EleState)
    (vs : List Int) : List Nat × Flags × EleState :=
  let xs := vs.map (eleSample mode p)
  let (ys, prev) := preEmphasis mode p (xs.map (·.1)) 0 (fit4 st.prev) []
  let lanes := ys.map (·.1)
  let zs := eleFilter mode p g ws lanes st.halo pad
  (zs.map (·.1), (xs ++ ys ++ zs).foldl (fun a y => a ||| y.2) 0,
    { r := st.r, prev := prev, halo := if p.causal then lastN p.halo (st.halo ++ lanes) else [] })
where
  fit4 (l : List Nat) : List Nat := (l ++ List.replicate 4 0).take 4

/-- One step of the dither generator (R259). -/
def ditherStep (r : Nat) : Nat :=
  let r := r ^^^ (r * 2 ^ 13 % 2 ^ 32)
  let r := r ^^^ (r / 2 ^ 17)
  r ^^^ (r * 2 ^ 5 % 2 ^ 32)

/-- The word a zeroed state starts from. -/
def ditherSeed (session r : Nat) : Nat :=
  if r ≠ 0 then r else let x := session ^^^ 0x6D2B79F5; if x = 0 then 1 else x

/-- The least and greatest raw value (R258). -/
def EleParam.clamp (p : EleParam) : Int × Int := if p.audio then (-32768, 32767) else (0, 2 ^ p.bits - 1)

/-- A lane rounded to an integer and clamped: value, flags, whether it was clamped, whether it was a NaN (R258). -/
def eleRound (mode : Nat) (p : EleParam) (z : Nat) : Int × Flags × Bool × Bool :=
  let (lo, hi) := p.clamp
  match (laneIn mode z).1 with
  | .nan _ => (0, flNV, false, true)
  | .inf s => (if s then lo else hi, flOF + flNX, true, false)
  | .fin s m e =>
    let (d, x) := roundAt 0 m e 0
    let i : Int := if s then -(d : Int) else d
    if i < lo then (lo, flOF + flNX, true, false)
    else if hi < i then (hi, flOF + flNX, true, false)
    else (i, if x then flNX else 0, false, false)

/-- What an output layer produces, sample by sample. -/
structure EleOutAcc where
  raw : List Int
  flags : Flags
  clamped : Nat
  nans : Nat
  prev : List Nat
  r : Nat
  deriving DecidableEq, Repr

def eleOutStep (mode : Nat) (p : EleParam) (a : EleOutAcc) (ch : Nat) (y : Nat × Flags) : EleOutAcc :=
  let y1 := if p.alpha = 0 then y else
    let (c, f) := lFma mode (alphaLane p false) (a.prev.getD ch 0) y.1
    (c, y.2 ||| f)
  let z := lFma mode y1.1 p.gain p.zero
  let b := ditherStep (ditherStep a.r)
  let d : Int := (ditherStep a.r / 2 ^ 20 + b / 2 ^ 20 : Nat) - 4095
  let zd := if p.dither then
      let (v, f) := (laneIn mode z.1).1.add (.ofInt d (-12))
      laneOut mode (v, z.2 ||| f)
    else z
  let (i, fl, cl, nn) := eleRound mode p zd.1
  { raw := i :: a.raw, flags := (a.flags ||| y1.2 ||| zd.2 ||| fl), clamped := (a.clamped + b2n cl), nans := (a.nans + b2n nn),
    prev := setAt a.prev ch y1.1, r := b }

/-- An output layer (R258, R259): raw samples in order, flags, counts, and the state it leaves. -/
def eleOutput (mode : Nat) (p : EleParam) (g : EleGeom) (ws : List Nat)
    (pad : Int → Int → Nat → Nat × Flags) (session : Nat) (st : EleState) (xs : List Nat) : EleOutAcc × EleState :=
  let ys := eleFilter mode p g ws xs st.halo pad
  let a0 : EleOutAcc :=
    { raw := [], flags := 0, clamped := 0, nans := 0, prev := eleIngest.fit4 st.prev, r := ditherSeed session st.r }
  let a := (ys.foldl (fun (s : EleOutAcc × Nat) y => (eleOutStep mode p s.1 s.2 y, (s.2 + 1) % p.cout)) (a0, 0)).1
  ({ a with raw := a.raw.reverse },
    { r := a.r, prev := a.prev, halo := if p.causal then lastN p.halo (st.halo ++ xs) else [] })

/-- Cycles of a layer (R261). -/
def eleCycles (chunks samples fmas : Nat) : Nat := 24 * chunks + cdiv samples 64 + cdiv fmas 128

end Sys2Proof.Machine
end

