-- ==== Sys2Proof/Config.lean ====
section
/-! DEFINITION. The free values: what the manual leaves open where the machine goes on. -/

namespace Sys2Proof

/-- The value that the manual does not state at the n-th place where the machine meets one. It has no body, so nothing
can be proved of it (log entry 4). -/
opaque Config.freeValue : Nat → BitVec 64

/-- Where in the context region (R133) slot k's copy of its descriptor lies, in units of 64 bytes: the manual gives no
address (log entry 5). -/
opaque Config.descCopy : Nat → BitVec 11

/-- The number of the exported window that lies at an address of another device: the manual does not say how the holder
of a lease knows it (log entry 7). -/
opaque Config.remoteWin : Nat → Nat → BitVec 8

/-- SHA-384 measurements that the manual names without a value, by measurement number and firmware image: ROM version,
Housekeeper firmware, Steward firmware (log entry 9). -/
opaque Config.measurement : Nat → Nat → Nat

/-- Whether a completion ring counts as having a free slot while CR_HEAD_i, against R122, names records that the Briurjor has
not written, by tail and head: no behaviour is stated for that breach, so by R11 its outputs are undefined (log entry 81). -/
opaque Config.ringBreach : Nat → Nat → Bool

/-- The word in which a graph image holds a layer's pad constant, by the image's digests and the layer; R246 does not say where it
stands (log entry 54). -/
opaque Config.padConst : Nat → Nat → Nat → BitVec 64

/-- The scale under which a padded element of an MX tensor falls, by layer, row, column, channel and the tensor's scales; R246 leaves
it to the group of the element (log entry 54). -/
opaque Config.padScale : Nat → Int → Int → Nat → List Nat → BitVec 8

/-- The output tile of a fused chain, by the image's digest, the chain's first layer and an item: 0 its rows, 1 its columns, and
3 + k the bits of an element of the k-th map. A graph image states none of them, though R252 judges by them (log entry 55). -/
opaque Config.tile : Nat → Nat → Nat → BitVec 16

end Sys2Proof
end

