-- ==== Sys2Proof/Machine/Crypto.lean ====
section
/-! DEFINITION. The digests, checks and signature that the spec names: CRC-32C (R410), CRC-64 (R307),
SHA-256 (R302), SHA-384 and ECDSA over P-384 (R60). The spec names the SHA and ECDSA algorithms without printing
them; they are written here from the published standards (PRESUMED, log entry 6). -/

namespace Sys2Proof.Machine

/-! ### CRCs -/

def crc32cBit (c : Nat) : Nat := if c % 2 = 1 then (c / 2) ^^^ 0x82F63B78 else c / 2

/-- CRC-32C: polynomial 0x1EDC6F41 reflected, initial value and final exclusive-or all ones (R410). -/
def crc32c (b : Bytes) : Nat :=
  (b.foldl (fun c x => iter crc32cBit 8 (c ^^^ x.toNat)) 0xFFFFFFFF) ^^^ 0xFFFFFFFF

def crc64Bit (c : Nat) : Nat :=
  if nbit c 63 then (c * 2 % 2 ^ 64) ^^^ 0x42F0E1EBA9EA3693 else c * 2 % 2 ^ 64

/-- CRC-64: polynomial 0x42F0E1EBA9EA3693, initial value 0, no reflection (R307). -/
def crc64 (b : Bytes) : Nat := b.foldl (fun c x => iter crc64Bit 8 (c ^^^ (x.toNat * 2 ^ 56))) 0

/-! ### SHA-2 -/

/-- The first eighty primes: the SHA-2 constants are fractional bits of their roots. -/
def shaPrimes : List Nat :=
  [2, 3, 5, 7, 11, 13, 17, 19, 23, 29, 31, 37, 41, 43, 47, 53, 59, 61, 67, 71, 73, 79, 83, 89, 97, 101, 103, 107, 109,
   113, 127, 131, 137, 139, 149, 151, 157, 163, 167, 173] ++
  [179, 181, 191, 193, 197, 199, 211, 223, 227, 229, 233, 239, 241, 251, 257, 263, 269, 271, 277, 281, 283, 293, 307,
   311, 313, 317, 331, 337, 347, 349, 353, 359, 367, 373, 379, 383, 389, 397, 401, 409]

def icbrtLoop (n : Nat) : Nat → Nat → Nat
  | 0, r => r
  | b + 1, r => let c := r + 2 ^ b; icbrtLoop n b (if c * c * c ≤ n then c else r)

/-- The first 64 fractional bits of a cube root. -/
def fracCbrt (p : Nat) : Nat := icbrtLoop (p * 2 ^ 192) 70 0 % 2 ^ 64

/-- The first 64 fractional bits of a square root. -/
def fracSqrt (p : Nat) : Nat := isqrt (p * 2 ^ 128) % 2 ^ 64

/-- What tells SHA-256 from SHA-384: word width in bits, rounds, rotation counts, constants, initial value. -/
structure Sha where
  w : Nat
  k : List Nat
  iv : List Nat
  s0 : Nat × Nat × Nat
  s1 : Nat × Nat × Nat
  e0 : Nat × Nat × Nat
  e1 : Nat × Nat × Nat

def rotr (w n x : Nat) : Nat := (x / 2 ^ n + x % 2 ^ n * 2 ^ (w - n)) % 2 ^ w

def sha256P : Sha :=
  { w := 32, k := (shaPrimes.take 64).map (fun p => fracCbrt p / 2 ^ 32),
    iv := (shaPrimes.take 8).map (fun p => fracSqrt p / 2 ^ 32),
    s0 := (7, 18, 3), s1 := (17, 19, 10), e0 := (2, 13, 22), e1 := (6, 11, 25) }

def sha384P : Sha :=
  { w := 64, k := shaPrimes.map fracCbrt, iv := ((shaPrimes.drop 8).take 8).map fracSqrt,
    s0 := (1, 8, 7), s1 := (19, 61, 6), e0 := (28, 34, 39), e1 := (14, 18, 41) }

/-- Message schedule: `ws` holds the last sixteen words, latest first. -/
def shaSched (p : Sha) : Nat → List Nat → List Nat
  | 0, ws => ws
  | n + 1, ws =>
    let g := fun i => ws.getD i 0
    let sg := fun (t : Nat × Nat × Nat) (x : Nat) => rotr p.w t.1 x ^^^ rotr p.w t.2.1 x ^^^ (x / 2 ^ t.2.2)
    shaSched p n ((sg p.s1 (g 1) + g 6 + sg p.s0 (g 14) + g 15) % 2 ^ p.w :: ws)

def shaRound (p : Sha) (h : List Nat) (kw : Nat × Nat) : List Nat :=
  match h with
  | [a, b, c, d, e, f, g, hh] =>
    let bs := fun (t : Nat × Nat × Nat) (x : Nat) => rotr p.w t.1 x ^^^ rotr p.w t.2.1 x ^^^ rotr p.w t.2.2 x
    let ones := 2 ^ p.w - 1
    let t1 := hh + bs p.e1 e + ((e &&& f) ^^^ ((ones ^^^ e) &&& g)) + kw.1 + kw.2
    let t2 := bs p.e0 a + ((a &&& b) ^^^ (a &&& c) ^^^ (b &&& c))
    [(t1 + t2) % 2 ^ p.w, a, b, c, (d + t1) % 2 ^ p.w, e, f, g]
  | h => h

def shaBlock (p : Sha) (h : List Nat) (blk : Bytes) : List Nat :=
  let n := p.w / 8
  let ws := (List.range 16).map (fun i => unbe (slice blk (n * i) n))
  let all := (shaSched p (p.k.length - 16) ws.reverse).reverse
  let r := (p.k.zip all).foldl (shaRound p) h
  (h.zip r).map (fun x => (x.1 + x.2) % 2 ^ p.w)

def shaBlocks (p : Sha) (blk : Nat) : Nat → Bytes → List Nat → List Nat
  | 0, _, h => h
  | n + 1, b, h => shaBlocks p blk n (b.drop blk) (shaBlock p h (b.take blk))

/-- The digest: padding, blocks, and the chosen number of output bytes. -/
def sha (p : Sha) (out : Nat) (m : Bytes) : Bytes :=
  let blk := 2 * p.w
  let pad := (2 * blk - 1 - p.w / 4 - m.length % blk) % blk
  let b := m ++ [0x80] ++ zeros pad ++ be (p.w / 4) (8 * m.length)
  ((shaBlocks p blk (b.length / blk) b p.iv).flatMap (be (p.w / 8))).take out

def sha256 (m : Bytes) : Bytes := sha sha256P 32 m
def sha384 (m : Bytes) : Bytes := sha sha384P 48 m

/-! ### ECDSA over P-384 -/

def ecP : Nat := 2 ^ 384 - 2 ^ 128 - 2 ^ 96 + 2 ^ 32 - 1
def ecB : Nat := 0xB3312FA7E23EE7E4988E056BE3F82D19181D9C6EFE8141120314088F5013875AC656398D8A2ED19D2A85C8EDD3EC2AEF
def ecN : Nat := 0xFFFFFFFFFFFFFFFFFFFFFFFFFFFFFFFFFFFFFFFFFFFFFFFFC7634D81F4372DDF581A0DB248B0A77AECEC196ACCC52973
def ecGx : Nat := 0xAA87CA22BE8B05378EB1C71EF320AD746E1D3B628BA79B9859F741E082542A385502F25DBF55296C3A545E3872760AB7
def ecGy : Nat := 0x3617DE4A96262C6F5D9E98BF9292DC29F8F41DBD289A147CE9DA3113B5F0B8C00A60B1CE1D7E819D7A431D7C90EA0E5F

def powMod (m a : Nat) : Nat → Nat → Nat
  | 0, _ => 1
  | n + 1, e => let h := powMod m a n (e / 2); if e % 2 = 1 then h * h % m * a % m else h * h % m

def invMod (m a : Nat) : Nat := powMod m (a % m) 384 (m - 2)

/-- A point in Jacobian coordinates; z = 0 is the point at infinity. -/
structure EcPt where
  x : Nat
  y : Nat
  z : Nat
  deriving DecidableEq, Repr

def ecSub (a b : Nat) : Nat := (a + ecP - b % ecP) % ecP

def ecDbl (q : EcPt) : EcPt :=
  if q.z = 0 then q
  else
    let d := q.z * q.z % ecP
    let g := q.y * q.y % ecP
    let b := q.x * g % ecP
    let a := 3 * (ecSub q.x d) * (q.x + d) % ecP
    let x := ecSub (a * a) (8 * b)
    { x := x, y := ecSub (a * ecSub (4 * b) x) (8 * g * g), z := 2 * q.y * q.z % ecP }

def ecAdd (q r : EcPt) : EcPt :=
  if q.z = 0 then r else if r.z = 0 then q
  else
    let z1 := q.z * q.z % ecP
    let z2 := r.z * r.z % ecP
    let u1 := q.x * z2 % ecP
    let u2 := r.x * z1 % ecP
    let s1 := q.y * r.z % ecP * z2 % ecP
    let s2 := r.y * q.z % ecP * z1 % ecP
    let h := ecSub u2 u1
    let k := ecSub s2 s1
    if h = 0 then (if k = 0 then ecDbl q else { x := 1, y := 1, z := 0 })
    else
      let h2 := h * h % ecP
      let h3 := h2 * h % ecP
      let v := u1 * h2 % ecP
      let x := ecSub (ecSub (k * k) h3) (2 * v)
      { x := x, y := ecSub (k * ecSub v x) (s1 * h3), z := q.z * r.z % ecP * h % ecP }

def ecMul (q : EcPt) : Nat → Nat → EcPt
  | 0, _ => { x := 1, y := 1, z := 0 }
  | n + 1, k => let d := ecDbl (ecMul q n (k / 2)); if k % 2 = 1 then ecAdd d q else d

/-- The public key lies on the curve. -/
def ecOnCurve (x y : Nat) : Bool :=
  decide (x < ecP) && decide (y < ecP) && y * y % ecP == (x * x * x + ecB + (ecP - 3) * x) % ecP

/-- Verification of (r, s) over a SHA-384 digest with the key (x, y). -/
def ecdsaVerify (x y r s : Nat) (digest : Bytes) : Bool :=
  if decide (0 < r) && decide (r < ecN) && decide (0 < s) && decide (s < ecN) && ecOnCurve x y then
    let w := invMod ecN s
    let q := ecAdd (ecMul { x := ecGx, y := ecGy, z := 1 } 384 (unbe digest * w % ecN))
      (ecMul { x := x, y := y, z := 1 } 384 (r * w % ecN))
    let zi := invMod ecP q.z
    q.z != 0 && q.x * (zi * zi % ecP) % ecP % ecN == r
  else false

end Sys2Proof.Machine
end

