-- ==== Sys2Proof/Machine/State.lean ====
section
/-! DEFINITION. The state of the block: every register, memory, queue, counter and mode that the manual gives it, as
plain data; the machine after reset; and the reasons a step can stop. A field of State is named for the chapter that
owns it. A map that does not list an index holds that index's reset value. -/

namespace Sys2Proof.Machine

open Sys2Proof

/-! ### Who the device is (R1, R3, R469) -/

/-- What the factory and the board fix: stepping, grade, board, serial number. -/
structure Ident where
  /-- TOP_ID.STEP: 1 is A1, 2 is B0 (Table 0-2). -/
  step : Nat
  /-- TOP_ID.GRADE: 1 is L, 2 is S. -/
  grade : Nat
  /-- TOP_ID.BOARD: 1 is HB16-M, 2 is HB16-C. -/
  board : Nat
  serial : Word
  deriving DecidableEq, Repr

/-! ### The configuration a set holds (Layout Images) -/

/-- A ROOM section (Table 3-3). -/
structure RoomCfg where
  tenant : Nat
  level : Nat
  dispatcher : Nat
  restart : Bool
  islands : Word
  rces : Word
  eles : Word
  slots : Nat
  numericKey : Nat
  rasKey : Nat
  deriving DecidableEq, Repr

/-- An ISLAND section (Table 3-4). -/
structure IslandCfg where
  pinKib : Nat
  stackKib : Nat
  deriving DecidableEq, Repr

/-- A PASSAGE section (Table 3-5). -/
structure PassageCfg where
  src : Nat
  sink : Nat
  hops : Nat
  width : Nat
  route : Word
  deriving DecidableEq, Repr

/-- A QUEUEMAP section (Table 3-6). -/
structure QMapCfg where
  firstQ : Nat
  count : Nat
  room : Nat
  cring : Nat
  crspan : Nat
  deriving DecidableEq, Repr

/-- A WINDOW section (Table 3-8). -/
structure WindowCfg where
  base : Nat
  size : Nat
  tenant : Nat
  kind : Nat
  access : Nat
  peer : Nat
  leaseUs : Nat
  deriving DecidableEq, Repr

/-- A NUMERIC section (Table 3-9). -/
structure NumericCfg where
  family : Nat
  mode : Nat
  sfu : Nat
  ftab : Nat
  outconv : Nat
  padc : Nat
  rcv : Nat
  traps : Nat
  expectPw : Word
  deriving DecidableEq, Repr

/-- A LINKPOL section (Table 3-10). -/
structure LinkPolCfg where
  mode : Nat
  lanes : Nat
  protect : Nat
  retryUs : Nat
  rate : Nat
  peer : Nat
  deriving DecidableEq, Repr

/-- A RAS room policy (Table 3-12). -/
structure RasRoomCfg where
  margin : Nat
  maxSteps : Nat
  withhold : Nat
  deriving DecidableEq, Repr

/-- The RAS chip policy (Table 3-12). -/
structure RasChipCfg where
  sweepS : Nat
  scrubH : Nat
  cflags : Nat
  refresh : Nat
  deriving DecidableEq, Repr

/-- A TENANT section (Table 3-7). -/
structure TenantCfg where
  qbase : Nat
  qcount : Nat
  crbase : Nat
  crcount : Nat
  /-- TFLAGS: [0] ENABLED, [1] ROOM_TXN, [2] AUDIT. -/
  flags : Nat
  deriving DecidableEq, Repr

/-- One configuration set: the Living set or the Attic (R62, R70). -/
structure ConfigSet where
  rooms : NMap RoomCfg
  islands : NMap IslandCfg
  passages : NMap PassageCfg
  qmaps : NMap QMapCfg
  windows : NMap WindowCfg
  numerics : NMap NumericCfg
  linkpols : NMap LinkPolCfg
  rasRooms : NMap RasRoomCfg
  rasChip : Option RasChipCfg
  tenants : NMap TenantCfg
  /-- RWT registers by BAR0 offset that differ from their reset values. -/
  rwt : NMap Word
  targetPw : Word
  stepMask : Nat
  /-- IMAGE_ID, 16 bytes as a little-endian number. -/
  ident : BitVec 128
  /-- Owner-key slot whose key signed the image; 7 for the empty configuration. -/
  slot : Nat
  dirty : Bool
  deriving DecidableEq, Repr

/-- The empty configuration (R46, R62). -/
def ConfigSet.empty : ConfigSet :=
  { rooms := [], islands := [], passages := [], qmaps := [], windows := [], numerics := [], linkpols := [],
    rasRooms := [], rasChip := none, tenants := [], rwt := [], targetPw := 0, stepMask := 6, ident := 0,
    slot := 7, dirty := false }

/-! ### Time (Islands, Passages and Global Time) -/

/-- One clock island: its view of the GTC and its oscillator (R18–R40). -/
structure ClkIsl where
  /-- Count that the time cell has formed from the tree, less the master's, ns: minus the tree delay, with the sampling
  error and the drift (R33, R35). The view is this count plus GTC_OFFS. -/
  lag : Int
  /-- GTC_OFFS, ns, measured at boot (R33). -/
  offs : Nat
  /-- GTC_ERR as last measured. -/
  err : Int
  /-- CEIL_EFF in force, MHz; 0 stands for the default ceiling of Table 2-1 (R22). -/
  ceilEff : Nat
  /-- Ceiling to which a retune under way leads (R24). -/
  retune : Option Nat
  /-- Ceiling of the spread triangle the clock is on: through a rise of CEIL_EFF still the old one; 0 as for ceilEff. -/
  freq : Nat
  deriving DecidableEq, Repr

structure Clk where
  /-- The master GTC, ns. -/
  gtc : Nat
  valid : Bool
  refLost : Bool
  /-- 0 SOLO, 1 CELL, 2 YARD, 3 HOLDOVER. -/
  align : Nat
  slewPpb : Int
  steps : Nat
  resyncs : Nat
  isl : NMap ClkIsl
  /-- Last stamp of each event source (R36). -/
  stamps : NMap Nat
  /-- A forward step deferred for Level T rooms, ns (R375). -/
  stepDue : Option Nat
  deriving DecidableEq, Repr

/-! ### Transactions and the Hatch -/

/-- State of one scope's transaction (Table 4-3). -/
inductive TxnSt where
  | idle | opened | loading | validating | hatching
  deriving DecidableEq, Repr

structure Txn where
  st : TxnSt
  token : Nat
  result : Nat
  detail : Nat
  writes : Nat
  /-- CFG_TXN_FAIL as the last INVALID left it. -/
  fail : Word
  /-- GTC of the last activity of the scope (R77). -/
  lastGtc : Nat
  force : Bool
  maint : Bool
  cell : Bool
  /-- A ROLLBACK that waits for the running load (R66). -/
  pendRollback : Bool
  /-- A COMMIT that waits for the running load (R79). -/
  pendCommit : Bool
  /-- Number of the COMMIT write among all accepted ones: their R37 order (R86). -/
  ord : Nat
  deriving DecidableEq, Repr

def Txn.reset : Txn :=
  { st := .idle, token := 0, result := 0, detail := 0, writes := 0, fail := 0, lastGtc := 0, force := false,
    maint := false, cell := false, pendRollback := false, pendCommit := false, ord := 0 }

/-- State of the Hatch unit (Table 4-4). -/
inductive HatchSt where
  | idle | prepare | armed | clearing | inDoubt
  deriving DecidableEq, Repr

/-- The coordinator's record of a cell-wide Hatch (R88, R89). -/
structure HatchRec where
  tag : Nat
  members : Nat
  /-- Members whose ready vote has come. -/
  ready : Nat
  /-- Members that failed or voted abort. -/
  failed : Nat
  /-- The decision, once there is one: none while open; a swap instant, or 0 for ABORT. -/
  decision : Option Nat
  /-- GTC of the first commit: the deadline runs from it. -/
  since : Nat
  deriving DecidableEq, Repr

structure Hatch where
  st : HatchSt
  result : Nat
  preempted : Nat
  late : Bool
  /-- Commits waiting, first in R37 order: chip is 64, room m is m. -/
  queue : List Nat
  /-- Scope of the Hatch in progress: chip is 64. -/
  cur : Nat
  rooms : Word
  t : Nat
  /-- GTC at which Prepare began. -/
  since : Nat
  /-- FORCE has begun to stop tasks. -/
  forcing : Bool
  blockIsl : Word
  blockEng : Word
  /-- Rooms and T-islands under the clearing of R69. -/
  clearing : Word
  clearIsl : Word
  /-- This member has sent its ready vote. -/
  voted : Bool
  /-- Resets held until the swap (R87, R107): rooms with FLUSH, tenants with SCRUB. -/
  heldRooms : List (Nat × Bool)
  heldTenants : List (Nat × Bool)
  rec_ : Option HatchRec
  /-- Outcomes of cell-wide Hatches that this member has learnt, by TAG: the swap instant, or 0 for ABORT, and the members
  that failed (R88, R382). -/
  seen : NMap (Nat × Nat)
  deriving DecidableEq, Repr

/-- The layout loader (Table 3-14). -/
structure Loader where
  busy : Bool
  delta : Bool
  result : Nat
  stage : Nat
  section_ : Nat
  offset : Nat
  /-- SRC of the load under way: true reads the Cellar. -/
  cellar : Bool
  addr : Nat
  deriving DecidableEq, Repr

structure TxnUnit where
  chip : Txn
  rooms : NMap Txn
  /-- Last token issued (R73). -/
  token : Nat
  /-- COMMIT writes accepted so far (R86). -/
  commits : Nat
  discard : Nat
  discardOff : Nat
  loader : Loader
  hatch : Hatch
  /-- QUIESCE and QFORCE as written (R90). -/
  quiesce : Bool
  qforce : Bool
  quiesceAt : Nat
  resetPending : Bool
  /-- HASH of the authorisation block that last passed R442. -/
  fuseHash : Nat
  deriving DecidableEq, Repr

/-! ### Tenants and rooms -/

/-- Room states (Table 5-2). -/
inductive RoomSt where
  | absent | serving | held | faulted | resetting | clearing | dormant
  deriving DecidableEq, Repr

structure RoomRt where
  st : RoomSt
  cause : Nat
  resets : Nat
  /-- A room reset merged into the clearing under way, and its FLUSH, applied when the clearing completes (R104). -/
  merged : Bool
  flush : Bool
  /-- State of the room at Level T (Table 14-6): 0 not timed, 1 TIMED, 2 BROKEN. -/
  timed : Nat
  breakCause : Nat
  tepoch : Nat
  breaks : Nat
  /-- An R300 event waits for the room to have no task. -/
  rearm : Bool
  refreshNs : Nat
  retries : Nat
  /-- Stream Passages of the room whose lanes a stall holds (R41). -/
  stalled : List Nat
  deriving DecidableEq, Repr

def RoomRt.reset : RoomRt :=
  { st := .absent, cause := 0, resets := 0, merged := false, flush := false, timed := 0, breakCause := 0, tepoch := 0,
    breaks := 0, rearm := false, refreshNs := 0, retries := 0, stalled := [] }

/-- Tenant states (TEN_TNT_n_STATUS.STATE). -/
inductive TenSt where
  | inactive | active | resetting | scrubbing
  deriving DecidableEq, Repr

structure TenRt where
  st : TenSt
  resets : Nat
  /-- Bytes that the reset under way zeroes: base and size of the tenant's private and Pantry windows (R105). -/
  scrub : List (Nat × Nat)
  /-- The reset under way has SCRUB. -/
  scrubOn : Bool
  /-- TEN_TNT_n_FAULT, bits [6:0]. -/
  fault : Word
  violQ : Nat
  violA : Nat
  lastQ : Nat
  killed : Nat
  /-- Room of the tenant's last transaction OP, where that OP was DENIED for a room it does not own (R75). -/
  txDenied : Option Nat
  /-- Writes discarded under R75. -/
  txDiscards : Nat
  deriving DecidableEq, Repr

def TenRt.reset : TenRt :=
  { st := .inactive, resets := 0, scrub := [], scrubOn := false, fault := 0, violQ := 0, violA := 0, lastQ := 0,
    killed := 0, txDenied := none, txDiscards := 0 }

structure TenUnit where
  tenants : NMap TenRt
  rooms : NMap RoomRt
  vfEnable : Bool
  numVfs : Nat
  /-- TEN_KILL.KILLED and BUSY, and the tasks that the last kill waits for. -/
  killed : Nat
  killBusy : Bool
  killTids : List Nat
  /-- Islands under an island reset. -/
  islBusy : List Nat
  deriving DecidableEq, Repr

/-! ### Session queues (Session Queues and Polling) -/

/-- A descriptor the queue manager holds. -/
structure QEntry where
  /-- The 64 bytes of Table 6-2. -/
  raw : Bytes
  /-- GTC of acceptance. -/
  accGtc : Nat
  /-- Order of acceptance, device-wide (R37 order of acceptance). -/
  ord : Nat
  /-- Twin number of R305; none outside twinned rooms. -/
  twin : Option Nat
  deriving DecidableEq, Repr

structure Queue where
  active : Bool
  mode : Nat
  ring : Nat
  log2 : Nat
  /-- Ring entries consumed, free-running. -/
  head : Nat
  /-- Known tail, free-running. -/
  tail : Nat
  /-- Accepted and not started, oldest first. -/
  waiting : List QEntry
  /-- Tasks started and not ended, with the R113 rule 2 mark on those that use a state block. -/
  running : Nat
  stateBusy : Bool
  accepted : Nat
  /-- Ring entries whose read has been issued and has not come back (R117). -/
  asked : Nat
  /-- Descriptors that wait for the context fetch under way (R112). -/
  fetching : List Bytes
  /-- Twin numbering (R305). -/
  twinNo : Nat
  /-- QCFG_STATUS.RESULT: result of the last OP on the queue. -/
  lastRes : Nat
  deriving DecidableEq, Repr

def Queue.reset : Queue :=
  { active := false, mode := 0, ring := 0, log2 := 0, head := 0, tail := 0, waiting := [], running := 0,
    stateBusy := false, accepted := 0, asked := 0, fetching := [], twinNo := 0, lastRes := 0 }

structure CRing where
  base : Nat
  log2 : Nat
  entry64 : Bool
  enabled : Bool
  tail : Nat
  head : Nat
  reserved : Nat
  stalls : Nat
  /-- Records that wait for a free slot, oldest first (R115, R127). -/
  backlog : List Bytes
  deriving DecidableEq, Repr

def CRing.reset : CRing :=
  { base := 0, log2 := 0, entry64 := false, enabled := false, tail := 0, head := 0, reserved := 0, stalls := 0,
    backlog := [] }

/-- A push slot: the bytes it holds, by offset, and the GTC of the first. -/
structure PushSlot where
  held : NMap Byte
  since : Nat
  deriving DecidableEq, Repr

/-- What the queue manager keeps for one function. -/
structure FnQ where
  push : NMap PushSlot
  accept : Nat
  torn : Nat
  refused : Nat
  /-- Queue of the function's last QCFG OP. -/
  lastOpQ : Option Nat
  gen : Nat
  /-- A change of a tail, FAULT or the push counters not yet on the poll page. -/
  dirty : Bool
  /-- Tail words as the last scan read them. -/
  scanned : NMap Nat
  scanOn : Bool
  deriving DecidableEq, Repr

def FnQ.reset : FnQ :=
  { push := [], accept := 0, torn := 0, refused := 0, lastOpQ := none, gen := 0, dirty := false,
    scanned := [], scanOn := false }

structure QMgr where
  queues : NMap Queue
  rings : NMap CRing
  fns : NMap FnQ
  /-- Hot contexts, least recently used first (R112). -/
  hot : List Nat
  order : Nat
  accepts : Nat
  hits : Nat
  misses : Nat
  overflow : Nat
  torn : Nat
  refused : Nat
  viol : Nat
  staleDb : Nat
  deriving DecidableEq, Repr
/-! ### Islands, slots and tasks (Stewards; the Grid and Crates) -/

/-- Poisonable storage: the bytes that are not zero, by ascending address, and the poisoned units. -/
structure Store where
  mem : List Host.Cell
  poison : List Nat
  deriving DecidableEq, Repr

def Store.empty : Store := { mem := [], poison := [] }

/-- Task slot states (Table 7-5). -/
inductive SlotSt where
  | free | ready | running | waiting | stopping | ending
  deriving DecidableEq, Repr

/-- A response that a Level T room holds (R295): the instant of its release, what it brings with the poisoned parts, and whether it
reports an error. -/
structure Resp where
  rel : Nat
  data : Bytes
  bad : List (Nat × Nat)
  err : Bool
  deriving DecidableEq, Repr

/-- A DMA request under its tag, with its far end (R140). -/
structure Dma where
  write : Bool
  /-- Address of the request block: TVAL of a DMA_ERROR. -/
  blk : Nat
  shelf : Nat
  len : Nat
  chip : Nat
  far : Nat
  cls : Nat
  issued : Nat
  done : Bool
  err : Bool
  /-- Stopped with its task: the data that arrive are discarded (R145). -/
  drop : Bool
  /-- Level T: the response that has arrived and is held (R295). -/
  held : Option Resp
  /-- Bytes moved so far, for streams and remote requests. -/
  moved : Nat
  /-- What the answered parts of a remote read have brought, with its poisoned parts. -/
  buf : Bytes
  bufBad : List (Nat × Nat)
  /-- The instruction that issued it. -/
  epc : Nat
  /-- A frame of it needed a link-level retry. -/
  retried : Bool
  /-- Commit order on its island. -/
  ord : Nat
  /-- Tied to an ELE and still in the DMA unit: the chunk before it holds it back (R256). -/
  waits : Bool
  /-- Parts of its data that arrived over the mesh with a lane-parity mismatch: delivered with their poison marker (R32). -/
  meshBad : List (Nat × Nat)
  /-- A packet that served it was discarded on the mesh: only the outstanding-request timer ends it (R32). -/
  lost : Bool
  deriving DecidableEq, Repr

structure Slot where
  st : SlotSt
  task : Nat
  /-- g1–g31, those written since task start; the others hold zero, and g0 is never written. -/
  regs : NMap Word
  pc : Nat
  evec : Word
  outLen : Nat
  cycles : Nat
  inHandler : Bool
  /-- Segment index within the graph. -/
  seg : Nat
  /-- 4 KiB working pages allocated, ascending addresses. -/
  pages : List Nat
  hold : Nat
  /-- Condition word of the WAIT that the slot is in. -/
  wait : Word
  tags : NMap Dma
  /-- Crates FULL for this slot's task. -/
  full : List Nat
  /-- Crates to restore when the slot's crates come back. -/
  saved : List Nat
  /-- Overlays: crate, page address. -/
  maps : List (Nat × Nat)
  fmt : Option (Nat × Nat)
  startRow : Nat
  nflags : Word
  /-- Fault of a vector program not yet raised: cause and TVAL (R222). -/
  vfault : Option (Nat × Nat)
  /-- Commit order of the last VEC.SYNC (R216). -/
  vsync : Option Nat
  deriving DecidableEq, Repr

def Slot.reset : Slot :=
  { st := .free, task := 0, regs := [], pc := 0, evec := 0, outLen := 0, cycles := 0,
    inHandler := false, seg := 0, pages := [], hold := 0, wait := 0, tags := [], full := [],
    saved := [], maps := [], fmt := none, startRow := 0, nflags := 0, vfault := none, vsync := none }

/-- A crate transfer in the crate unit's queue. -/
structure Xfer where
  slot : Nat
  store : Bool
  crate : Nat
  addr : Nat
  stride : Nat
  first : Nat
  count : Nat
  p6 : Bool
  /-- The load found the crate EMPTY: rows it does not load become zero (R165). -/
  fresh : Bool
  ord : Nat
  epc : Nat
  /-- It has completed; its rows have moved. A completed transfer whose rows have not moved waits for an earlier operation on its crate
  that has read or written the rows and not completed (R169). -/
  done : Bool
  moved : Bool
  deriving DecidableEq, Repr

/-- A Grid operation in the Grid queue. -/
structure GridOp where
  slot : Nat
  mma : Bool
  fa : Nat
  fb : Nat
  acr : Nat
  bcr : Nat
  av : Nat
  scale : Option Nat
  ag : Nat
  bg : Nat
  depth : Nat
  ord : Nat
  epc : Nat
  started : Bool
  /-- Row-step at which the array was last seen to stand. -/
  row : Nat
  /-- At its commit an earlier operation stood before it, or its slot's crates were not in place: it may have waited under R161, or
  under R171. -/
  late : Bool
  swapped : Bool
  deriving DecidableEq, Repr

/-- A vector program in the vector queue, and its registers while it runs. -/
structure VecOp where
  slot : Nat
  addr : Nat
  arg : Word
  ord : Nat
  epc : Nat
  /-- Ordered behind earlier work by VEC.SYNC: commit order below which all must have completed. -/
  sync : Option Nat
  /-- Crates FULL for the program in commit order: those of its task at its commit, and those that it and the programs before it have
  filled since (R165, R221). -/
  full : List Nat
  /-- At its commit an earlier operation stood before it: it may wait under R224. -/
  late : Bool
  started : Bool
  /-- Index of the next instruction. -/
  pc : Nat
  /-- v0–v31, those written: 128 lanes of 32 bits each (R218). -/
  v : NMap (List Nat)
  /-- Address registers p0–p7, as far as they are written. -/
  p : List Word
  deriving DecidableEq, Repr

structure Isl where
  shelf : Store
  slots : NMap Slot
  /-- Slot RUNNING now, and the slot that ran last. -/
  run : Option Nat
  lastRun : Option Nat
  /-- Two-bit counters by index, those not 1, and the return stack, newest first (R153). -/
  pred : NMap Nat
  rstack : List Nat
  crates : NMap Store
  /-- Slot whose crates are in place; the slots that the swaps to come bring in, in order (R171). -/
  owner : Nat
  swapTo : List Nat
  xfers : List Xfer
  grid : List GridOp
  vec : List VecOp
  /-- Commit order counter. -/
  ord : Nat
  /-- ISL_n_FAULT_FRAME and the number of its writes. -/
  frame : List Word
  frames : Nat
  nflags : Word
  trapped : Nat
  instret : Nat
  brRes : Nat
  brMis : Nat
  sqFetch : Nat
  sqExec : Nat
  switches : Nat
  excHandled : Nat
  excEnded : Nat
  gridCycles : Nat
  /-- GRID_STALL.OPND and SWAP, VEC_STALL; STEW_CYCLES and BANKCONF as last read, with INSTRET at those reads. -/
  opndStall : Nat
  swapStall : Nat
  vecStall : Nat
  stewCycles : Nat
  bankConf : Nat
  cyclesAt : Nat
  bankAt : Nat
  resMis : Nat
  resRetried : Nat
  resFailed : Nat
  crCorr : Nat
  crUncorr : Nat
  crPoison : Nat
  /-- CRATE_START_ROW by slot as last recorded. -/
  startRows : NMap Nat
  swSaved : Nat
  swRestored : Nat
  vecCycles : Nat
  sfuPwl : Nat
  sfuIter : Nat
  vecDone : Nat
  vecFaulted : Nat
  shCorr : Nat
  shUncorr : Nat
  shConsumed : Nat
  deriving DecidableEq, Repr

def Isl.reset : Isl :=
  { shelf := .empty, slots := [], run := none, lastRun := none, pred := [], rstack := [], crates := [], owner := 0,
    swapTo := [], xfers := [], grid := [], vec := [], ord := 0, frame := List.replicate 8 0, frames := 0,
    nflags := 0, trapped := 0, instret := 0, brRes := 0, brMis := 0, sqFetch := 0, sqExec := 0,
    switches := 0, excHandled := 0, excEnded := 0, gridCycles := 0, opndStall := 0,
    swapStall := 0, vecStall := 0, stewCycles := 0, bankConf := 0, cyclesAt := 0, bankAt := 0, resMis := 0, resRetried := 0, resFailed := 0, crCorr := 0, crUncorr := 0, crPoison := 0, startRows := [],
    swSaved := 0, swRestored := 0, vecCycles := 0, sfuPwl := 0, sfuIter := 0, vecDone := 0, vecFaulted := 0, shCorr := 0,
    shUncorr := 0, shConsumed := 0 }

/-- One execution of a graph on one descriptor. -/
structure Task where
  queue : Nat
  room : Nat
  tenant : Nat
  ent : QEntry
  start : Nat
  /-- Islands and slots held, lead first. -/
  slots : List (Nat × Nat)
  late : Bool
  /-- Status and DETAIL once something has set them. -/
  status : Option (Nat × Nat)
  outLen : Nat
  /-- Output bytes written so far. -/
  written : Nat
  /-- Stopped by FORCE: to go back to the head of its queue (R85). -/
  requeue : Bool
  /-- Ended by a tenant reset: no record (R103). -/
  noRecord : Bool
  nflags : Word
  refreshHits : Nat
  linkRetries : Nat
  ring : Nat
  /-- Pantry window and directory entry of the graph. -/
  window : Nat
  entry : Nat
  stateBytes : Nat
  /-- Input bytes hashed so far, from the first (R303). -/
  hashed : Bytes
  /-- A read has left a gap: nothing more is hashed inline (R303). -/
  gap : Bool
  /-- GTC at which the read of the input bytes not hashed inline was issued (R303). -/
  refetchAt : Option Nat
  broken : Bool
  /-- Occupied a unit that became suspect, in a room with WITHHOLD (R399). -/
  withhold : Bool
  /-- Writes into the task's own state block, held until it completes OK (R126): address, bytes, poisoned parts. -/
  pend : List (Nat × Bytes × List (Nat × Nat))
  /-- Store log of R307: key kind × 2^32 + block, with hash H and the GTC of the last store. -/
  slog : NMap (Nat × Nat)
  /-- Waits for the twin's comparison message. -/
  comparing : Bool
  /-- The twin's comparison message, when it came first. -/
  peerMsg : Option TwinMsg
  solo : Bool
  /-- Head: the members of its span have been told to stop. Member: the head has said so, or is unreachable. -/
  spanStop : Bool
  /-- Part of a task of a span's head: chip ID of the head and its reference (R379). -/
  span : Option (Nat × Nat)
  /-- Layers of its graph that an ELE has run for it. -/
  eleDone : List Nat
  deriving DecidableEq, Repr

structure Tasks where
  /-- By start order (R37 order of start instants). -/
  live : NMap Task
  next : Nat
  deriving DecidableEq, Repr

/-! ### The Ledger (The Ledger and the Inventory) -/

/-- A coalescing counter (R420). -/
structure Coal where
  cls : Nat
  code : Nat
  tenant : Nat
  sev : Nat
  first : Nat
  last : Nat
  count : Nat
  word0 : Nat
  opened : Nat
  deriving DecidableEq, Repr

structure Stage where
  buf : List Event
  coal : List Coal
  deriving DecidableEq, Repr

/-- Losses not yet reported by a LOSS record (R422). -/
structure Loss where
  first : Nat
  last : Nat
  ring : Nat
  stage : Nat
  sev : Nat
  classes : Nat
  deriving DecidableEq, Repr

structure Ledger where
  log2 : Nat
  mirror : Bool
  head : Nat
  next : Nat
  mirrorNext : Nat
  cfgRefused : Nat
  badHead : Nat
  ringDrops : Nat
  stageDrops : Nat
  coalesced : Nat
  peak : Nat
  peakSrc : Nat
  stages : NMap Stage
  loss : Option Loss
  viewSeq : NMap Nat
  deriving DecidableEq, Repr

/-- A book as an audit judged it (Table 19-4). -/
structure Book where
  pool : Nat
  held : Nat
  aux : Nat
  state : Nat
  deriving DecidableEq, Repr

structure Inventory where
  busy : Bool
  lateT : Bool
  at_ : Nat
  checked : Nat
  windowed : Nat
  imbalanced : Nat
  /-- Books of the last audit by Q × 2^17 + INDEX. -/
  books : NMap Book
  deriving DecidableEq, Repr

/-! ### Reproducibility and twins -/

inductive TwinSt where
  | off | pairing | paired | solo
  deriving DecidableEq, Repr

structure Repro where
  st : TwinSt
  pairResult : Nat
  peer : Nat
  primary : Bool
  diverged : Nat
  soloEvents : Nat
  firstKind : Nat
  firstRoom : Nat
  firstOff : Nat
  gtcLocal : Nat
  gtcPeer : Nat
  compared : Nat
  unpaired : Nat
  pairAt : Nat
  /-- Start messages received and not yet used: queue, number, deadline outcome (R306). -/
  starts : List (Nat × Nat × Nat)
  /-- Comparison messages whose task has not started here: queue, number, message. -/
  early : List (Nat × Nat × TwinMsg)
  digests : Nat
  refetchBytes : Nat
  deriving DecidableEq, Repr

/-! ### Cellar and Pantry -/

structure CellarCtl where
  trained : Bool
  rate2x : Bool
  tempC : Nat
  rdLines : Nat
  wrLines : Nat
  collisions : Nat
  maxWait : Nat
  corrected : Nat
  uncorr : Nat
  poisonIn : Nat
  lastErr : Nat
  deriving DecidableEq, Repr

structure Cellar where
  store : Store
  ctl : NMap CellarCtl
  passes : Nat
  /-- Lines the current scrub pass has read. -/
  scrubbed : Nat
  deriving DecidableEq, Repr

/-- Where a resident graph lies in one island's pinned region. -/
structure PinRun where
  island : Nat
  prog : Nat
  progLen : Nat
  pinLen : Nat
  deriving DecidableEq, Repr

/-- What dispatch needs of a graph image segment (Table 15-6). -/
structure SegInfo where
  pages : Nat
  hold : Nat
  entry : Nat
  evec : Nat
  deriving DecidableEq, Repr

/-- A Pantry directory entry in use (Table 15-9), with the placement of its graph. -/
structure PEntry where
  graph : Nat
  room : Nat
  state : Nat
  code : Nat
  imageOff : Nat
  poison : Nat
  gd : Bytes
  wd : Bytes
  length : Nat
  woff : Nat
  inMin : Nat
  inMax : Nat
  stateBytes : Nat
  segs : List SegInfo
  /-- Segment that runs on the first island of the room here (R379). -/
  first : Nat
  /-- Whether a layer uses an RCE, and the ELEs that layers use, by index among the room's. -/
  rce : Bool
  eles : List Nat
  runs : List PinRun
  /-- UNLOAD or a replacement holds starts of the graph (R327, R328). -/
  held : Bool
  deriving DecidableEq, Repr

/-- A request that a Pantry window is running. -/
structure PReq where
  load : Bool
  room : Nat
  graph : Nat
  seq : Nat
  imageOff : Nat
  entry : Nat
  /-- The old runs have been freed (R331). -/
  freed : Bool
  newEntry : Option PEntry
  deriving DecidableEq, Repr

structure PWin where
  entries : NMap PEntry
  req : Option PReq
  /-- A request taken from the REQ line and not yet started. -/
  queued : Option (Nat × Nat × Nat × Nat × Nat)
  deriving DecidableEq, Repr

/-! ### Range coding and edge layers -/

/-- A job block that a DMA write takes to its assembling RCE (R275): the block as the write read it, with its first
poisoned word if it had one. -/
structure Submit where
  eng : Nat
  isl : Nat
  slot : Nat
  task : Nat
  room : Nat
  block : Bytes
  /-- Shelf address of the block, the DMA tag that waits for it, and the instruction that sent it. -/
  addr : Nat
  tag : Nat
  epc : Nat
  bad : Option Nat
  ord : Nat
  deriving DecidableEq, Repr

/-- What a substream that has ended gave: coded bytes, or latents; and of an encode the bytes that CHECK covers, from the arrays it
was coded with (R281). -/
structure SubOut where
  out : Bytes
  chk : Bytes
  deriving DecidableEq, Repr

/-- A job held by its assembling RCE. -/
structure Job where
  from_ : Submit
  subs : List (Option SubOut)
  /-- Of a decode that has passed its checks: where each substream lies in the frame, and the frame's LENGTH (R282). -/
  places : List (Nat × Nat)
  len : Nat
  deriving DecidableEq, Repr

/-- A request on an RCE (R277): substream 0–15 of a job, 16 the assembly, 17 the checks of R282. -/
structure CodeReq where
  job : Nat
  sub : Nat
  rce : Nat
  /-- Its place in the event order of R37: stamp and source number, then the source's own order. -/
  stamp : Nat
  src : Nat
  ord : Nat
  deriving DecidableEq, Repr

structure RceRt where
  /-- The request that runs. -/
  run : Option CodeReq
  cycles : Nat
  symbols : Nat
  escapes : Nat
  builds : Nat
  buildCycles : Nat
  checks : Nat
  fails : Nat
  lastReason : Nat
  restarts : Nat
  lastRoom : Nat
  jobErr : Nat
  deriving DecidableEq, Repr

def RceRt.reset : RceRt :=
  { run := none, cycles := 0, symbols := 0, escapes := 0, builds := 0, buildCycles := 0, checks := 0, fails := 0,
    lastReason := 0, restarts := 0, lastRoom := 0, jobErr := 0 }

/-- A layer of a task on an ELE, waiting or running (R255–R261). -/
structure Layer where
  eng : Nat
  /-- FEED island, and the task's slot there. -/
  isl : Nat
  slot : Nat
  task : Nat
  room : Nat
  /-- Layer record of the graph image, by number. -/
  idx : Nat
  /-- It is an output layer, fed by tied writes; otherwise an ingest layer, fed by tied reads. -/
  out : Bool
  /-- The instruction whose tied transfer asked for the layer. -/
  epc : Nat
  /-- Its place in the event order of R37: stamp and source number, then the source's own order. -/
  stamp : Nat
  src : Nat
  ord : Nat
  /-- Rows and columns of its input, once it runs. -/
  rows : Nat
  cols : Nat
  /-- Bytes of the chunk that a tied read has put into the raw buffer and the ELE has not read. -/
  landed : Nat
  /-- ELE state: as read at the start of the layer, then as the layer leaves it. -/
  state : Bytes
  /-- Input received so far: raw samples, or the tensor from the room. -/
  input : Bytes
  /-- Handshakes of the tensor that are still to come over the passage, and whether one that came carried poison. -/
  want : Nat
  tainted : Bool
  chunks : Nat
  /-- The layer has computed; output not yet sent into the room or not yet in the raw buffer; bytes of the chunk that stands in
  the raw buffer. -/
  computed : Bool
  output : Bytes
  filled : Nat
  deriving DecidableEq, Repr

structure EleRt where
  layer : Option Layer
  cycles : Nat
  inS : Nat
  outS : Nat
  clamps : Nat
  nans : Nat
  restarts : Nat
  lastRoom : Nat
  deriving DecidableEq, Repr

def EleRt.reset : EleRt :=
  { layer := none, cycles := 0, inS := 0, outS := 0, clamps := 0, nans := 0, restarts := 0, lastRoom := 0 }

structure Engines where
  rce : NMap RceRt
  ele : NMap EleRt
  /-- Job blocks on their way, jobs in hand, requests and layers that wait, each in event order. -/
  rceIn : List Submit
  jobs : List Job
  reqs : List CodeReq
  eleIn : List Layer
  ord : Nat
  deriving DecidableEq, Repr

/-! ### Hatal Link -/

/-- Port states (Table 16-4). -/
inductive PortSt where
  | down | training | probation | up | quarantined
  deriving DecidableEq, Repr

/-- What a data or control frame carries. -/
inductive Carry where
  /-- A transaction with its opcode, header and data. -/
  | txn (opc : Nat) (t : THdr) (data : Bytes)
  /-- A management message. -/
  | msg (t : THdr) (m : LMsg)
  deriving DecidableEq, Repr

/-- A frame that a port holds: waiting for credits, or sent and not acknowledged. -/
structure Held where
  seq : Nat
  vc : Nat
  nblk : Nat
  poison : Nat
  /-- Counter of R360 under which it was first sent. -/
  ctr : Nat
  replays : Nat
  /-- Destination chip ID. -/
  dst : Nat
  /-- Bytes it takes of the partner's rate bucket (R358, R359). -/
  cost : Nat
  /-- Task whose transaction it carries. -/
  task : Option Nat
  /-- Port and channel whose receive buffer its blocks still occupy: a transit frame. -/
  via : Option (Nat × Nat)
  what : Carry
  deriving DecidableEq, Repr

structure LPort where
  st : PortSt
  dcause : Nat
  qcause : Nat
  peer : Nat
  lanesUp : Nat
  epoch : Nat
  retrains : Nat
  fecCorr : Nat
  fecUncorr : Nat
  replays : Nat
  naks : Nat
  /-- Violations by kind (LINK_n_VIOL), and the GTCs of those within the last 1 ms. -/
  viol : List Nat
  violAt : List Nat
  /-- TAG violations in a row. -/
  tagRun : Nat
  /-- GTCs of entries to DOWN from PROBATION or UP within the last 1 s. -/
  downs : List Nat
  /-- Backoff before TRAINING, µs. -/
  backoff : Nat
  txSeq : Nat
  /-- Next SEQ expected. -/
  rxSeq : Nat
  txCtr : Nat
  retry : List Held
  wait : List Held
  credits : NMap Nat
  pool : NMap Nat
  excess : NMap Nat
  /-- Receive-buffer blocks in use, and credits not yet returned, by channel. -/
  rxUsed : NMap Nat
  rxOwed : NMap Nat
  stale : Nat
  dup : Nat
  expired : Nat
  /-- Lowest address refused under R357. -/
  lastAddr : Option Nat
  txBlocks : Nat
  rxBlocks : Nat
  /-- GTC at which the last heartbeat was sent, and at which the last arrived. -/
  hbSent : Nat
  hbSeen : Nat
  /-- Round trip measured from heartbeats, ns (R428). -/
  rtt : Nat
  /-- RATE of the partner, and this device's account of its bucket there (R359): bytes free and when. -/
  peerRate : Nat
  bucket : Nat
  bucketAt : Nat
  /-- Buckets of remote masters (R358): bytes free and when, by chip ID. -/
  buckets : NMap (Nat × Nat)
  deriving DecidableEq, Repr

def LPort.reset : LPort :=
  { st := .down, dcause := 0, qcause := 0, peer := 0, lanesUp := 0, epoch := 0, retrains := 0, fecCorr := 0,
    fecUncorr := 0, replays := 0, naks := 0, viol := [0, 0, 0, 0, 0, 0, 0], violAt := [], tagRun := 0, downs := [],
    backoff := 100, txSeq := 0, rxSeq := 0, txCtr := 0, retry := [], wait := [], credits := [], pool := [],
    excess := [], rxUsed := [], rxOwed := [], stale := 0, dup := 0, expired := 0, lastAddr := none, txBlocks := 0,
    rxBlocks := 0, hbSent := 0, hbSeen := 0, rtt := 0, peerRate := 0, bucket := 65536, bucketAt := 0, buckets := [] }

/-- A lease this device has granted, or holds (R356). -/
structure Lease where
  chip : Nat
  win : Nat
  /-- Lease-timer reading at which this side's lease ends. -/
  expiry : Nat
  /-- Port it runs through. -/
  port : Nat
  /-- LEASE_US of the window. -/
  us : Nat
  /-- Holder: tag, and lease-timer reading at the send, of each request or renewal not yet answered. -/
  sent : List (Nat × Nat)
  /-- Holder: the lease is granted. -/
  granted : Bool
  /-- Lease-timer reading at the last request to the window. -/
  used : Nat
  deriving DecidableEq, Repr

/-- A request to another device that waits for its response. -/
structure RemReq where
  tag : Nat
  chip : Nat
  opc : Nat
  addr : Nat
  len : Nat
  port : Nat
  isl : Nat
  slot : Nat
  task : Nat
  /-- DMA tag it belongs to, and the Shelf address of its part. -/
  dtag : Nat
  shelf : Nat
  win : Nat
  /-- It has left; otherwise it waits for its lease. -/
  sent : Bool
  write : Bool
  deriving DecidableEq, Repr

/-- What a destination keeps of a source's end-to-end numbers (R353). -/
structure E2e where
  high : Nat
  seen : List Nat
  deriving DecidableEq, Repr

structure Link where
  ports : NMap LPort
  granted : List Lease
  held : List Lease
  reqs : List RemReq
  nextTag : Nat
  txE2e : NMap Nat
  rxE2e : NMap E2e
  /-- Frames that have no route (R362, R370). -/
  stranded : List Held
  /-- Forward steps so far, ns: the lease timer is the GTC less these (R356). -/
  stepped : Nat
  deriving DecidableEq, Repr

/-! ### Cells and yards -/

/-- A member's port map (R367). -/
structure PMap where
  ver : Nat
  ports : List Nat
  deriving DecidableEq, Repr

/-- A span on its member room (R377–R380). -/
structure SpanRt where
  /-- 0 off, 1 checking, 2 READY, 3 MISMATCH. -/
  st : Nat
  mpos : Nat
  /-- Positions that have answered the check under way. -/
  answered : List Nat
  /-- Member: start messages that wait for slots, in the order of arrival, with the head's chip ID. -/
  waits : List (Nat × SpanStartMsg)
  deriving DecidableEq, Repr

def SpanRt.reset : SpanRt := { st := 0, mpos := 0, answered := [], waits := [] }

structure Cell where
  chip : Nat
  maps : NMap PMap
  ver : Nat
  applied : Nat
  /-- Leader, parent and parent port as last computed (R372). -/
  leader : Nat
  parent : Nat
  pport : Option Nat
  reach : Nat
  /-- Last values of θ, newest first, at most 8. -/
  thetas : List Int
  delay : Nat
  ptpLock : Bool
  ptpRun : Nat
  ptpLosses : Nat
  ptpOffs : Int
  /-- ALIGN of the leader as last reported. -/
  leaderLevel : Nat
  /-- GTC of a change of parent not yet followed by θ̂ within 20 ns. -/
  parentAt : Option Nat
  spans : NMap SpanRt
  deriving DecidableEq, Repr

/-! ### Silent errors, sweeps and retirement -/

/-- Health of a unit (Table 18-6). -/
inductive Health where
  | healthy | suspect | verifying | failed | retired
  deriving DecidableEq, Repr

/-- A T-island, RCE or ELE as RAS sees it, by source number. -/
structure UnitRt where
  health : Health
  /-- Causes of the last and of the first suspicion (Table 18-4); 0 before any. -/
  cause : Nat
  firstCause : Nat
  /-- Margin steps: voltage and clock. The clock steps are CLK_STEP of R19. -/
  vstep : Nat
  cstep : Nat
  suspicions : Nat
  /-- GTC at which it last became suspect. -/
  since : Nat
  fails : Nat
  /-- GTC of the last completed pass. -/
  lastPass : Nat
  /-- GTCs of verifications passed within the last 60 minutes (R401). -/
  passes : List Nat
  /-- Test number of the last failing step. -/
  lastFail : Nat
  deriving DecidableEq, Repr

def UnitRt.reset : UnitRt :=
  { health := .healthy, cause := 0, firstCause := 0, vstep := 0, cstep := 0, suspicions := 0, since := 0, fails := 0, lastPass := 0,
    passes := [], lastFail := 0 }

/-- An entry of the retirement record (R406). -/
structure Retire where
  a : Word
  b : Word
  deriving DecidableEq, Repr

/-- A room Audit (R396): the units still to test, those that failed with their step, and what was last posted. -/
structure RoomAudit where
  todo : List Nat
  failed : List (Nat × Nat)
  req : Nat
  result : Nat
  doneSeq : Nat
  deriving DecidableEq, Repr

def RoomAudit.reset : RoomAudit := { todo := [], failed := [], req := 0, result := 0, doneSeq := 0 }

structure Ras where
  units : NMap UnitRt
  /-- Unit in its Sweep slot, next step of its pass, whether a step is under way, whether its steps are forced. -/
  sweepUnit : Nat
  sweepStep : Nat
  sweepBusy : Bool
  sweepForced : Bool
  slotStart : Nat
  rounds : Nat
  steps : Nat
  yields : Nat
  misses : Nat
  forced : Nat
  /-- A coverage miss in this round; a miss not yet followed by a full round without one (R394). -/
  roundMiss : Bool
  missed : Bool
  /-- Audit test of R395. -/
  auditBusy : Bool
  auditUnit : Nat
  auditAt : Nat
  auditRes : Nat
  auditTest : Nat
  roomAudits : NMap RoomAudit
  /-- RAS_STATUS.STATE: 0 SERVICE, 1 DRAINING, 2 DRAINED. -/
  drain : Nat
  drainAt : Nat
  stopped : Nat
  /-- Failed units whose retirement entry is not yet written, with the GTC at which each failed. -/
  toRetire : List (Nat × Nat)
  record : List Retire
  /-- BOUND as last logged (R386). -/
  bound : Bool
  deriving DecidableEq, Repr

/-! ### Boot, power, firmware, fuses, attestation, sideband -/

/-- An owner-key slot of the fuse block (R61, R442). -/
structure KeySlot where
  provisioned : Bool
  revoked : Bool
  /-- SHA-384 of X followed by Y. -/
  hash : Nat
  deriving DecidableEq, Repr

/-- The patterns of the retirement LED: off, lit, blinking at 1 Hz, blinking at 4 Hz (R453). -/
inductive Led where
  | off | lit | slow | fast
  deriving DecidableEq, Repr

/-- Power states (Table 20-6), with off for a board without auxiliary power. -/
inductive Power where
  | off | d3cold | held | d0 | d3hot
  deriving DecidableEq, Repr

structure Plat where
  power : Power
  ready : Bool
  recovery : Bool
  lastTrip : Nat
  thermtrip : Bool
  degraded : Bool
  speed : Nat
  width : Nat
  stage : Nat
  fail : Nat
  image : Nat
  svnFw : Nat
  bootMs : Nat
  sensors : Sensors
  peakW : Nat
  k : Nat
  throttles : Nat
  /-- Fuses. -/
  svnFuse : Nat
  keys : List KeySlot
  nonce : Word
  fusePending : Option (Nat × Nat × Nat)
  fuseLast : Nat
  /-- Flash: images A and B, the one tried next, and the stored TOP_PCIE_CFG. -/
  imgs : List FwImage
  next : Nat
  pcieCfg : Word
  /-- The stored TOP_PCIE_CFG as the last cold or warm reset put it into force (R440). -/
  pcieNow : Word
  /-- Bus Master Enable of PF0, which configuration software sets and no command of the table writes (R65, R414). -/
  bme : Bool
  fwBusy : Bool
  fwRes : Nat
  /-- Units that are power-gated, by source number. -/
  gated : List Nat
  /-- SPDM: how far the connection has come, and the sessions that are established or in handshake. -/
  spdm : Nat
  sessions : NMap Nat
  /-- Link IDE stream: 0 off, 1 keys programmed, 2 secure. -/
  ide : Nat
  /-- JTAG: instruction register and boundary register. -/
  jtagIr : Nat
  jtagBr : Word
  deriving DecidableEq, Repr

/-! ### What leaves the device -/

/-- Something that leaves the device, oldest first. -/
inductive OutMsg where
  /-- A posted write to host memory of a function. -/
  | hostWrite (fn addr : Nat) (data : Bytes)
  /-- A read of host memory that the device has issued. -/
  | hostRead (fn addr len : Nat)
  /-- A frame sent on a port (TYPE, header fields, content). -/
  | frame (port : Nat) (typ : Nat) (h : LHdr) (what : Option Carry)
  /-- A heartbeat: epoch, chip ID, GTC, and GTC of the last heartbeat received. -/
  | heartbeat (port epoch chip gtc echo : Nat)
  | nak (port seq : Nat)
  /-- A message to the paired twin. -/
  | twinStart (queue no outcome : Nat)
  | twinCompare (queue no : Nat) (m : TwinMsg)
  | twinPair (c : TwinCheck)
  /-- SPDM responses: a code and what it states; signed says that a signature follows. -/
  | spdm (code : Nat) (fields : List Nat) (signed : Bool)
  /-- SMBus replies. -/
  | smbus (bytes : Bytes)
  | pldm (value : Int)
  /-- TDO after a JTAG instruction. -/
  | tdo (v : Word)
  deriving DecidableEq, Repr

structure Out where
  msgs : List OutMsg
  /-- What the last register read, and the last BAR4 read, returned. -/
  rd : Word
  rdBytes : Bytes
  /-- The last BAR4 read returned a completion with EP set (R335). -/
  rdEp : Bool
  deriving DecidableEq, Repr

/-! ### The machine -/

/-- The mesh: how many packets have come to the end of their way, by sender, receiver and class (R28). -/
structure Mesh where
  flows : NMap Nat
  deriving DecidableEq, Repr

/-- The whole machine. -/
structure State where
  /-- Commands that wait, first in, first out. -/
  pending : List Instr
  ident : Ident
  clk : Clk
  living : ConfigSet
  attic : ConfigSet
  txn : TxnUnit
  /-- Plain RW registers of BAR0 that differ from their reset values, by offset. -/
  regs : NMap Word
  /-- RW registers of the BAR2 pages that are not zero, by function and offset. -/
  bar2 : NMap (NMap Word)
  ten : TenUnit
  qm : QMgr
  isl : NMap Isl
  tasks : Tasks
  /-- Stream Passages by key: the handshakes sent and not yet taken, oldest first, each with its poison marker. -/
  streams : NMap (List (Bytes × Bool))
  mesh : Mesh
  eng : Engines
  repro : Repro
  cellar : Cellar
  pantry : NMap PWin
  ledg : Ledger
  inv : Inventory
  link : Link
  cell : Cell
  ras : Ras
  plat : Plat
  out : Out
  /-- Draws made so far from the free values of `Config.freeValue`: the model's own field. -/
  free : Nat
  deriving DecidableEq, Repr

/-! ### The machine after reset -/

def ClkIsl.reset : ClkIsl :=
  { lag := 0, offs := 0, err := 0, ceilEff := 0, retune := none, freq := 0 }

/-- The product that the model presents: HB16-M-L at A1 (DESIGN CHOICE, log entry 1). -/
def Ident.reset : Ident := { step := 1, grade := 1, board := 1, serial := 0 }

def CellarCtl.reset : CellarCtl :=
  { trained := false, rate2x := false, tempC := 0, rdLines := 0, wrLines := 0, collisions := 0, maxWait := 0,
    corrected := 0, uncorr := 0, poisonIn := 0, lastErr := 0 }

def PWin.reset : PWin := { entries := [], req := none, queued := none }

def sensorsReset : Sensors := { tjC := 0, hbm0C := 0, hbm1C := 0, inletC := 0, powerW := 0, cool := false }

def Hatch.reset : Hatch :=
  { st := .idle, result := 0, preempted := 0, late := false, queue := [], cur := 64, rooms := 0, t := 0, since := 0,
    forcing := false, blockIsl := 0, blockEng := 0, clearing := 0, clearIsl := 0, voted := false, heldRooms := [], heldTenants := [],
    rec_ := none, seen := [] }

def Loader.reset : Loader :=
  { busy := false, delta := false, result := 0, stage := 0, section_ := 0, offset := 0, cellar := false, addr := 0 }

def TxnUnit.reset : TxnUnit :=
  { chip := .reset, rooms := [], token := 0, commits := 0, discard := 0, discardOff := 0, loader := .reset, hatch := .reset,
    quiesce := false, qforce := false, quiesceAt := 0, resetPending := false, fuseHash := 0 }

def Clk.reset : Clk :=
  { gtc := 0, valid := false, refLost := false, align := 0, slewPpb := 0, steps := 0, resyncs := 0, isl := [],
    stamps := [], stepDue := none }

def TenUnit.reset : TenUnit :=
  { tenants := [], rooms := [], vfEnable := false, numVfs := 0, killed := 0, killBusy := false, killTids := [], islBusy := [] }

def QMgr.reset : QMgr :=
  { queues := [], rings := [], fns := [], hot := [], order := 0, accepts := 0, hits := 0, misses := 0, overflow := 0,
    torn := 0, refused := 0, viol := 0, staleDb := 0 }

def Engines.reset : Engines := { rce := [], ele := [], rceIn := [], jobs := [], reqs := [], eleIn := [], ord := 0 }

def Repro.reset : Repro :=
  { st := .off, pairResult := 0, peer := 0, primary := false, diverged := 0, soloEvents := 0, firstKind := 0,
    firstRoom := 0, firstOff := 0, gtcLocal := 0, gtcPeer := 0, compared := 0, unpaired := 0, pairAt := 0, starts := [], early := [],
    digests := 0, refetchBytes := 0 }

def Cellar.reset : Cellar := { store := .empty, ctl := [], passes := 0, scrubbed := 0 }

def Ledger.reset : Ledger :=
  { log2 := 16, mirror := false, head := 0, next := 0, mirrorNext := 0, cfgRefused := 0, badHead := 0, ringDrops := 0,
    stageDrops := 0, coalesced := 0, peak := 0, peakSrc := 0, stages := [], loss := none, viewSeq := [] }

def Inventory.reset : Inventory :=
  { busy := false, lateT := false, at_ := 0, checked := 0, windowed := 0, imbalanced := 0, books := [] }

def Link.reset : Link :=
  { ports := [], granted := [], held := [], reqs := [], nextTag := 0, txE2e := [], rxE2e := [], stranded := [],
    stepped := 0 }

def Cell.reset : Cell :=
  { chip := 0, maps := [], ver := 0, applied := 0, leader := 0, parent := 0, pport := none, reach := 0, thetas := [],
    delay := 0, ptpLock := false, ptpRun := 0, ptpLosses := 0, ptpOffs := 0, leaderLevel := 0, parentAt := none, spans := [] }

def Ras.reset : Ras :=
  { units := [], sweepUnit := 0x10, sweepStep := 0, sweepBusy := false, sweepForced := false, slotStart := 0, rounds := 0,
    steps := 0, yields := 0, misses := 0, forced := 0, roundMiss := false, missed := false, auditBusy := false,
    auditUnit := 0, auditAt := 0, auditRes := 0, auditTest := 0, roomAudits := [], drain := 0, drainAt := 0, stopped := 0,
    toRetire := [], record := [], bound := false }

/-- Fuse and flash contents are device state the manual does not list (DESIGN CHOICE, log entry 2). -/
def Plat.reset : Plat :=
  { power := .d0, ready := false, recovery := false, lastTrip := 0, thermtrip := false, degraded := false, speed := 0,
    width := 0, stage := 0, fail := 0, image := 0, svnFw := 0, bootMs := 0, sensors := sensorsReset, peakW := 0, k := 32,
    throttles := 0, svnFuse := 0,
    keys := [{ provisioned := true, revoked := false, hash := 0 }, { provisioned := false, revoked := false, hash := 0 },
      { provisioned := false, revoked := false, hash := 0 }, { provisioned := false, revoked := false, hash := 0 }],
    nonce := 0, fusePending := none, fuseLast := 0, imgs := [{ sigOk := true, svn := 0 }, { sigOk := true, svn := 0 }],
    next := 0, pcieCfg := 0x2400, pcieNow := 0x2400, bme := true, fwBusy := false, fwRes := 0, gated := [], spdm := 0, sessions := [], ide := 0,
    jtagIr := 1, jtagBr := 0 }

def Out.reset : Out := { msgs := [], rd := 0, rdBytes := [], rdEp := false }

/-- The machine right after a cold reset, before boot has made it READY (R432): every register at the reset value of
its table, no command waiting, memory zero. -/
def State.reset : State :=
  { pending := [], ident := .reset, clk := .reset, living := .empty, attic := .empty, txn := .reset, regs := [], bar2 := [],
    ten := .reset, qm := .reset, isl := [], tasks := { live := [], next := 0 }, streams := [], mesh := { flows := [] }, eng := .reset, repro := .reset,
    cellar := .reset, pantry := [], ledg := .reset, inv := .reset, link := .reset, cell := .reset, ras := .reset,
    plat := .reset, out := .reset, free := 0 }

/-! ### How a step can stop -/

/-- Reasons a step stops with a fault. No command of this model raises one: the block takes every command, and a
command whose condition does not hold leaves the state as it is (safe). -/
inductive Fault where
  /-- Raised by no command. It stands for an output the manual calls undefined under R11 (safe). -/
  | undefinedOutput
  deriving DecidableEq, Repr

/-- Reasons a step is refused. -/
inductive Refusal where
  /-- A command with no meaning yet: raised by its arm in `exec` only (safe). -/
  | notModelled (mnemonic : String)
  deriving DecidableEq, Repr

end Sys2Proof.Machine
end

