-- ==== Sys2Proof/Machine/Ops.lean ====
section
/-! DEFINITION. Operations that every family shares: one update per part of the state, the configuration in force,
the GTC view and event stamps, Ledger staging, what leaves the device, free values, and memory with poison. -/

namespace Sys2Proof.Machine

open Sys2Proof

/-! ### Parts of the state, each with its update -/

def State.modClk (f : Clk → Clk) (s : State) : State := { s with clk := f s.clk }
def State.setLiving (c : ConfigSet) (s : State) : State := { s with living := c }
def State.setAttic (c : ConfigSet) (s : State) : State := { s with attic := c }
def State.modTxn (f : TxnUnit → TxnUnit) (s : State) : State := { s with txn := f s.txn }
def State.setRegs (r : NMap Word) (s : State) : State := { s with regs := r }
def State.setBar2 (r : NMap (NMap Word)) (s : State) : State := { s with bar2 := r }
def State.modTenU (f : TenUnit → TenUnit) (s : State) : State := { s with ten := f s.ten }
def State.modQm (f : QMgr → QMgr) (s : State) : State := { s with qm := f s.qm }
def State.setIsls (m : NMap Isl) (s : State) : State := { s with isl := m }
def State.modTasks (f : Tasks → Tasks) (s : State) : State := { s with tasks := f s.tasks }
def State.modMesh (f : Mesh → Mesh) (s : State) : State := { s with mesh := f s.mesh }
def State.modEng (f : Engines → Engines) (s : State) : State := { s with eng := f s.eng }
def State.modRepro (f : Repro → Repro) (s : State) : State := { s with repro := f s.repro }
def State.modCellar (f : Cellar → Cellar) (s : State) : State := { s with cellar := f s.cellar }
def State.setPantry (m : NMap PWin) (s : State) : State := { s with pantry := m }
def State.modLedg (f : Ledger → Ledger) (s : State) : State := { s with ledg := f s.ledg }
def State.modInv (f : Inventory → Inventory) (s : State) : State := { s with inv := f s.inv }
def State.modLink (f : Link → Link) (s : State) : State := { s with link := f s.link }
def State.modCell (f : Cell → Cell) (s : State) : State := { s with cell := f s.cell }
def State.modRas (f : Ras → Ras) (s : State) : State := { s with ras := f s.ras }
def State.modPlat (f : Plat → Plat) (s : State) : State := { s with plat := f s.plat }
def State.modOut (f : Out → Out) (s : State) : State := { s with out := f s.out }

/-- One island, by number. -/
def State.island (s : State) (n : Nat) : Isl := NMap.getD s.isl n .reset
def State.modIsl (n : Nat) (f : Isl → Isl) (s : State) : State := s.setIsls (NMap.upd s.isl n .reset f)

/-- One task slot of an island. -/
def State.slot (s : State) (n k : Nat) : Slot := NMap.getD (s.island n).slots k .reset
def State.modSlot (n k : Nat) (f : Slot → Slot) (s : State) : State :=
  s.modIsl n (fun i => { i with slots := NMap.upd i.slots k .reset f })

def State.room (s : State) (m : Nat) : RoomRt := NMap.getD s.ten.rooms m .reset
def State.modRoom (m : Nat) (f : RoomRt → RoomRt) (s : State) : State :=
  s.modTenU (fun t => { t with rooms := NMap.upd t.rooms m .reset f })

def State.tenant (s : State) (t : Nat) : TenRt := NMap.getD s.ten.tenants t .reset
def State.modTen (t : Nat) (f : TenRt → TenRt) (s : State) : State :=
  s.modTenU (fun u => { u with tenants := NMap.upd u.tenants t .reset f })

def State.queue (s : State) (q : Nat) : Queue := NMap.getD s.qm.queues q .reset
def State.modQueue (q : Nat) (f : Queue → Queue) (s : State) : State :=
  s.modQm (fun m => { m with queues := NMap.upd m.queues q .reset f })

def State.ring (s : State) (r : Nat) : CRing := NMap.getD s.qm.rings r .reset
def State.modRing (r : Nat) (f : CRing → CRing) (s : State) : State :=
  s.modQm (fun m => { m with rings := NMap.upd m.rings r .reset f })

def State.fnq (s : State) (t : Nat) : FnQ := NMap.getD s.qm.fns t .reset
def State.modFnq (t : Nat) (f : FnQ → FnQ) (s : State) : State :=
  s.modQm (fun m => { m with fns := NMap.upd m.fns t .reset f })

def State.clkIsl (s : State) (src : Nat) : ClkIsl := NMap.getD s.clk.isl src .reset
def State.modClkIsl (src : Nat) (f : ClkIsl → ClkIsl) (s : State) : State :=
  s.modClk (fun c => { c with isl := NMap.upd c.isl src .reset f })

def State.task? (s : State) (t : Nat) : Option Task := NMap.find? s.tasks.live t
def State.modTask (t : Nat) (f : Task → Task) (s : State) : State :=
  s.modTasks (fun u => match NMap.find? u.live t with
    | some k => { u with live := NMap.set u.live t (f k) }
    | none => u)

def State.port (s : State) (p : Nat) : LPort := NMap.getD s.link.ports p .reset
def State.modPort (p : Nat) (f : LPort → LPort) (s : State) : State :=
  s.modLink (fun l => { l with ports := NMap.upd l.ports p .reset f })

def State.unit (s : State) (u : Nat) : UnitRt := NMap.getD s.ras.units u .reset
def State.modUnit (u : Nat) (f : UnitRt → UnitRt) (s : State) : State :=
  s.modRas (fun r => { r with units := NMap.upd r.units u .reset f })

def State.rceRt (s : State) (n : Nat) : RceRt := NMap.getD s.eng.rce n .reset
def State.modRce (n : Nat) (f : RceRt → RceRt) (s : State) : State :=
  s.modEng (fun e => { e with rce := NMap.upd e.rce n .reset f })

def State.eleRt (s : State) (n : Nat) : EleRt := NMap.getD s.eng.ele n .reset
def State.modEle (n : Nat) (f : EleRt → EleRt) (s : State) : State :=
  s.modEng (fun e => { e with ele := NMap.upd e.ele n .reset f })

def State.pwin (s : State) (w : Nat) : PWin := NMap.getD s.pantry w .reset
def State.modPwin (w : Nat) (f : PWin → PWin) (s : State) : State := s.setPantry (NMap.upd s.pantry w .reset f)

def State.spanRt (s : State) (m : Nat) : SpanRt := NMap.getD s.cell.spans m .reset
def State.modSpan (m : Nat) (f : SpanRt → SpanRt) (s : State) : State :=
  s.modCell (fun c => { c with spans := NMap.upd c.spans m .reset f })

def State.cctl (s : State) (n : Nat) : CellarCtl := NMap.getD s.cellar.ctl n .reset
def State.modCctl (n : Nat) (f : CellarCtl → CellarCtl) (s : State) : State :=
  s.modCellar (fun c => { c with ctl := NMap.upd c.ctl n .reset f })

/-- A plain RW register of BAR0, or the reset value `d`. -/
def State.reg (s : State) (off : Nat) (d : Word) : Word := NMap.getD s.regs off d
def State.setReg (off : Nat) (v : Word) (s : State) : State := s.setRegs (NMap.set s.regs off v)

/-- A register of a function's BAR2 page. -/
def State.b2 (s : State) (fn off : Nat) : Word := NMap.getD (NMap.getD s.bar2 fn []) off 0
def State.setB2 (fn off : Nat) (v : Word) (s : State) : State :=
  s.setBar2 (NMap.upd s.bar2 fn [] (fun m => NMap.set m off v))

/-! ### Who the device is, and the configuration in force -/

def State.b0 (s : State) : Bool := s.ident.step == 2

/-- The DCO sources: islands whose clock TOP_CLK_CFG_s sets (R38). -/
def isDco (src : Nat) : Bool :=
  (0x10 ≤ src && src ≤ 0x63) || (0x70 ≤ src && src ≤ 0x77) || (0x80 ≤ src && src ≤ 0x83)

/-- Default ceiling of an island (Table 2-1). -/
def ceilDefault (grade src : Nat) : Nat :=
  if src < 0x50 then (if grade = 2 then 1500 else 1800)
  else if src < 0x60 then 1200
  else if src < 0x64 then 1200
  else if src < 0x78 then 1400
  else 1150

/-- Whether a ceiling lies in the range and step of Table 2-1. -/
def ceilOk (grade src mhz : Nat) : Bool :=
  let (lo, hi) :=
    if src < 0x50 then (400, if grade = 2 then 1500 else 1800)
    else if src < 0x60 then (1200, 1200)
    else if src < 0x64 then (600, 1500)
    else if src < 0x78 then (1000, 1400)
    else (900, 1150)
  lo ≤ mhz && mhz ≤ hi && (mhz % 25 == 0)

/-- Value of an RWT register that no image or transaction has set (Tables of its chapter; R21 for PHASE; the flash for
TOP_PCIE_CFG, R440). -/
def State.rwtReset (s : State) (off : Nat) : Word :=
  if 0x1000 ≤ off && off < 0x2000 then
    let src := (off - 0x1000) / 16
    if isDco src && off % 16 == 0 then packW [(0, 12, ceilDefault s.ident.grade src), (16, 10, 397 * src % 1024)] else 0
  else if off = 0x300 then s.plat.pcieCfg
  else if off = 0x40000 then 0x0000000A000A03E8
  else if off = 0xC0000 then 0x0064019032000FA0
  else if 0x100000 ≤ off && off < 0x180000 && off % 0x10000 == 0x10 then 0x041003E8
  else if 0x400000 ≤ off && off < 0x800000 && off % 0x10000 == 0x150 then 6
  else 0

/-- An RWT register of a configuration set. -/
def State.rwtOf (s : State) (c : ConfigSet) (off : Nat) : Word := NMap.getD c.rwt off (s.rwtReset off)

/-- The Living value of an RWT register: what it does and what a read returns. -/
def State.rwt (s : State) (off : Nat) : Word := s.rwtOf s.living off

def offClkCfg (src : Nat) : Nat := 0x1000 + src * 0x10
def offCellCfg : Nat := 0x208
def offPcieCfg : Nat := 0x300
def offFuseCtrl : Nat := 0x400
def offFuseAuth : Nat := 0x408
def offQmgrCfg : Nat := 0x40000
def offReproCfg : Nat := 0xC0000
def offTwinCfg : Nat := 0xC0100
def offLinkCfg (p : Nat) : Nat := 0x100010 + p * 0x10000
def offYrt (k : Nat) : Nat := 0x180000 + 8 * k
def offSpanCfg (m : Nat) : Nat := 0x1A0000 + m * 0x100
def offSpanDev (m k : Nat) : Nat := 0x1A0008 + m * 0x100 + 8 * k
def offStewCfg (n : Nat) : Nat := 0x400150 + n * 0x10000
def offRoomAudit (m : Nat) : Nat := 0xA2000 + 8 * m

def State.roomCfg? (s : State) (m : Nat) : Option RoomCfg := NMap.find? s.living.rooms m

/-- The T-islands of a room, ascending. -/
def RoomCfg.isls (r : RoomCfg) : List Nat := bitsOf 64 r.islands
def RoomCfg.rceList (r : RoomCfg) : List Nat := bitsOf 16 r.rces
def RoomCfg.eleList (r : RoomCfg) : List Nat := bitsOf 4 r.eles

def State.roomIsls (s : State) (m : Nat) : List Nat := match s.roomCfg? m with | some r => r.isls | none => []

/-- The room that holds a T-island in the Living set. -/
def State.roomOf (s : State) (n : Nat) : Option Nat :=
  (s.living.rooms.find? (fun e => e.2.islands.getLsbD n)).map (·.1)

/-- Level T (R286). -/
def State.levelT (s : State) (m : Nat) : Bool := match s.roomCfg? m with | some r => r.level == 2 | none => false

def State.roomTenant (s : State) (m : Nat) : Nat := match s.roomCfg? m with | some r => r.tenant | none => 0

/-- Numeric configuration of a room; the defaults of R46 where it names none. -/
def NumericCfg.default : NumericCfg :=
  { family := 0, mode := 0, sfu := 0, ftab := 1, outconv := 0, padc := 0, rcv := 1, traps := 0, expectPw := 0 }

def State.numeric (s : State) (m : Nat) : NumericCfg :=
  match s.roomCfg? m with
  | some r => NMap.getD s.living.numerics r.numericKey .default
  | none => .default

/-! ### Time and stamps -/

/-- The low 16 bits of a count as the tree carries them: in Gray code (R33). -/
def gray16 (x : BitVec 16) : BitVec 16 := x ^^^ (x >>> 1)

/-- One round of the Gray decoding of R33. -/
def grayRound (k : Nat) (x : BitVec 16) : BitVec 16 := x ^^^ (x >>> k)

/-- Gray to binary, as R33 spells it: rounds with s = 1, 2, 4 and 8. -/
def ungray16 (g : BitVec 16) : BitVec 16 := grayRound 8 (grayRound 4 (grayRound 2 (grayRound 1 g)))

/-- What a time cell keeps between two edges of its clock (R33). -/
structure TimeCell where
  upper : Nat
  lastB : Nat
  deriving DecidableEq, Repr

/-- A time cell at a clock edge that samples `g` from the tree (R33). -/
def TimeCell.edge (c : TimeCell) (g : BitVec 16) : TimeCell :=
  let b := (ungray16 g).toNat
  { upper := if b < c.lastB ∧ 0x8000 < c.lastB - b then c.upper + 1 else c.upper, lastB := b }

/-- The view that a time cell forms with GTC_OFFS (R33). -/
def TimeCell.view (c : TimeCell) (offs : Nat) : Nat := (c.upper * 2 ^ 16 + c.lastB + offs) % 2 ^ 64

/-- The count that an island's time cell has formed from the tree. -/
def State.cellCount (s : State) (isl : Nat) : Nat := (((s.clk.gtc : Int) + (s.clkIsl isl).lag) % (2 ^ 64 : Int)).toNat

/-- The time cell of an island as its previous clock edge, one nanosecond ago, left it. -/
def State.cellBefore (s : State) (isl : Nat) : TimeCell :=
  let x := (s.cellCount isl + (2 ^ 64 - 1)) % 2 ^ 64
  { upper := x / 2 ^ 16, lastB := x % 2 ^ 16 }

/-- The GTC view of a source (R33, R36), formed by its time cell at this nanosecond's edge: 0 until the GTC is valid.
Units without an island of their own, and injected events, use the PCIe island's. -/
def State.view (s : State) (src : Nat) : Nat :=
  if s.clk.valid then
    let isl := if isDco src || src == 0 then src else 0x90
    ((s.cellBefore isl).edge (gray16 (BitVec.ofNat 16 (s.cellCount isl)))).view (s.clkIsl isl).offs
  else 0

/-- The stamp of a source's next event (R36). -/
def State.stamp (s : State) (src : Nat) : Nat :=
  match NMap.find? s.clk.stamps src with
  | some p => max (s.view src) (p + 1)
  | none => s.view src

/-! ### The Ledger's staging (R420) -/

/-- How a source's staging takes an event: the new staging, or none when the event is lost. -/
def Stage.take (g : Stage) (e : Event) (now : Nat) : Option Stage :=
  match g.coal.findIdx? (fun c => c.cls == e.cls && c.code == e.code && c.tenant == e.tenant) with
  | some i =>
    match g.coal[i]? with
    | some c => some { g with coal := setAt g.coal i { c with last := e.gtc, count := c.count + 1 } }
    | none => some g
  | none =>
    if g.buf.length < 32 then some { g with buf := g.buf ++ [e] }
    else if g.coal.length < 4 then
      some { g with coal := g.coal ++
        [{ cls := e.cls, code := e.code, tenant := e.tenant, sev := e.sev, first := e.gtc, last := e.gtc, count := 1,
           word0 := leAt e.payload 0 8, opened := now }] }
    else none

/-- A loss added to those not yet reported (R422). -/
def Loss.add (l : Option Loss) (first last ring stage sev classes : Nat) : Option Loss :=
  match l with
  | none => some { first := first, last := last, ring := ring, stage := stage, sev := sev, classes := classes }
  | some l => some { first := l.first, last := last, ring := l.ring + ring, stage := l.stage + stage,
                     sev := max l.sev sev, classes := l.classes ||| classes }

/-- An event handed to its source's staging. -/
def State.stageEvent (e : Event) (s : State) : State :=
  let g := NMap.getD s.ledg.stages e.src { buf := [], coal := [] }
  match g.take e s.clk.gtc with
  | some g' =>
    s.modLedg (fun l =>
      let hi := if l.peak < g'.buf.length then true else false
      { l with stages := NMap.set l.stages e.src g', peak := if hi then g'.buf.length else l.peak,
               peakSrc := if hi then e.src else l.peakSrc })
  | none =>
    s.modLedg (fun l => { l with stageDrops := wrap1 16 l.stageDrops,
                                 loss := Loss.add l.loss e.gtc e.gtc 0 1 e.sev (2 ^ e.cls) })

/-- Raise an event: stamp it, and hand it to the Ledger. The payload is the words named, in order (R412). -/
def State.emit (src cls code ten sev : Nat) (words : List Nat) (s : State) : State :=
  let t := s.stamp src
  (s.modClk (fun c => { c with stamps := NMap.set c.stamps src t })).stageEvent
    { gtc := t, src := src, cls := cls, code := code, tenant := ten, sev := sev,
      payload := fit 42 (words.flatMap (le 8)) }

/-- Event order of R37: the stamp, then the lower source number, then the source's own order. -/
def evBefore (a b : Nat × Nat × Nat) : Bool :=
  decide (a.1 < b.1) || (a.1 == b.1 && (decide (a.2.1 < b.2.1) || (a.2.1 == b.2.1 && decide (a.2.2 < b.2.2))))

/-- The tenant of an event that concerns no single tenant (R409). -/
def noTenant : Nat := 0x7F

/-! ### What leaves the device; free values -/

def State.send (m : OutMsg) (s : State) : State := s.modOut (fun o => { o with msgs := o.msgs ++ [m] })

/-- The GTC stands at least at an instant that a command says has come. -/
def State.reach (g : Nat) (s : State) : State :=
  if s.clk.valid then s.modClk (fun c => { c with gtc := max c.gtc g }) else s

/-- A posted write to a function's host memory. -/
def State.hostWrite (fn addr : Nat) (data : Bytes) (s : State) : State := s.send (.hostWrite fn addr data)

/-- The next free value, and the state that has drawn it. -/
def State.draw (s : State) : Word × State := (Config.freeValue s.free, { s with free := s.free + 1 })

/-! ### Memory (R333–R336)

A store is a list of the bytes that are not zero, by ascending address, with the poisoned units by ascending address. -/

abbrev Mem := List Host.Cell

/-- A byte; one that no entry lists is zero. -/
def Mem.byte (m : Mem) (a : Nat) : Byte := NMap.getD m a 0

/-- One byte written; a byte that becomes zero leaves the list. -/
def Mem.put (m : Mem) (a : Nat) (v : Byte) : Mem := if v = 0 then NMap.del m a else NMap.set m a v

/-- Canonical form: addresses strictly rising and no byte zero. -/
def Mem.wf : Mem → Bool
  | [] => true
  | [(_, v)] => v != 0
  | (a, v) :: (b, w) :: r => v != 0 && decide (a < b) && Mem.wf ((b, w) :: r)

def Mem.read (m : Mem) (a : Nat) : Nat → Bytes
  | 0 => []
  | n + 1 => Mem.byte m a :: Mem.read m (a + 1) n

def Mem.write (m : Mem) (a : Nat) : Bytes → Mem
  | [] => m
  | b :: r => Mem.write (Mem.put m a b) (a + 1) r

/-- Every listed byte of a range removed. -/
def Mem.clear (m : Mem) (a len : Nat) : Mem := m.filter (fun c => c.1 < a || a + len ≤ c.1)

def Store.read (st : Store) (a len : Nat) : Bytes := Mem.read st.mem a len

/-- The first poisoned unit of `n` bytes that a range touches. -/
def Store.poisonIn (st : Store) (n a len : Nat) : Option Nat :=
  if len = 0 then none else st.poison.find? (fun u => decide (a < u + n) && decide (u < a + len))

/-- Units of `n` bytes that lie wholly in a range. -/
def inWhole (n a len u : Nat) : Bool := decide (a ≤ u) && decide (u + n ≤ a + len)

/-- Clean data written: units rewritten whole become clean (R336). -/
def Store.write (n : Nat) (st : Store) (a : Nat) (d : Bytes) : Store :=
  { mem := Mem.write st.mem a d, poison := st.poison.filter (fun u => !inWhole n a d.length u) }

/-- Units marked poisoned. -/
def Store.mark (st : Store) (us : List Nat) : Store := { st with poison := insAll us st.poison }

/-- Data that carry poison land: `bad` gives the poisoned parts as offset and length; every unit they touch becomes
poisoned, every other unit rewritten whole becomes clean (R334, R336). -/
def Store.land (n : Nat) (st : Store) (a : Nat) (d : Bytes) (bad : List (Nat × Nat)) : Store :=
  (st.write n a d).mark (bad.flatMap (fun b => unitsOf n (a + b.1) (min b.2 (d.length - b.1))))

/-- The poisoned parts of a range, as offset and length within it, for a copy that carries poison. -/
def Store.badIn (st : Store) (n a len : Nat) : List (Nat × Nat) :=
  (st.poison.filter (fun u => decide (a < u + n) && decide (u < a + len))).map
    (fun u => (u - a, min (u + n) (a + len) - max u a))

/-- A range zeroed, poison and all. -/
def Store.wipe (n : Nat) (st : Store) (a len : Nat) : Store :=
  { mem := Mem.clear st.mem a len, poison := st.poison.filter (fun u => !inWhole n a len u) }

/-- Bytes per poison unit of a Cellar line and of a Shelf or crate word (Table 15-11). -/
def lineB : Nat := 64
def wordB : Nat := 8

def State.modShelf (n : Nat) (f : Store → Store) (s : State) : State :=
  s.modIsl n (fun i => { i with shelf := f i.shelf })

def State.modStore (f : Store → Store) (s : State) : State := s.modCellar (fun c => { c with store := f c.store })

/-- A Cellar write, counted by controller (R313, R338). -/
def State.countLines (wr : Bool) (a len : Nat) (s : State) : State :=
  (unitsOf 64 a len).foldl (fun s u => s.modCctl (u / 256 % 4) (fun c =>
    if wr then { c with wrLines := wrap1 32 c.wrLines } else { c with rdLines := wrap1 32 c.rdLines })) s

def State.cellarWrite (a : Nat) (d : Bytes) (s : State) : State :=
  (s.modStore (fun st => st.write lineB a d)).countLines true a d.length

def State.cellarLand (a : Nat) (d : Bytes) (bad : List (Nat × Nat)) (s : State) : State :=
  let s := (s.modStore (fun st => st.land lineB a d bad)).countLines true a d.length
  (bad.flatMap (fun b => unitsOf lineB (a + b.1) b.2)).foldl
    (fun s u => s.modCctl (u / 256 % 4) (fun c => { c with poisonIn := sat1 16 c.poisonIn })) s

def State.cellarRead (s : State) (a len : Nat) : Bytes := s.cellar.store.read a len

/-- Base of the device region and of its parts (Table 15-2). -/
def devBase : Nat := 0xBC0000000
def ctxBase : Nat := devBase
def ringBase (q : Nat) : Nat := devBase + 0x800000 + q * 2048
def ledgBase : Nat := devBase + 0x10800000

/-! ### The answer of a command -/

/-- Every command of the block goes on: its effect is the next state. -/
abbrev Answer := Host.Outcome State Fault Refusal

/-- A condition that the command's event needs: where it does not hold, the event does not happen. -/
def State.guard (s : State) (p : Bool) (f : State → State) : State := if p then f s else s

end Sys2Proof.Machine
end

