-- ==== Sys2Proof/Machine/Ledger.lean ====
section
/-! DEFINITION. The Ledger (R409–R423): the record and its seal, the ring, the mirror, tenant views, coalescing,
injection, and the LEDG registers. -/

namespace Sys2Proof.Machine

open Sys2Proof

/-! ### The record -/

/-- The 64 bytes of a record (Table 19-1, R410). -/
def recordBytes (gtc src cls code seq ten sev : Nat) (payload : Bytes) : Bytes :=
  let b := le 8 gtc ++ le 2 (src % 4096 + cls % 16 * 4096) ++ le 2 code ++ le 4 seq
    ++ le 2 (ten % 128 + sev % 8 * 256) ++ fit 42 payload
  b ++ le 4 (crc32c b)

/-- The ring is full (R413). -/
def Ledger.used (l : Ledger) : Nat := (l.next + 2 ^ 32 - l.head) % 2 ^ 32
def Ledger.full (l : Ledger) : Bool := l.used == 2 ^ l.log2

/-- Address of a record's ring slot (R411, R413). -/
def Ledger.slotAddr (l : Ledger) (seq : Nat) : Nat := ledgBase + seq % 2 ^ l.log2 * 64

def offViewAddr (t : Nat) : Nat := 0x81000 + t * 0x10
def offViewCtrl (t : Nat) : Nat := 0x81008 + t * 0x10

/-- Size exponent of a view: 6–12, other values taken as 6 (Table 19-6). -/
def viewLog2 (c : Word) : Nat := let v := fld c 0 4; if 6 ≤ v && v ≤ 12 then v else 6

/-- Whether view `t` receives a record (R417). -/
def viewTakes (t ten cls : Nat) : Bool := ten == t || (ten == noTenant && (cls == 0 || cls == 7 || cls == 8))

/-- The copy of a record for one tenant's view (R417). -/
def State.writeView (e : Event) (s : State) (t : Nat) : State :=
  let c := s.reg (offViewCtrl t) 6
  if bitOf c 8 && viewTakes t e.tenant e.cls then
    let v := NMap.getD s.ledg.viewSeq t 0
    let base := (s.reg (offViewAddr t) 0).toNat / 4096 * 4096
    let s := s.hostWrite t (base + v % 2 ^ viewLog2 c * 64)
      (recordBytes e.gtc e.src e.cls e.code (v % 2 ^ 32) e.tenant e.sev e.payload)
    s.modLedg (fun l => { l with viewSeq := NMap.set l.viewSeq t ((v + 1) % 2 ^ 32) })
  else s

/-- One record written: to its ring slot in the Cellar and to the views (R411, R417). -/
def State.writeRecord (e : Event) (s : State) : State :=
  let seq := s.ledg.next
  let s := s.modStore (fun st => st.write lineB (s.ledg.slotAddr seq)
    (recordBytes e.gtc e.src e.cls e.code seq e.tenant e.sev e.payload))
  let s := s.modLedg (fun l =>
    { l with next := wrap1 32 l.next
             coalesced := if e.cls == 0 && e.code == 2 then wrap1 16 l.coalesced else l.coalesced })
  (List.range 64).foldl (State.writeView e) s

/-- Payload of a LOSS record (Table 19-3). -/
def Loss.payload (l : Loss) : Bytes :=
  le 8 l.first ++ le 8 l.last ++ le 4 l.ring ++ le 4 l.stage ++ le 1 l.sev ++ le 1 0 ++ le 2 l.classes

/-- Payload of a COALESCED record (Table 19-3). -/
def Coal.payload (c : Coal) : Bytes :=
  le 8 c.first ++ le 8 c.last ++ le 4 c.count ++ le 1 (c.cls % 16) ++ le 1 0 ++ le 2 c.code ++ le 8 c.word0

/-- The first staged event in the R37 order, with its source. -/
def Ledger.headEvent (l : Ledger) : Option Event :=
  firstBy (fun a b : Event => decide (a.gtc < b.gtc) || (a.gtc == b.gtc && decide (a.src < b.src)))
    (l.stages.filterMap (fun g => g.2.buf.head?))

/-- What an event that is discarded in a full ring adds to the losses: a COALESCED event counts as those it stands for
(R421). -/
def lossOf (e : Event) : Nat × Nat × Nat × Nat :=
  if e.cls == 0 && e.code == 2 then
    (leAt e.payload 16 4, leAt e.payload 20 1 % 16, leAt e.payload 0 8, leAt e.payload 8 8)
  else (1, e.cls, e.gtc, e.gtc)

/-- LEDGER_SEAL: a LOSS record first where one is due and a slot is free (R422); else the next staged event, sealed or,
while the ring is full, discarded (R421). -/
def State.seal (s : State) : State :=
  match s.ledg.loss, s.ledg.full with
  | some l, false =>
    let t := s.stamp 0
    ((s.modClk (fun c => { c with stamps := NMap.set c.stamps 0 t })).writeRecord
      { gtc := t, src := 0, cls := 0, code := 1, tenant := noTenant, sev := 3, payload := l.payload }).modLedg
        (fun g => { g with loss := none })
  | _, full =>
    match s.ledg.headEvent with
    | none => s
    | some e =>
      let s := s.modLedg (fun l =>
        { l with stages := NMap.upd l.stages e.src { buf := [], coal := [] } (fun g => { g with buf := g.buf.drop 1 }) })
      if full then
        let (n, cls, first, last) := lossOf e
        s.modLedg (fun l =>
          { l with ringDrops := (l.ringDrops + n) % 2 ^ 32, loss := Loss.add l.loss first last n 0 e.sev (2 ^ cls) })
      else s.writeRecord e

/-- A coalescing counter that is due and finds a free entry closes into one COALESCED event (R420). -/
def State.closeCoal (src cls code ten : Nat) (s : State) : State :=
  let g := NMap.getD s.ledg.stages src { buf := [], coal := [] }
  match g.coal.find? (fun c => c.cls == cls && c.code == code && c.tenant == ten) with
  | none => s
  | some c =>
    if (decide (g.buf.length ≤ 16) || decide (c.opened + 1000000 ≤ s.clk.gtc)) && decide (g.buf.length < 32) then
      let t := s.stamp src
      let e : Event := { gtc := t, src := src, cls := 0, code := 2, tenant := ten, sev := c.sev, payload := fit 42 c.payload }
      (s.modClk (fun k => { k with stamps := NMap.set k.stamps src t })).modLedg (fun l =>
        { l with stages := NMap.set l.stages src
                   { buf := g.buf ++ [e], coal := g.coal.filter (fun d => !(d.cls == cls && d.code == code && d.tenant == ten)) },
                 peak := max l.peak (g.buf.length + 1),
                 peakSrc := if l.peak < g.buf.length + 1 then src else l.peakSrc })
    else s

/-- With bus mastering enabled, the mirror copies the next record (R414); a poisoned line goes out as POISONED_RECORD (R415). -/
def State.mirrorNext (s : State) : State :=
  let l := s.ledg
  if l.mirror && s.plat.bme && l.mirrorNext != l.next then
    let a := l.slotAddr l.mirrorNext
    let d := match s.cellar.store.poisonIn lineB a 64 with
      | some _ => recordBytes 0 0 0 3 l.mirrorNext noTenant 3 []
      | none => s.cellar.store.read a 64
    let base := (s.reg 0x80008 0).toNat / 4096 * 4096
    (s.hostWrite 0 (base + l.mirrorNext % 2 ^ l.log2 * 64) d).modLedg
      (fun l => { l with mirrorNext := wrap1 32 l.mirrorNext })
  else s

/-- LEDG_HOST_HEAD (R416). -/
def State.hostHead (v : Word) (s : State) : State :=
  s.modLedg (fun l =>
    let h := fld v 0 32
    if (h + 2 ^ 32 - l.head) % 2 ^ 32 ≤ l.used then { l with head := h } else { l with badHead := sat1 4 l.badHead })

/-- LEDG_CFG (R413, R414): a write that changes LOG2 takes effect only within 12–20, with the mirror off and the ring
empty; the MIRROR bit always does, and a rising MIRROR starts from HEAD. -/
def State.ledgCfg (v : Word) (s : State) : State :=
  s.modLedg (fun l =>
    let lg := fld v 0 5
    let ok := 12 ≤ lg && lg ≤ 20 && !l.mirror && l.next == l.head
    let l1 := if lg = l.log2 then l else if ok then { l with log2 := lg } else { l with cfgRefused := sat1 4 l.cfgRefused }
    { l1 with mirror := bitOf v 8, mirrorNext := if bitOf v 8 && !l.mirror then l.head else l.mirrorNext })

/-- LEDG_INJECT with GO (R418): the record carries the tenant's own source number and the PCIe island's view. -/
def State.inject (v : Word) (s : State) : State :=
  if bitOf v 32 then
    let t := fld v 16 6
    s.emit (0x100 + t) 12 (fld v 0 16) t (min (fld v 24 3) 4) [(s.reg 0x80038 0).toNat]
  else s

/-- LEDG_VIEW_t_CTRL: the record count starts again when ENABLE goes to 1 (R417). -/
def State.viewCtrl (t : Nat) (v : Word) (s : State) : State :=
  let old := s.reg (offViewCtrl t) 6
  let s := s.setReg (offViewCtrl t) (v &&& maskW [(0, 4), (8, 1)])
  if bitOf v 8 && !bitOf old 8 then s.modLedg (fun l => { l with viewSeq := NMap.set l.viewSeq t 0 }) else s

/-! ### Registers (Table 19-6) -/

def State.readLedg (s : State) (off : Nat) : Word :=
  let l := s.ledg
  if off = 0x0 then packW [(0, 5, l.log2), (8, 1, b2n l.mirror)]
  else if off = 0x8 then s.reg 0x80008 0
  else if off = 0x10 then packW [(0, 32, l.head)]
  else if off = 0x18 then packW [(0, 32, l.next), (32, 21, l.used), (53, 1, b2n l.full), (54, 4, l.cfgRefused), (58, 4, l.badHead)]
  else if off = 0x20 then packW [(0, 32, l.mirrorNext)]
  else if off = 0x28 then packW [(0, 32, l.ringDrops), (32, 16, l.stageDrops), (48, 16, l.coalesced)]
  else if off = 0x30 then packW [(0, 6, l.peak), (16, 12, l.peakSrc)]
  else if off = 0x38 then s.reg 0x80038 0
  else if off = 0x100 then packW [(1, 1, b2n s.inv.busy), (2, 1, b2n s.inv.lateT)]
  else if off = 0x108 then s.reg 0x80108 0
  else if off = 0x110 then packW [(0, 24, s.inv.checked), (24, 20, s.inv.windowed), (44, 20, s.inv.imbalanced)]
  else if off = 0x118 then s.reg 0x80118 0
  else if 0x1000 ≤ off && off < 0x1400 then
    let t := (off - 0x1000) / 16
    if off % 16 = 0 then s.reg (offViewAddr t) 0
    else if off % 16 = 8 then s.reg (offViewCtrl t) 6 ||| packW [(32, 32, NMap.getD s.ledg.viewSeq t 0)]
    else 0
  else 0

/-- What a read of LEDG_STAGE clears (RC). -/
def State.clearStagePeak (s : State) : State := s.modLedg (fun l => { l with peak := 0, peakSrc := 0 })

/-! ### Commands -/

def execLedgerEvent (src cls code ten sev : Nat) (payload : Bytes) (s : State) : Answer :=
  let t := s.stamp src
  .next ((s.modClk (fun c => { c with stamps := NMap.set c.stamps src t })).stageEvent
    { gtc := t, src := src, cls := cls, code := code, tenant := ten, sev := sev, payload := fit 42 payload })
def execLedgerSeal (s : State) : Answer := .next s.seal
def execCoalesceClose (src cls code ten : Nat) (s : State) : Answer := .next (s.closeCoal src cls code ten)
def execMirrorCopy (s : State) : Answer := .next s.mirrorNext
def execHostHeadWrite (v : Word) (s : State) : Answer := .next (s.hostHead v)
def execLedgCfgWrite (v : Word) (s : State) : Answer := .next (s.ledgCfg v)
def execInject (v : Word) (s : State) : Answer := .next (s.inject v)

end Sys2Proof.Machine
end

