-- ==== Sys2Proof/Machine/Queue.lean ====
section
/-! DEFINITION. Session queues, completion rings, records and the poll page (R109–R132). -/

namespace Sys2Proof.Machine

open Sys2Proof

/-! ### The descriptor (Table 6-2) -/

def dOp (d : Bytes) : Nat := leAt d 0 1
def dFlags (d : Bytes) : Nat := leAt d 1 1
def dDropLate (d : Bytes) : Bool := nbit (dFlags d) 0
def dDigest (d : Bytes) : Bool := nbit (dFlags d) 2
/-- EXT, which DIGEST implies. -/
def dExt (d : Bytes) : Bool := nbit (dFlags d) 1 || dDigest d
def dNoState (d : Bytes) : Bool := nbit (dFlags d) 3
def dGraph (d : Bytes) : Nat := leAt d 2 2
def dSession (d : Bytes) : Nat := leAt d 4 4
def dDeadline (d : Bytes) : Nat := leAt d 8 8
def dInAddr (d : Bytes) : Nat := leAt d 0x10 8
def dInLen (d : Bytes) : Nat := leAt d 0x18 4
def dOutCap (d : Bytes) : Nat := leAt d 0x1C 4
def dOutAddr (d : Bytes) : Nat := leAt d 0x20 8
def dState (d : Bytes) : Nat := leAt d 0x28 8
def dTag (d : Bytes) : Bytes := slice d 0x30 8
def dQueue (d : Bytes) : Nat := leAt d 0x38 4 % 2 ^ 17

/-- Whether a descriptor uses a state block (R113 rule 2). -/
def dUsesState (d : Bytes) : Bool := (dOp d == 1 || dOp d == 3) && !dNoState d

/-- The checks of R115 in offset order: none, or DETAIL of the first failure (Table 6-9). -/
def descCheck (ring64 : Bool) (d : Bytes) : Option Nat :=
  let f := dFlags d
  let big := 64 * 1024 * 1024
  if !(dOp d == 1 || dOp d == 2 || dOp d == 3) then some (0x200 + 0x00)
  else if f / 16 != 0 then some (0x100 + 0x01)
  else if dExt d && !ring64 then some (0x200 + 0x01)
  else if dInLen d != 0 && dInAddr d == 0 then some (0x200 + 0x10)
  else if big < dInLen d then some (0x200 + 0x18)
  else if big < dOutCap d then some (0x200 + 0x1C)
  else if dOutCap d != 0 && dOutAddr d == 0 then some (0x200 + 0x20)
  else if dState d % 64 != 0 then some (0x200 + 0x28)
  else if (dState d == 0) != (dNoState d || dOp d == 2) then some (0x200 + 0x28)
  else if leAt d 0x38 4 / 2 ^ 17 != 0 then some (0x100 + 0x38)
  else if leAt d 0x3C 4 != 0 then some (0x100 + 0x3C)
  else none

/-! ### Who owns what -/

def State.tenantCfg? (s : State) (t : Nat) : Option TenantCfg := NMap.find? s.living.tenants t

/-- ENABLED of TFLAGS: only an enabled tenant holds its ranges, and the ranges of a disabled one may overlap them (R53). -/
def TenantCfg.enabled (c : TenantCfg) : Bool := nbit c.flags 0
def TenantCfg.hasQueue (c : TenantCfg) (q : Nat) : Bool := c.enabled && c.qbase ≤ q && q < c.qbase + c.qcount
def TenantCfg.hasRing (c : TenantCfg) (r : Nat) : Bool := c.enabled && c.crbase ≤ r && r < c.crbase + c.crcount

def State.ownsQueue (s : State) (t q : Nat) : Bool :=
  match s.tenantCfg? t with | some c => c.hasQueue q | none => false

def State.queueOwner (s : State) (q : Nat) : Option Nat :=
  (s.living.tenants.find? (fun e => e.2.hasQueue q)).map (·.1)

def State.ringOwner (s : State) (r : Nat) : Option Nat :=
  (s.living.tenants.find? (fun e => e.2.hasRing r)).map (·.1)

/-- A ring of a tenant by its index in BAR2 (R109). -/
def State.ringOf (s : State) (t i : Nat) : Option Nat :=
  match s.tenantCfg? t with
  | some c => if i < c.crcount then some (c.crbase + i) else none
  | none => none

def State.qmapOf (s : State) (q : Nat) : Option QMapCfg :=
  (s.living.qmaps.find? (fun e => decide (e.2.firstQ ≤ q) && decide (q < e.2.firstQ + e.2.count))).map (·.2)

/-- Room and completion ring that a queue maps to: entry i of a QUEUEMAP spreads over CRSPAN rings (Table 3-6). -/
def State.queueRoom (s : State) (q : Nat) : Option Nat := (s.qmapOf q).map (·.room)
def State.queueRing (s : State) (q : Nat) : Option Nat :=
  (s.qmapOf q).map (fun m => m.cring + (q - m.firstQ) % max m.crspan 1)

/-- A tenant that is active (R92). -/
def State.tenActive (s : State) (t : Nat) : Bool :=
  match s.tenantCfg? t with
  | some c => c.enabled && (t == 0 || (s.ten.vfEnable && decide (t ≤ s.ten.numVfs)))
  | none => false

/-! ### Fault state of a tenant -/

/-- A bit of TEN_TNT_n_FAULT set; the poll page shows it at its next update. -/
def State.setFault (t bit : Nat) (s : State) : State :=
  (s.modTen t (fun r => { r with fault := setBit r.fault bit })).modFnq t (fun f => { f with dirty := true })

/-- Bits of TEN_TNT_n_FAULT cleared (W1C); a change reaches the poll page (R131). -/
def State.clearFault (t : Nat) (v : Word) (s : State) : State :=
  if (s.tenant t).fault &&& v = 0 then s
  else (s.modTen t (fun r => { r with fault := r.fault &&& ~~~v })).modFnq t (fun f => { f with dirty := true })

/-- R96: a queue outside the tenant's range. -/
def State.queueViol (t q : Nat) (s : State) : State :=
  (((s.modTen t (fun r => { r with violQ := sat1 16 r.violQ, lastQ := q })).modQm
    (fun m => { m with viol := wrap1 16 m.viol })).setFault t 2).emit 0x90 2 1 t 2 [q]

/-- ADDR_VIOL of a tenant (R95, Table 5-4). -/
def State.addrViol (src t addr : Nat) (s : State) : State :=
  ((s.modTen t (fun r => { r with violA := sat1 16 r.violA })).setFault t 3).emit src 2 2 t 2 [addr]

/-- REMOTE_VIOL of a tenant (R355). -/
def State.remoteViol (src t addr : Nat) (s : State) : State :=
  ((s.modTen t (fun r => { r with violA := sat1 16 r.violA })).setFault t 4).emit src 2 3 t 2 [addr]

/-! ### Completion records -/

/-- What a record says (Tables 6-4 and 6-5). -/
structure Rec where
  tag : Bytes
  session : Nat
  queue : Nat
  room : Nat
  notask : Bool
  status : Nat
  broken : Bool
  ext : Bool
  solo : Bool
  detail : Nat
  outLen : Nat
  qwait : Nat
  exec : Nat
  digest : Bytes
  nflags : Nat
  hits : Nat
  retries : Nat
  deriving DecidableEq, Repr

/-- The bytes of a record, PHASE and DONE_GTC as they stand at its write (Tables 6-4, 6-5). -/
def Rec.bytes (r : Rec) (phase : Bool) (done : Nat) (b64 : Bool) : Bytes :=
  let base := fit 8 r.tag ++ le 4 r.session ++ le 4 (r.queue % 2 ^ 17 + r.room % 64 * 2 ^ 17 + b2n r.notask * 2 ^ 31)
    ++ le 1 r.status ++ le 1 (b2n r.broken + 2 * b2n r.ext + 4 * b2n r.solo + 128 * b2n phase) ++ le 2 r.detail
    ++ le 4 r.outLen ++ le 4 (sat 32 r.qwait) ++ le 4 (sat 32 r.exec)
  let more := if r.ext then fit 16 r.digest ++ le 2 r.nflags ++ le 2 (sat 16 r.hits) ++ le 2 (sat 16 r.retries) ++ le 2 0
    ++ le 8 done else zeros 32
  if b64 then base ++ more else base

def CRing.size (r : CRing) : Nat := 2 ^ r.log2
def CRing.used (r : CRing) : Nat := (r.tail + 2 ^ 32 - r.head) % 2 ^ 32
/-- A slot that no record fills and no start has reserved (R122). Where CR_HEAD_i names records not yet written, whether
there is one is a free value (R11). -/
def CRing.free (r : CRing) : Bool :=
  r.enabled && (if r.used ≤ r.size then decide (r.used + r.reserved < r.size) else Config.ringBreach r.tail r.head)

/-- PHASE of the record of count c (R125). -/
def CRing.phase (r : CRing) : Bool := (r.tail / r.size + 1) % 2 == 1

/-- One record written at the ring's tail (R122, R126). -/
def State.writeRec (ring : Nat) (rc : Rec) (s : State) : State :=
  let r := s.ring ring
  let fn := (s.ringOwner ring).getD 0
  let esz := if r.entry64 then 64 else 32
  let done := s.view 0x90
  let s := s.hostWrite fn (r.base + r.tail % r.size * esz) (rc.bytes r.phase done r.entry64)
  (s.modRing ring (fun r => { r with tail := wrap1 32 r.tail })).modFnq fn (fun f => { f with dirty := true })

/-- A waiting record in the form a ring's backlog holds it. -/
def Rec.pack (r : Rec) : Bytes := r.bytes false 0 true
def unpackRec (b : Bytes) : Rec :=
  let cw := leAt b 12 4
  let cf := leAt b 17 1
  { tag := slice b 0 8, session := leAt b 8 4, queue := cw % 2 ^ 17, room := cw / 2 ^ 17 % 64, notask := nbit cw 31,
    status := leAt b 16 1, broken := nbit cf 0, ext := nbit cf 1, solo := nbit cf 2, detail := leAt b 18 2,
    outLen := leAt b 20 4, qwait := leAt b 24 4, exec := leAt b 28 4, digest := slice b 32 16, nflags := leAt b 48 2,
    hits := leAt b 50 2, retries := leAt b 52 2 }

/-- Records that wait for a slot, written as slots come free, oldest first. -/
def State.flushRing (ring : Nat) : Nat → State → State
  | 0, s => s
  | n + 1, s =>
    let r := s.ring ring
    match r.backlog with
    | [] => s
    | b :: rest =>
      if r.free then
        State.flushRing ring n ((s.modRing ring (fun r => { r with backlog := rest })).writeRec ring (unpackRec b))
      else s

/-- A record that has no reserved slot: written as soon as the ring has a free one (R115, R127). -/
def State.postRec (ring : Nat) (rc : Rec) (s : State) : State :=
  let s := s.modRing ring (fun r => { r with backlog := r.backlog ++ [rc.pack] })
  s.flushRing ring (s.ring ring).backlog.length

/-- A record whose slot was reserved at start. -/
def State.postReserved (ring : Nat) (rc : Rec) (s : State) : State :=
  (s.modRing ring (fun r => { r with reserved := r.reserved - 1 })).writeRec ring rc

/-- The record of a descriptor that never became a task. -/
def State.descRec (s : State) (q : Nat) (d : Bytes) (status detail qwait : Nat) : Rec :=
  let m := (s.queueRoom q).getD 0
  { tag := dTag d, session := dSession d, queue := q, room := m, notask := false, status := status,
    broken := (s.room m).timed == 2, ext := dExt d, solo := false, detail := detail, outLen := 0, qwait := qwait,
    exec := 0, digest := zeros 16, nflags := 0, hits := 0, retries := 0 }

/-- Completion statuses that set the TASK fault bit (Table 5-3). -/
def faultStatus (st : Nat) : Bool :=
  st == 0x20 || st == 0x21 || st == 0x2C || st == 0x2D || st == 0x7F || st == 0x51

/-! ### Acceptance (R110–R112, R115) -/

/-- Descriptors that a queue holds on the device. -/
def Queue.holds (q : Queue) : Nat := q.waiting.length + q.running + q.fetching.length

/-- A context that R112 does not evict. -/
def Queue.pinned (q : Queue) : Bool := q.running != 0 || !q.waiting.isEmpty

/-- A context made hot: into free room, else in place of the least recently used one that may go, else not at all. -/
def State.makeHot (q : Nat) (s : State) : State :=
  let hot := s.qm.hot.filter (· != q)
  if hot.length < 4096 then s.modQm (fun m => { m with hot := hot ++ [q] })
  else match hot.find? (fun h => !(s.queue h).pinned) with
    | some v => s.modQm (fun m => { m with hot := (hot.filter (· != v)) ++ [q] })
    | none => s.modQm (fun m => { m with hot := hot, overflow := sat1 8 m.overflow })

/-- Whether the twin pairs the tasks of a room (R305). -/
def State.twinned (s : State) (m : Nat) : Bool := bitOf (s.rwt offTwinCfg) m

/-- The queue manager accepts a descriptor: it checks the fields, and places it or completes it (R115). A draining
device completes it at once (R403). Each one that it accepts for a paired room has the next number (R305). -/
def State.place (q : Nat) (d : Bytes) (s : State) : State :=
  let ring := (s.queueRing q).getD 0
  let t := (s.queueOwner q).getD 0
  let mode0 := (s.queue q).mode == 0
  let s := s.modQm (fun m => { m with accepts := (m.accepts + 1) % 2 ^ 64, order := m.order + 1 })
  let s := s.modQueue q (fun r => { r with accepted := wrap1 32 r.accepted })
  let s := if mode0 then s.modFnq t (fun f => { f with accept := wrap1 32 f.accept, dirty := true }) else s
  let paired := s.repro.st == .paired && s.twinned ((s.queueRoom q).getD 0)
  let no := (s.queue q).twinNo
  let s := if paired then s.modQueue q (fun r => { r with twinNo := no + 1 }) else s
  match descCheck (s.ring ring).entry64 d with
  | some detail => s.postRec ring (s.descRec q d 0x10 detail 0)
  | none =>
    if s.ras.drain != 0 then s.postRec ring (s.descRec q d 0x7F 0xD0 0)
    else
      let e : QEntry := { raw := d, accGtc := s.view 0x90, ord := s.qm.order, twin := if paired then some no else none }
      s.modQueue q (fun r => { r with waiting := r.waiting ++ [e] })

/-- A descriptor for an active queue: accepted at once when its context is hot, else once the context is fetched
(R112). -/
def State.acceptDesc (q : Nat) (d : Bytes) (s : State) : State :=
  if !(s.queue q).fetching.isEmpty then s.modQueue q (fun r => { r with fetching := r.fetching ++ [d] })
  else if s.qm.hot.contains q then
    (((s.modQm (fun m => { m with hits := sat1 32 m.hits })).makeHot q)).place q d
  else
    (s.modQm (fun m => { m with misses := sat1 24 m.misses })).modQueue q (fun r => { r with fetching := [d] })

/-- The tenant that owns a queue is active: an inactive tenant accepts no descriptors (R92). -/
def State.ownerActive (s : State) (q : Nat) : Bool := match s.queueOwner q with | some t => s.tenActive t | none => false

/-- The context of a cold queue has arrived. Once it is hot, the descriptors that waited are accepted; where every hot context
is held, this fetch served one descriptor, and the next needs a fetch of its own (R112). -/
def State.contextFetched (q : Nat) (s : State) : State :=
  match (s.queue q).fetching with
  | [] => s
  | d :: ds =>
    if !s.ownerActive q then s
    else
      let s := s.makeHot q
      if s.qm.hot.contains q then (d :: ds).foldl (fun s d => s.place q d) (s.modQueue q (fun r => { r with fetching := [] }))
      else
        let s := (s.modQueue q (fun r => { r with fetching := ds })).place q d
        if ds.isEmpty then s else s.modQm (fun m => { m with misses := sat1 24 m.misses })

/-! ### Submission -/

def Queue.ringSize (q : Queue) : Nat := 2 ^ q.log2

/-- A read of a function's host memory, in requests of at most 512 bytes (R120, R463). -/
def State.hostReads (fn addr len : Nat) (s : State) : State :=
  (List.range (cdiv len 512)).foldl (fun s i => s.send (.hostRead fn (addr + 512 * i) (min 512 (len - 512 * i)))) s

/-- How many descriptors a ring queue may hold on the device beside those it holds (R111). -/
def Queue.fetchable (q : Queue) : Nat := min ((q.tail + 2 ^ 32 - q.head) % 2 ^ 32) (32 - q.holds)

/-- Host address of the ring slot of count c (R117). -/
def Queue.slotAddr (q : Queue) (c : Nat) : Nat := q.ring + c % q.ringSize * 64

/-- The ring entries that a queue may fetch now, and for which no read is out, are read in slot order (R111, R117). -/
def State.ringAsk (q : Nat) (s : State) : State :=
  let r := s.queue q
  let n := r.fetchable - r.asked
  let c := r.head + r.asked
  if r.active && (r.mode == 1 || r.mode == 2) && n != 0 && s.ownerActive q then
    let t := (s.queueOwner q).getD 0
    let n1 := min n (r.ringSize - c % r.ringSize)
    ((s.modQueue q (fun r => { r with asked := r.asked + n })).hostReads t (r.slotAddr c) (n1 * 64)).hostReads t r.ring ((n - n1) * 64)
  else s

/-- A new TAIL for a queue of the mode that `m` gives (R117, R120). -/
def State.newTail (m t q tail : Nat) (s : State) : State :=
  if !s.ownsQueue t q then s.queueViol t q
  else
    let r := s.queue q
    if r.active && r.mode == m && decide ((tail + 2 ^ 32 - r.tail) % 2 ^ 32 ≤ r.ringSize) then
      (s.modQueue q (fun r => { r with tail := tail })).ringAsk q
    else s.modQm (fun k => { k with staleDb := wrap1 16 k.staleDb })

/-- Descriptors read from a host ring arrive, in slot order (R117): as many as were asked for. -/
def State.ringFetched (q : Nat) (data : Bytes) (s : State) : State :=
  let r := s.queue q
  if r.active && (r.mode == 1 || r.mode == 2) && s.ownerActive q then
    let n := min r.asked (data.length / 64)
    let s := s.modQueue q (fun r => { r with head := (r.head + n) % 2 ^ 32, asked := r.asked - n })
    ((List.range n).foldl (fun s i => s.acceptDesc q (slice data (i * 64) 64)) s).ringAsk q
  else s

/-- A read of ring entries fails: nothing is consumed, and the entries are read again (log entry 37). -/
def State.ringFailed (q : Nat) (s : State) : State := (s.modQueue q (fun r => { r with asked := 0 })).ringAsk q

/-- A completed push slot (R118). -/
def State.pushDone (t : Nat) (d : Bytes) (s : State) : State :=
  let q := dQueue d
  if !s.ownsQueue t q then s.queueViol t q
  else
    let r := s.queue q
    if r.active && r.mode == 0 && decide (r.holds < 32) then s.acceptDesc q d
    else (s.modQm (fun m => { m with refused := wrap1 16 m.refused })).modFnq t
      (fun f => { f with refused := wrap1 16 f.refused, dirty := true })

/-- One torn event (R118, R119). -/
def State.torn (t : Nat) (s : State) : State :=
  (s.modQm (fun m => { m with torn := wrap1 16 m.torn })).modFnq t (fun f => { f with torn := wrap1 16 f.torn, dirty := true })

/-- The part of a write that falls in one push slot. -/
def State.pushPart (t k off : Nat) (d : Bytes) (s : State) : State :=
  let keys := (List.range d.length).map (· + off)
  let held := NMap.getD (s.fnq t).push k { held := [], since := s.clk.gtc }
  let (s, held) := if keys.any (fun i => (NMap.find? held.held i).isSome) then (s.torn t, { held := [], since := s.clk.gtc })
    else (s, held)
  let h := (keys.zip d).foldl (fun m e => NMap.set m e.1 e.2) held.held
  if h.length = 64 then
    (s.modFnq t (fun f => { f with push := NMap.del f.push k })).pushDone t (h.map (·.2))
  else s.modFnq t (fun f => { f with push := NMap.set f.push k { held with held := h } })

/-- A write into the push window, slot by slot (R118). -/
def State.pushWrite (t off : Nat) (d : Bytes) (s : State) : State :=
  if !s.tenActive t then s
  else (List.range 64).foldl (fun s k =>
    let lo := max off (k * 64)
    let hi := min (off + d.length) (k * 64 + 64)
    if lo < hi then s.pushPart t k (lo - k * 64) (slice d (lo - off) (hi - lo)) else s) s

/-- A partly filled slot times out (R119). -/
def State.pushTimeout (t k : Nat) (s : State) : State :=
  match NMap.find? (s.fnq t).push k with
  | some _ => (s.modFnq t (fun f => { f with push := NMap.del f.push k })).torn t
  | none => s

/-! ### Configuration of queues, rings and scan -/

/-- A QCFG OP posts its result: for a queue of the tenant with the queue; otherwise the tenant's last OP named that queue
(R110). -/
def State.postQcfg (t q r : Nat) (s : State) : State :=
  let s := s.modFnq t (fun f => { f with lastOpQ := some q })
  if s.ownsQueue t q then s.modQueue q (fun x => { x with lastRes := r }) else s

/-- QCFG OP 1 (R110). An active queue takes its new settings and keeps what it holds. -/
def State.activate (t mode log2 : Nat) (s : State) : State :=
  let q := fld (s.b2 t 0x3000) 0 17
  let mode := if mode = 3 then 0 else mode
  let ringA := (s.b2 t 0x3008).toNat / 4096 * 4096
  if !s.tenActive t then s
  else if !s.ownsQueue t q then s.postQcfg t q 1
  else match s.queueRing q with
    | none => s.postQcfg t q 2
    | some cr =>
      if mode != 0 && (ringA == 0 || decide (log2 < 4) || decide (16 < log2)) then s.postQcfg t q 4
      else if !(s.ring cr).enabled then s.postQcfg t q 5
      else (s.modQueue q (fun r =>
        { r with active := true, mode := mode, ring := ringA, log2 := log2, head := 0, tail := 0, asked := 0 })).postQcfg t q 0

/-- QCFG OP 2 (R110). -/
def State.deactivate (t : Nat) (s : State) : State :=
  let q := fld (s.b2 t 0x3000) 0 17
  if !s.tenActive t then s
  else if !s.ownsQueue t q then s.postQcfg t q 1
  else if (s.queue q).holds != 0 then s.postQcfg t q 3
  else (s.modQueue q (fun r => { r with active := false, asked := 0 })).postQcfg t q 0

/-- QCFG_CTRL: MODE and RING_LOG2 land, and the OP runs on the selected queue; a page of an inactive tenant discards the
write (R92, R110). -/
def State.queueCtrl (t op mode log2 : Nat) (s : State) : State :=
  if !s.tenActive t then s
  else
    let s := s.setB2 t 0x3010 (packW [(0, 2, mode), (4, 5, log2)])
    if op = 1 then s.activate t mode log2 else if op = 2 then s.deactivate t else s

/-- An active queue maps to the ring. -/
def State.ringInUse (s : State) (ring : Nat) : Bool :=
  s.qm.queues.any (fun e => e.2.active && s.queueRing e.1 == some ring)

/-- Where the model keeps what was last written to a ring register of an index that the tenant has no ring for (R7): by
offset and index, beyond the page. -/
def offNoRing (off i : Nat) : Nat := off + 0x10000 * (i + 1)

/-- Ring index that CRCFG_SEL selects. -/
def State.crSel (s : State) (t : Nat) : Nat := fld (s.b2 t 0x3020) 0 7

/-- CRCFG_CTRL (R122). -/
def State.crcfgCtrl (t : Nat) (v : Word) (s : State) : State :=
  match s.ringOf t (s.crSel t) with
  | none => if s.tenActive t then s.setB2 t (offNoRing 0x3030 (s.crSel t)) (v &&& maskW [(0, 5), (8, 1), (16, 1)]) else s
  | some ring =>
    let r := s.ring ring
    let lg := fld v 0 5
    if !s.tenActive t then s
    else if r.enabled then
      if bitOf v 16 || s.ringInUse ring then s
      else s.modRing ring (fun r => { r with enabled := false })
    else if bitOf v 16 && (decide (lg < 6) || decide (16 < lg)) then s
    else
      let s := s.modRing ring (fun r => { r with enabled := bitOf v 16, log2 := lg, entry64 := bitOf v 8 })
      s.flushRing ring (s.ring ring).backlog.length

/-- CRCFG_BASE: accepted only while the ring is disabled (R122). -/
def State.crcfgBase (t : Nat) (v : Word) (s : State) : State :=
  match s.ringOf t (s.crSel t) with
  | none => s.setB2 t (offNoRing 0x3028 (s.crSel t)) (v &&& maskW [(12, 52)])
  | some ring => if (s.ring ring).enabled then s else s.modRing ring (fun r => { r with base := v.toNat / 4096 * 4096 })

/-- CR_HEAD_i (R122). -/
def State.crHead (t i : Nat) (v : Word) (s : State) : State :=
  match s.ringOf t i with
  | none => if s.tenActive t then s.setB2 t (0x2000 + 8 * i) (v &&& maskW [(0, 32)]) else s
  | some ring =>
    if !s.tenActive t then s
    else
      let s := s.modRing ring (fun r => { r with head := fld v 0 32 })
      s.flushRing ring (s.ring ring).backlog.length

/-- SCAN_CTRL (R120): fields out of range leave ENABLE at 0. -/
def State.scanCtrl (t : Nat) (v : Word) (s : State) : State :=
  let first := fld v 0 17
  let count := fld v 17 13
  let per := fld v 32 10
  let inRange := match s.tenantCfg? t with
    | some c => decide (c.qbase ≤ first) && decide (first + count ≤ c.qbase + c.qcount)
    | none => false
  let ok := bitOf v 48 && inRange && decide (1 ≤ count) && decide (count ≤ 4096) && decide (1 ≤ per) && decide (per ≤ 1000)
  if !s.tenActive t then s
  else
    let v := v &&& maskW [(0, 30), (32, 10), (48, 1)]
    (s.setB2 t 0x3058 (if ok then v else clrBit v 48)).modFnq t (fun f =>
      { f with scanOn := ok, scanned := if ok && !f.scanOn then [] else f.scanned })

/-- The read of a scan block: COUNT words from SCAN_ADDR (R120). -/
def State.scanRead (t : Nat) (s : State) : State :=
  if (s.fnq t).scanOn && s.tenActive t then
    s.hostReads t ((s.b2 t 0x3050).toNat / 4096 * 4096) (4 * fld (s.b2 t 0x3058) 17 13)
  else s

/-- The scan block has been read: each word that changed acts as a doorbell, but for a queue that is not in mode 2 (R120). -/
def State.scanned (t : Nat) (data : Bytes) (s : State) : State :=
  if !(s.fnq t).scanOn || !s.tenActive t then s
  else
    let c := s.b2 t 0x3058
    let n := min (fld c 17 13) (data.length / 4)
    (List.range n).foldl (fun s k =>
      let w := leAt data (4 * k) 4
      let q := fld c 0 17 + k
      if NMap.getD (s.fnq t).scanned k 0 == w then s
      else
        let s := s.modFnq t (fun f => { f with scanned := NMap.set f.scanned k w })
        if !s.ownsQueue t q then s.queueViol t q
        else if (s.queue q).mode == 2 then s.newTail 2 t q w else s) s

/-! ### The poll page (R129–R131) -/

/-- The queues of a room that its tenant holds. -/
def State.roomQueues (s : State) (m : Nat) : List Nat :=
  (s.qm.queues.filter (fun e => s.queueRoom e.1 == some m)).map (·.1)

def State.roomWaiting (s : State) (m : Nat) : Nat :=
  (s.roomQueues m).foldl (fun n q => n + (s.queue q).waiting.length) 0

def State.roomRunning (s : State) (m : Nat) : Nat := (s.tasks.live.filter (fun e => e.2.room == m)).length

/-- Age of the oldest waiting descriptor of a room, µs. -/
def State.roomOldest (s : State) (m : Nat) : Nat :=
  let now := s.view 0x90
  (s.roomQueues m).foldl (fun o q => match (s.queue q).waiting with
    | [] => o
    | e :: _ => max o ((now - e.accGtc) / 1000)) 0

/-- Bytes 0x010 to 0x43F of a tenant's poll page (Table 6-10). -/
def State.pollFields (s : State) (t : Nat) : Bytes :=
  let f := s.fnq t
  let tail (i : Nat) := match s.ringOf t i with | some r => (s.ring r).tail | none => 0
  let room (m : Nat) := if (s.roomCfg? m).isSome && s.roomTenant m == t
    then le 4 (s.roomWaiting m) ++ le 2 (s.roomRunning m) ++ le 2 (sat 16 (s.roomOldest m)) else zeros 8
  le 8 ((s.tenant t).fault.toNat % 128) ++ le 4 f.accept ++ le 2 f.torn ++ le 2 f.refused ++ zeros 32
    ++ (List.range 128).flatMap (fun i => le 4 (tail i)) ++ (List.range 64).flatMap room

/-- An update: the fields, then GTC and GEN in one write (R130). -/
def State.pollWrite (t gen : Nat) (s : State) : State :=
  let base := (s.b2 t 0x3040).toNat / 4096 * 4096
  let s := s.modFnq t (fun f => { f with gen := gen, dirty := false })
  (s.hostWrite t (base + 0x10) (s.pollFields t)).hostWrite t base (le 8 gen ++ le 8 (s.view 0x90))

def State.pollOn (s : State) (t : Nat) : Bool := bitOf (s.b2 t 0x3048) 0

/-- PP_CTRL: ENABLE going to 1 writes the whole page with GEN = 1 (R129). -/
def State.ppCtrl (t : Nat) (v : Word) (s : State) : State :=
  if !s.tenActive t then s
  else
    let on := s.pollOn t
    let s := s.setB2 t 0x3048 (v &&& maskW [(0, 1), (8, 14)])
    if bitOf v 0 && !on then
      let base := (s.b2 t 0x3040).toNat / 4096 * 4096
      (s.hostWrite t (base + 0x440) (zeros 3008)).pollWrite t 1
    else s

def State.pollUpdate (t : Nat) (s : State) : State :=
  if s.pollOn t && (s.fnq t).dirty then s.pollWrite t (((s.fnq t).gen + 1) % 2 ^ 64) else s

def State.backlogUpdate (t : Nat) (s : State) : State :=
  let waits := (List.range 64).any (fun m => (s.roomCfg? m).isSome && s.roomTenant m == t && s.roomWaiting m != 0)
  if s.pollOn t && waits then s.pollWrite t (((s.fnq t).gen + 1) % 2 ^ 64) else s

/-! ### Flag-only records (R127) -/

def State.flagOnly (m : Nat) (s : State) : State :=
  let rings := (s.living.qmaps.filter (fun e => e.2.room == m)).flatMap
    (fun e => (List.range (min (max e.2.crspan 1) e.2.count)).map (· + e.2.cring))
  (insAll rings []).foldl (fun s r => s.postRec r
    { tag := zeros 8, session := 0, queue := 0, room := m, notask := true, status := 0x7E, broken := true, ext := false,
      solo := false, detail := 0, outLen := 0, qwait := 0, exec := 0, digest := zeros 16, nflags := 0, hits := 0,
      retries := 0 }) s

/-- A break of a Level T room's timing (R299): BROKEN, a Ledger event, flag-only records. -/
def State.timingBreak (m cause : Nat) (s : State) : State :=
  if (s.room m).timed == 1 then
    ((s.modRoom m (fun r => { r with timed := 2, breakCause := cause, breaks := sat1 16 r.breaks })).emit
      0xA0 9 1 (s.roomTenant m) 2 [cause, m]).flagOnly m
  else s

/-! ### Registers (Tables 6-11, 6-12) -/

def State.readQmgr (s : State) (off : Nat) : Word :=
  let m := s.qm
  if off = 0x0 then s.rwt offQmgrCfg
  else if off = 0x8 then packW [(0, 64, m.accepts)]
  else if off = 0x10 then packW [(0, 32, m.hits), (32, 24, m.misses), (56, 8, m.overflow)]
  else if off = 0x18 then packW [(0, 16, m.torn), (16, 16, m.refused), (32, 16, m.viol), (48, 16, m.staleDb)]
  else if off = 0x20 then packW [(0, 13, m.hot.length), (16, 13, (m.hot.filter (fun q => (s.queue q).pinned)).length)]
  else if off = 0x28 then s.reg 0x40028 0
  else if off = 0x30 then
    let q := fld (s.reg 0x40028 0) 0 17
    let r := s.queue q
    packW [(0, 6, (s.queueOwner q).getD 0), (8, 2, r.mode), (10, 1, b2n r.active), (11, 1, b2n (m.hot.contains q)),
      (16, 16, r.waiting.length), (32, 6, (s.queueRoom q).getD 0)]
  else 0

/-- What the RC fields of a QMGR register clear on a read. -/
def State.clearQmgr (off : Nat) (s : State) : State :=
  if off = 0x10 then s.modQm (fun m => { m with hits := 0, misses := 0, overflow := 0 })
  else if off = 0x18 then s.modQm (fun m => { m with torn := 0, refused := 0, viol := 0, staleDb := 0 })
  else s

/-- QCFG_STATUS (R110, R123). -/
def State.qcfgStatus (s : State) (t : Nat) : Word :=
  let q := fld (s.b2 t 0x3000) 0 17
  let f := s.fnq t
  if s.ownsQueue t q then
    let r := s.queue q
    let noRing := r.active && (match s.queueRing q with | some cr => !(s.ring cr).enabled | none => false)
    packW [(0, 1, b2n r.active), (1, 3, if noRing then 5 else r.lastRes), (16, 16, r.waiting.length), (32, 32, r.head)]
  else packW [(1, 3, if f.lastOpQ == some q then 1 else 0)]

/-- The queue, ring, poll-page, scan and status registers of a BAR2 page. -/
def State.readQcfg (s : State) (t off : Nat) : Word :=
  if 0x2000 ≤ off && off < 0x2400 then
    match s.ringOf t ((off - 0x2000) / 8) with | some r => packW [(0, 32, (s.ring r).head)] | none => s.b2 t off
  else if off = 0x3018 then s.qcfgStatus t
  else if off = 0x3028 then
    match s.ringOf t (s.crSel t) with | some r => packW [(0, 64, (s.ring r).base)] | none => s.b2 t (offNoRing off (s.crSel t))
  else if off = 0x3030 then
    match s.ringOf t (s.crSel t) with
    | some r => packW [(0, 5, (s.ring r).log2), (8, 1, b2n (s.ring r).entry64), (16, 1, b2n (s.ring r).enabled)]
    | none => s.b2 t (offNoRing off (s.crSel t))
  else if off = 0x3038 then
    match s.ringOf t (s.crSel t) with
    | some r => packW [(0, 32, (s.ring r).tail), (32, 16, (s.ring r).stalls)]
    | none => 0
  else if off = 0x4000 then packW [(0, 6, t), (8, 4, s.ident.step), (16, 15, s.cell.chip)]
  else if off = 0x4008 then packW [(0, 64, s.view 0x90)]
  else if off = 0x4010 then
    let f := s.fnq t
    packW [(0, 32, f.accept), (32, 16, f.torn), (48, 16, f.refused)]
  else if off = 0x3000 || off = 0x3008 || off = 0x3010 || off = 0x3020 || off = 0x3040 || off = 0x3048 || off = 0x3050
    || off = 0x3058 then s.b2 t off
  else 0

/-- FULL_STALLS clears on a read of CRCFG_STATUS. -/
def State.clearStalls (t : Nat) (s : State) : State :=
  match s.ringOf t (s.crSel t) with
  | some r => s.modRing r (fun r => { r with stalls := 0 })
  | none => s

/-! ### Commands -/

def execQueueActivate (fn : Fn) (mode log2 : Nat) (s : State) : Answer :=
  .next (s.queueCtrl fn 1 mode log2)
def execQueueDeactivate (fn : Fn) (s : State) : Answer := .next (s.deactivate fn)
def execDoorbell (fn : Fn) (v : Word) (s : State) : Answer :=
  .next (if s.tenActive fn then s.newTail 1 fn (fld v 0 17) (fld v 32 32) else s)
def execRingEntryFetch (queue : Nat) (data : Bytes) (err : Bool) (s : State) : Answer :=
  .next (if err then s.ringFailed queue else s.ringFetched queue data)
def execPushWrite (fn : Fn) (off : Nat) (data : Bytes) (s : State) : Answer := .next (s.pushWrite fn off data)
def execPushTimeout (fn : Fn) (slot : Nat) (s : State) : Answer := .next (s.pushTimeout fn slot)
def execScanCtrlWrite (fn : Fn) (v : Word) (s : State) : Answer := .next (s.scanCtrl fn v)
def execRingScan (fn : Fn) (data : Bytes) (err : Bool) (s : State) : Answer :=
  .next (if err then s.scanRead fn else (s.scanRead fn).scanned fn data)
def execContextFetchDone (queue : Nat) (s : State) : Answer := .next (s.contextFetched queue)
def execCrcfgCtrlWrite (fn : Fn) (v : Word) (s : State) : Answer := .next (s.crcfgCtrl fn v)
def execCrHeadWrite (fn : Fn) (i : Nat) (v : Word) (s : State) : Answer := .next (s.crHead fn i v)
def execPpEnable (fn : Fn) (v : Word) (s : State) : Answer := .next (s.ppCtrl fn v)
def execPollUpdate (fn : Fn) (s : State) : Answer := .next (s.pollUpdate fn)
def execBacklogUpdate (fn : Fn) (s : State) : Answer := .next (s.backlogUpdate fn)

end Sys2Proof.Machine
end

