-- ==== Sys2Proof/Machine/Task.lean ====
section
/-! DEFINITION. Task slots from assignment to release (R133–R145): Shelf access, start and its checks, stopping, ending,
records, and the requests that DMA makes. -/

namespace Sys2Proof.Machine

open Sys2Proof

/-! ### The Shelf as a task sees it (Table 7-1) -/

def State.islCfg (s : State) (n : Nat) : IslandCfg := NMap.getD s.living.islands n { pinKib := 0, stackKib := 4 }
def State.pin (s : State) (n : Nat) : Nat := (s.islCfg n).pinKib * 1024
def State.stackB (s : State) (n : Nat) : Nat := (s.islCfg n).stackKib * 1024
/-- Base and top of the stack window of slot k. -/
def State.stackLo (s : State) (n k : Nat) : Nat := s.pin n + k * s.stackB n
def State.stackHi (s : State) (n k : Nat) : Nat := s.pin n + (k + 1) * s.stackB n
def State.workBase (s : State) (n : Nat) : Nat := s.pin n + 16 * s.stackB n
def firmBase : Nat := 0x1E0000

/-- The working pages of an island, ascending (R133). -/
def State.pages (s : State) (n : Nat) : List Nat :=
  (List.range ((firmBase - s.workBase n) / 4096)).map (fun i => s.workBase n + 4096 * i)

def Isl.held (i : Isl) : List Nat := i.slots.flatMap (fun e => e.2.pages)

def State.freePages (s : State) (n : Nat) : List Nat :=
  let held := (s.island n).held
  (s.pages n).filter (fun p => !held.contains p)

/-- A Hatch, an island reset or a room or tenant reset is clearing the island's pages, so that no page is free (R69, R106,
Table 19-4). -/
def State.clearsPages (s : State) (n : Nat) : Bool :=
  (s.txn.hatch.st == .clearing && bitOf s.txn.hatch.clearIsl n) || s.ten.islBusy.contains n
    || (match s.roomOf n with | some m => (s.room m).st == .resetting | none => false)

/-- Every part of a range satisfies `p`; every region boundary of Table 7-1 is a multiple of 1 KiB. -/
def rangeAll (p : Nat → Bool) (a len : Nat) : Bool := decide (a + len ≤ 0x200000) && (unitsOf 1024 a len).all p

def State.inStack (s : State) (n k a : Nat) : Bool := decide (s.stackLo n k ≤ a) && decide (a < s.stackHi n k)
def State.inPages (s : State) (n k a : Nat) : Bool :=
  decide (s.workBase n ≤ a) && (s.slot n k).pages.any (fun p => decide (p ≤ a) && decide (a < p + 4096))

/-- Shelf address of a slot's copy of its descriptor (R135, R142). -/
def descCopyAt (k : Nat) : Nat := firmBase + (Config.descCopy k).toNat * 64

def State.canStore (s : State) (n k a len : Nat) : Bool := rangeAll (fun u => s.inStack n k u || s.inPages n k u) a len

def State.isLead (s : State) (n k : Nat) : Bool :=
  match s.task? (s.slot n k).task with
  | some t => t.span.isNone && t.slots.head? == some (n, k)
  | none => false

def State.canLoad (s : State) (n k a len : Nat) : Bool :=
  rangeAll (fun u => decide (u < s.pin n) || s.inStack n k u || s.inPages n k u) a len
    || (s.isLead n k && decide (descCopyAt k ≤ a) && decide (a + len ≤ descCopyAt k + 64))

/-! ### Graphs that are resident (R332) -/

def State.pantryOf (s : State) (t : Nat) : List Nat :=
  (s.living.windows.filter (fun e => e.2.kind == 1 && e.2.tenant == t)).map (·.1)

/-- Directory entries of a tenant: window, entry number, entry. -/
def State.entriesOf (s : State) (t : Nat) : List (Nat × Nat × PEntry) :=
  (s.pantryOf t).flatMap (fun w => (s.pwin w).entries.map (fun e => (w, e.1, e.2)))

def PEntry.live (e : PEntry) : Bool := e.state == 1 || e.state == 2

def State.resident? (s : State) (t m g : Nat) : Option (Nat × Nat × PEntry) :=
  (s.entriesOf t).find? (fun x => x.2.2.graph == g && x.2.2.room == m && x.2.2.live)

/-- DETAIL of GRAPH_NOT_RESIDENT (R332). -/
def State.whyAbsent (s : State) (t m g : Nat) : Nat :=
  let es := (s.entriesOf t).filter (fun x => x.2.2.graph == g)
  match es.find? (fun x => x.2.2.room == m && x.2.2.state == 3) with
  | some x => 3 + 256 * x.2.2.code
  | none =>
    match es.find? (fun x => x.2.2.room == m && x.2.2.state == 4) with
    | some x => 4 + 256 * x.2.2.code
    | none => if es.any (fun x => x.2.2.live) then 2 else 1

/-! ### Holds on task starts -/

/-- Suspect, under verification, failed, forced, under Audit or under an island reset: no new task may use the unit (R392,
R395, R398, R102). -/
def State.unitHeld (s : State) (u : Nat) : Bool :=
  (s.unit u).health != .healthy
    || (s.ras.sweepForced && s.ras.sweepUnit == u)
    || (s.ras.auditBusy && s.ras.auditUnit == u)
    || s.ras.roomAudits.any (fun e => e.2.todo.head? == some u)
    || (decide (0x10 ≤ u) && s.ten.islBusy.contains (u - 0x10))

/-- An engine serves a request that came before it became suspect; a new one waits until it is healthy again (R398). -/
def State.mayServe (s : State) (u stamp : Nat) : Bool := (s.unit u).health == .healthy || decide (stamp ≤ (s.unit u).since)

/-- Any T-island or ELE sensor at or above the throttle threshold (R448). -/
def State.hotJunction (s : State) : Bool := decide (95 ≤ s.plat.sensors.tjC)

/-- The room is a member of a span other than its head, or a head whose span is not READY (R378, R379). -/
def State.spanHolds (s : State) (m : Nat) : Bool :=
  let c := s.rwt (offSpanCfg m)
  bitOf c 24 && (fld c 20 4 != 0 || (s.spanRt m).st != 2)

/-- Rules that hold every start of a room (R97, R90, R293, R298, R375, R403, R445). -/
def State.roomHeld (s : State) (m : Nat) : Bool :=
  !s.plat.ready || s.plat.power == .d3hot || s.txn.quiesce || s.ras.drain != 0
    || (s.room m).st != .serving || !s.tenActive (s.roomTenant m) || (s.tenant (s.roomTenant m)).st == .scrubbing
    || s.spanHolds m || (s.levelT m && (s.hotJunction || s.clk.stepDue.isSome || s.roomRunning m != 0))

/-- Lowest-numbered free slot within the room's SLOTS limit (R142). -/
def State.freeSlot (s : State) (n limit : Nat) : Option Nat :=
  (List.range (min limit 16)).find? (fun k => (s.slot n k).st == .free)

/-- The segments of an entry that run on this device, with their islands: the i-th segment on the i-th island. -/
def PEntry.segOn (e : PEntry) (first : Nat) (isls : List Nat) : List (Nat × Nat × SegInfo) :=
  (isls.zipIdx).filterMap (fun (n, i) => (e.segs[first + i]?).map (fun g => (n, first + i, g)))

/-- A step of Sweep runs on an island of a Level T room: its task waits for the step to yield (R301). -/
def State.sweepBars (s : State) (m n : Nat) : Bool := s.levelT m && s.ras.sweepBusy && s.ras.sweepUnit == 0x10 + n

/-- Every island has a slot and the pages, and no unit the graph uses is held. -/
def State.roomFor (s : State) (m first : Nat) (e : PEntry) : Bool :=
  match s.roomCfg? m with
  | none => false
  | some r =>
    (e.segOn first r.isls).all (fun (n, _, g) =>
      (s.freeSlot n r.slots).isSome && decide (g.pages ≤ (s.freePages n).length) && !s.unitHeld (0x10 + n)
        && !s.sweepBars m n)
      && (!e.rce || r.rceList.all (fun x => !s.unitHeld (0x50 + x)))
      && e.eles.all (fun j => match r.eleList[j]? with | some x => !s.unitHeld (0x60 + x) | none => true)

/-- The secondary of a pair waits for the primary's start message (R306). -/
def State.startMsg? (s : State) (q : Nat) (e : QEntry) : Option Nat :=
  match e.twin with
  | none => some 3
  | some no =>
    if s.repro.st != .paired || s.repro.primary then some 3
    else (s.repro.starts.find? (fun x => x.1 == q && x.2.1 == no)).map (·.2.2)

/-- Whether a queue's head may start, its ring's slot apart (R113, R98). -/
def State.headReady (s : State) (m q : Nat) (e : QEntry) : Bool :=
  let r := s.queue q
  r.active && !r.stateBusy && (!dUsesState e.raw || r.running == 0) && (s.startMsg? q e).isSome
    && (if dOp e.raw = 2 then r.running == 0
        else match s.resident? (s.roomTenant m) m (dGraph e.raw) with
          | none => true
          | some (_, _, g) => !g.held && g.state != 2 && (dOp e.raw != 1 || s.roomFor m 0 g))

def State.ringOk (s : State) (q : Nat) : Bool :=
  match s.queueRing q with
  | some r => (s.ring r).free && (s.ring r).backlog.isEmpty
  | none => false

/-- Effective deadline (R113 rule 3). -/
def State.effDeadline (s : State) (e : QEntry) : Nat :=
  if dDeadline e.raw != 0 then dDeadline e.raw else e.accGtc + fld (s.rwt offQmgrCfg) 0 16 * 1000

def State.heads (s : State) (m : Nat) : List (Nat × QEntry) :=
  (s.roomQueues m).filterMap (fun q => match (s.queue q).waiting with | [] => none | e :: _ => some (q, e))

/-- The descriptor that the dispatcher of a room starts next (R113). -/
def State.nextHead (s : State) (m : Nat) : Option (Nat × QEntry) :=
  if s.roomHeld m then none
  else firstBy (fun a b => let da := s.effDeadline a.2; let db := s.effDeadline b.2
      decide (da < db) || (da == db && decide (a.2.ord < b.2.ord)))
    ((s.heads m).filter (fun x => s.headReady m x.1 x.2 && s.ringOk x.1))

/-- Heads passed over for want of a record slot, counted (R113 rule 4, R123). -/
def State.countStalls (m : Nat) (s : State) : State :=
  if s.roomHeld m then s
  else ((s.heads m).filter (fun x => s.headReady m x.1 x.2 && !s.ringOk x.1)).foldl (fun s x =>
    match s.queueRing x.1 with
    | some r => s.modRing r (fun r => { r with stalls := sat1 16 r.stalls })
    | none => s) s

def State.dequeue (q : Nat) (s : State) : State := s.modQueue q (fun r => { r with waiting := r.waiting.drop 1 })

/-! ### Checks at start (R95, R116, R121) -/

/-- The private window that holds a range whole (R95, R139). -/
def State.privateWin (s : State) (t a len : Nat) : Bool :=
  s.living.windows.any (fun e => e.2.kind == 0 && e.2.tenant == t && decide (e.2.base ≤ a) && decide (a + len ≤ e.2.base + e.2.size))

/-- How a start comes out before any slot is taken: a record's status and DETAIL, or the graph and whether it is late. -/
inductive StartRes where
  | fails (status detail : Nat)
  | goes (win idx : Nat) (g : PEntry) (late : Bool)
  deriving DecidableEq, Repr

/-- GTC view of the island of a room's dispatcher: the start instant (R113, R121). -/
def State.dispView (s : State) (m : Nat) : Nat := s.view (0x10 + (match s.roomCfg? m with | some r => r.dispatcher | none => 0))

/-- A descriptor that starts now starts late (R121). -/
def State.startsLate (s : State) (m : Nat) (d : Bytes) : Bool := dDeadline d != 0 && decide (dDeadline d < s.dispView m)

/-- How the deadline of a descriptor comes out: 0 on time, 1 late, 2 dropped. The secondary of a pair takes what the primary's start
message says (R121, R306). -/
def State.lateness (s : State) (m q : Nat) (e : QEntry) : Nat :=
  let own := if s.startsLate m e.raw then (if dDropLate e.raw then 2 else 1) else 0
  match s.startMsg? q e with
  | some x => if x < 3 then x else own
  | none => own

def State.startCheck (s : State) (m q : Nat) (e : QEntry) : StartRes :=
  let t := s.roomTenant m
  let d := e.raw
  match s.resident? t m (dGraph d) with
  | none => .fails 0x11 (s.whyAbsent t m (dGraph d))
  | some (w, i, g) =>
    if dUsesState d && !s.privateWin t (dState d) (max g.stateBytes 1) then .fails 0x10 0x328
    else if decide (dInLen d < g.inMin) || decide (g.inMax < dInLen d) then .fails 0x10 0x418
    else if s.lateness m q e = 2 then .fails 0x60 0
    else .goes w i g (s.lateness m q e == 1)

/-- The primary tells the secondary how the deadline came out (R306). -/
def State.tellStart (q : Nat) (e : QEntry) (outcome : Nat) (s : State) : State :=
  match e.twin with
  | some no => if s.repro.st == .paired && s.repro.primary then s.send (.twinStart q no outcome)
      else s.modRepro (fun r => { r with starts := r.starts.filter (fun x => !(x.1 == q && x.2.1 == no)) })
  | none => s

/-- A descriptor that heads its queue ends without becoming a task: the start message of a pair is sent or used, its place is
taken, and its record follows. -/
def State.endHead (m q : Nat) (e : QEntry) (status detail : Nat) (s : State) : State :=
  let qwait := s.dispView m - e.accGtc
  let s := s.tellStart q e (s.lateness m q e)
  ((s.dequeue q).ringAsk q).postRec ((s.queueRing q).getD 0) (s.descRec q e.raw status detail qwait)

/-- The store-stream checksum (R307): 16 bytes for each block, KIND and BLOCK in 4 bytes each and H in 8 (log entry 57). -/
def storeSum (blocks : List (Nat × Nat × Nat)) : Nat :=
  crc64 (blocks.flatMap (fun b => le 4 (b.1 / 2 ^ 32) ++ le 4 (b.1 % 2 ^ 32) ++ le 8 b.2.1))

/-- A paired task that fails at its start is not compared: its twin learns the status, and nothing waits for what the twin has
sent (R308). -/
def State.twinFail (q : Nat) (e : QEntry) (status detail : Nat) (s : State) : State :=
  match e.twin with
  | some no =>
    if s.repro.st == .paired then
      (s.send (.twinCompare q no { status := status, detail := detail, outLen := 0, nflags := 0, digest := zeros 16,
                                   checksum := storeSum [], blocks := [] })).modRepro (fun r =>
        { r with unpaired := wrap1 32 r.unpaired, early := r.early.filter (fun x => !(x.1 == q && x.2.1 == no)) })
    else s
  | none => s

/-! ### Start (R142) -/

/-- One slot made READY for a segment of a task, whose descriptor's copy is at `copy` (R135, R142). -/
def State.fillSlot (n k tid seg copy : Nat) (g : SegInfo) (prog : Nat) (s : State) : State :=
  let regs := NMap.set (NMap.set (NMap.set [] 30 (BitVec.ofNat 64 (s.stackHi n k))) 1 (BitVec.ofNat 64 copy)) 2 (BitVec.ofNat 64 seg)
  let pages := (s.freePages n).take g.pages
  s.modIsl n (fun i =>
    { i with pred := [], rstack := []
             slots := NMap.set i.slots k
               { Slot.reset with st := .ready, task := tid, regs := regs, pc := prog + g.entry,
                                 evec := if g.evec = 0 then 0 else BitVec.ofNat 64 (prog + g.evec), seg := seg,
                                 pages := pages, hold := g.hold } })

def PEntry.progOn (e : PEntry) (n : Nat) : Nat :=
  match e.runs.find? (fun r => r.island == n) with | some r => r.prog | none => 0

/-- Slots taken on every island of the segments, lead first; the descriptor copied for the lead. Every slot's g1 names the task's copy:
the lead slot's; on a span's member, which holds none, that of its own slot number (log entry 5). -/
def State.takeSlots (tid m first : Nat) (e : PEntry) (d : Bytes) (s : State) : State × List (Nat × Nat) :=
  match s.roomCfg? m with
  | none => (s, [])
  | some r =>
    let copy := fun (k : Nat) => descCopyAt (if first = 0 then (s.freeSlot r.dispatcher r.slots).getD k else k)
    let (s, slots) := (e.segOn first r.isls).foldl (fun (s, acc) (n, i, g) =>
      match s.freeSlot n r.slots with
      | some k => (s.fillSlot n k tid i (copy k) g (e.progOn n), acc ++ [(n, k)])
      | none => (s, acc)) (s, [])
    let (lead, rest) := slots.partition (fun x => x.1 == r.dispatcher)
    let s := match (if first = 0 then lead else []) with
      | (n, k) :: _ => s.modShelf n (fun st => st.write wordB (descCopyAt k) d)
      | [] => s
    (s, lead ++ rest)

def Task.new (q m t : Nat) (e : QEntry) (start : Nat) (slots : List (Nat × Nat)) (late : Bool) (ring w i stateB : Nat) : Task :=
  { queue := q, room := m, tenant := t, ent := e, start := start, slots := slots, late := late, status := none, outLen := 0, written := 0,
    requeue := false, noRecord := false, nflags := 0, refreshHits := 0, linkRetries := 0, ring := ring, window := w,
    entry := i, stateBytes := stateB, hashed := [], gap := false, refetchAt := none, broken := false, withhold := false, pend := [], slog := [],
    comparing := false, peerMsg := none, solo := false, spanStop := false, span := none, eleDone := [] }

def State.roomSolo (s : State) (m : Nat) : Bool := s.repro.st == .solo && s.twinned m

/-- The dispatcher starts a RUN descriptor that heads its queue. -/
def State.startRun (m q : Nat) (e : QEntry) (s : State) : State :=
  let ring := (s.queueRing q).getD 0
  let now := s.dispView m
  match s.startCheck m q e with
  | .fails st detail =>
    let s := (s.endHead m q e st detail).twinFail q e st detail
    if st == 0x10 && detail == 0x328 then s.addrViol 0x90 (s.roomTenant m) (dState e.raw) else s
  | .goes w i g late =>
    let tid := s.tasks.next
    let (s, slots) := s.takeSlots tid m 0 g e.raw
    let k : Task := { Task.new q m (s.roomTenant m) e now slots late ring w i g.stateBytes with
      broken := (s.room m).timed == 2, solo := s.roomSolo m }
    let s := (s.dequeue q).modTasks (fun u => { live := NMap.set u.live tid k, next := tid + 1 })
    let s := s.modQueue q (fun r => { r with running := r.running + 1, stateBusy := dUsesState e.raw })
    (s.modRing ring (fun r => { r with reserved := r.reserved + 1 })).tellStart q e (b2n late)

/-- TASK_START of a room. -/
def State.taskStart (m : Nat) (s : State) : State :=
  let s := s.countStalls m
  match s.nextHead m with
  | some (q, e) => if dOp e.raw == 1 then s.startRun m q e else s
  | none => s

/-- A NOP completes once every earlier descriptor of its queue has completed (Table 6-3). -/
def State.nop (q : Nat) (s : State) : State :=
  match (s.queue q).waiting, s.queueRoom q with
  | e :: _, some m =>
    if dOp e.raw == 2 && !s.roomHeld m && s.headReady m q e && s.ringOk q then
      s.endHead m q e (if s.lateness m q e = 2 then 0x60 else s.lateness m q e) 0
    else s
  | _, _ => s

/-- STATE_ZERO zeroes the state block for the graph's declared size; whole-line writes clear poison (R336). -/
def State.stateZero (q : Nat) (s : State) : State :=
  match s.queueRoom q with
  | none => s
  | some m =>
    match s.nextHead m with
    | some (q', e) =>
      if q' == q && dOp e.raw == 3 then
        match s.startCheck m q e with
        | .fails st detail =>
          let s := s.endHead m q e st detail
          if st == 0x10 && detail == 0x328 then s.addrViol 0x90 (s.roomTenant m) (dState e.raw) else s
        | .goes _ _ g late =>
          let s := if dUsesState e.raw then s.modStore (fun st => st.wipe lineB (dState e.raw) g.stateBytes) else s
          s.endHead m q e (b2n late) 0
      else s
    | none => s

/-! ### Stopping (R145) -/

/-- Operations of a slot still in the queues of its units are discarded. -/
def Isl.dropOps (i : Isl) (k : Nat) : Isl :=
  { i with xfers := i.xfers.filter (fun x => x.slot != k), grid := i.grid.filter (fun g => g.slot != k),
           vec := i.vec.filter (fun v => v.slot != k) }

/-- Layers that a slot asked an ELE for are withdrawn. A job block already on its way is a DMA write, which completes (R145). -/
def State.dropEngine (n k : Nat) (s : State) : State :=
  s.modEng (fun e =>
    { e with eleIn := e.eleIn.filter (fun x => !(x.isl == n && x.slot == k))
             ele := NMap.mapV e.ele (fun _ x => match x.layer with
               | some l => if l.isl == n && l.slot == k then { x with layer := none } else x
               | none => x) })

/-- A DMA read already issued is waited for and its data discarded; one that has brought its response is over, and so is a transfer
that an ELE still holds back (R145, R256). -/
def Slot.dropReads (k : Slot) : Slot :=
  { k with tags := NMap.mapV k.tags (fun _ d =>
      if d.waits then { d with drop := true, done := true, waits := false }
      else if d.write then d
      else { d with drop := true, done := d.done || d.held.isSome, held := none }) }

/-- A stop request reaches a slot (Table 7-5): READY, RUNNING or WAITING becomes STOPPING. -/
def State.stopSlot (n k : Nat) (s : State) : State :=
  let st := (s.slot n k).st
  if st == .ready || st == .running || st == .waiting then
    let s := s.modSlot n k (fun x => { x.dropReads with st := .stopping })
    (s.modIsl n (fun i => { i.dropOps k with run := if i.run == some k then none else i.run })).dropEngine n k
  else s

/-- The lead slot begins to end. -/
def State.endLead (n k : Nat) (s : State) : State :=
  let st := (s.slot n k).st
  if st == .ready || st == .running || st == .waiting then
    let s := s.modSlot n k (fun x => { x.dropReads with st := .ending })
    (s.modIsl n (fun i => { i.dropOps k with run := if i.run == some k then none else i.run })).dropEngine n k
  else s

/-- The first status stands. -/
def State.setStatus (tid status detail : Nat) (s : State) : State :=
  s.modTask tid (fun t => { t with status := match t.status with | some x => some x | none => some (status, detail) })

/-- The task ends with a status: the first one stands. Its lead slot ends and its other slots stop (R144). -/
def State.endTask (tid status detail : Nat) (s : State) : State :=
  match s.task? tid with
  | none => s
  | some t =>
    let s := s.setStatus tid status detail
    match t.slots with
    | [] => s
    | (n, k) :: rest =>
      rest.foldl (fun s x => s.stopSlot x.1 x.2) (if t.span.isSome then s.stopSlot n k else s.endLead n k)

/-- A task stopped from outside, on every slot it holds, unless its lead slot is already ending (R145, R85). -/
def State.stopTask (tid status detail : Nat) (s : State) : State :=
  match s.task? tid with
  | none => s
  | some t =>
    match t.slots with
    | (n, k) :: _ =>
      if (s.slot n k).st == .ending then s
      else t.slots.foldl (fun s x => s.stopSlot x.1 x.2) (s.setStatus tid status detail)
    | [] => s

/-- A task that nothing ends or stops yet. -/
def State.runs (s : State) (t : Task) : Bool :=
  match t.slots with
  | (n, k) :: _ => (s.slot n k).st == .ready || (s.slot n k).st == .running || (s.slot n k).st == .waiting
  | [] => false

/-- An ending cause or a fault on one slot: the slot stops and the lead ends (Situations of R144). -/
def State.slotFault (n k status detail : Nat) (s : State) : State :=
  let tid := (s.slot n k).task
  let s := if s.isLead n k then s else s.stopSlot n k
  s.endTask tid status detail

/-- A slot released: crates, overlays, pages, tags (Table 7-5). -/
def State.freeSlotAt (n k : Nat) (s : State) : State :=
  s.modIsl n (fun i => { i.dropOps k with slots := NMap.del i.slots k, run := if i.run == some k then none else i.run,
                                          swapTo := i.swapTo.filter (· != k) })

/-- Every DMA request of a slot has completed. -/
def Slot.drained (k : Slot) : Bool := k.tags.all (fun e => e.2.done)

/-! ### Ending (R126, R302, R307) -/

/-- One store of a paired task entered in its store log (R307). -/
def logStore (kind off : Nat) (d : Bytes) (gtc : Nat) (m : NMap (Nat × Nat)) : NMap (Nat × Nat) :=
  (unitsOf 512 off d.length).foldl (fun m u =>
    let lo := max u off
    let hi := min (u + 512) (off + d.length)
    let part := slice d (lo - off) (hi - lo)
    let entry := le 1 kind ++ le 1 0 ++ le 2 part.length ++ le 4 lo ++ le 4 (crc32c part) ++ le 4 0
    NMap.upd m (kind * 2 ^ 32 + u / 512) (0, 0) (fun h => (h.1 ^^^ crc64 entry, gtc))) m

/-- GD and WD of the graph a task runs. -/
def State.taskGraph (s : State) (t : Task) : Option PEntry := NMap.find? (s.pwin t.window).entries t.entry

/-- The result digest (R302). -/
def State.digestOf (s : State) (t : Task) : Bytes :=
  match s.taskGraph t with
  | some g => (sha256 (g.gd ++ g.wd ++ sha256 t.hashed)).take 16
  | none => zeros 16

/-- Statuses that Table 6-8 marks as run to the end. -/
def ranFully (st : Nat) : Bool := st == 0 || st == 1 || st == 0x12 || st == 0x50 || st == 0x51 || st == 0x70

def Task.digestDue (t : Task) (st : Nat) : Bool := dDigest t.ent.raw && ranFully st

/-- Status and DETAIL with which a task completes: late, or withheld (R121, R399). -/
def Task.final (t : Task) : Nat × Nat :=
  let (st, d) := t.status.getD (0, 0)
  let st := if st == 0 && t.late then 1 else st
  if t.withhold && (st == 0 || st == 1 || st == 0x12) then (0x70, 0) else (st, d)

/-- The held writes into the state block reach the Cellar. -/
def State.writeBack (t : Task) (s : State) : State := t.pend.foldl (fun s w => s.cellarLand w.1 w.2.1 w.2.2) s

/-- OUT_LEN of a record (Table 6-4): the length that the graph program states where the task ran to its end, 0 where its output
is withheld (R399), else the output bytes written. -/
def Task.outLenOf (t : Task) (status : Nat) : Nat :=
  if status == 0x70 then 0 else if ranFully status then t.outLen else t.written

/-- The completion record handed over and the task's hold on its queue, ring and lead slot released. A Level T record is written
40 ns after the hand-over (R292); a task that ran solo is one that was not compared (R309). -/
def State.complete (tid : Nat) (t : Task) (status detail : Nat) (s : State) : State :=
  let s := if s.levelT t.room then s.reach (s.clk.gtc + 40) else s
  let now := s.view 0x90
  let dig := if t.digestDue status then s.digestOf t else zeros 16
  let rc : Rec :=
    { tag := dTag t.ent.raw, session := dSession t.ent.raw, queue := t.queue, room := t.room, notask := false,
      status := status, broken := t.broken || (s.room t.room).timed == 2, ext := dExt t.ent.raw, solo := t.solo,
      detail := detail, outLen := t.outLenOf status, qwait := t.start - t.ent.accGtc,
      exec := now - t.start, digest := dig, nflags := t.nflags.toNat % 65536, hits := t.refreshHits,
      retries := t.linkRetries }
  let s := if t.noRecord then s else s.postReserved t.ring rc
  let s := if t.digestDue status && !t.noRecord then s.modRepro (fun r => { r with digests := wrap1 32 r.digests }) else s
  let s := if faultStatus status && !t.noRecord then s.setFault t.tenant 0 else s
  let s := if t.solo && !t.noRecord then s.modRepro (fun r => { r with unpaired := wrap1 32 r.unpaired }) else s
  let s := t.slots.foldl (fun s x => s.freeSlotAt x.1 x.2) s
  let s := s.modTasks (fun u => { u with live := NMap.del u.live tid })
  if t.span.isSome then s
  else (s.modQueue t.queue (fun r => { r with running := r.running - 1, stateBusy := false })).ringAsk t.queue

/-- A task stopped by FORCE goes back to the head of its queue without a record (R85, R122). -/
def State.requeue (tid : Nat) (t : Task) (s : State) : State :=
  let s := s.modRing t.ring (fun r => { r with reserved := r.reserved - 1 })
  let s := s.flushRing t.ring (s.ring t.ring).backlog.length
  let s := s.modQueue t.queue (fun r =>
    { r with running := r.running - 1, stateBusy := false, waiting := t.ent :: r.waiting })
  let s := t.slots.foldl (fun s x => s.freeSlotAt x.1 x.2) s
  s.modTasks (fun u => { u with live := NMap.del u.live tid })

/-- What a device sends of a paired task (R308). -/
def State.twinMsgOf (s : State) (t : Task) (st detail : Nat) : TwinMsg :=
  let base := dState t.ent.raw
  let logs := if st == 0 || st == 1 then
    t.pend.foldl (fun m w => logStore 2 (w.1 - base) w.2.1 (s.view 0x90) m) t.slog else t.slog
  { status := st, detail := detail, outLen := t.outLenOf st, nflags := t.nflags.toNat % 65536,
    digest := if t.digestDue st then s.digestOf t else zeros 16
    checksum := storeSum (logs.map (fun e => (e.1, e.2.1, e.2.2))), blocks := logs.map (fun e => (e.1, e.2.1, e.2.2)) }

/-- Statuses that R308 compares. -/
def comparable (st : Nat) : Bool := st == 0 || st == 1 || st == 0x12

/-- The offset and key of the lowest block that differs, with both GTCs. -/
def firstDiff : List (Nat × Nat × Nat) → List (Nat × Nat × Nat) → Option (Nat × Nat × Nat)
  | [], [] => none
  | (k, _, g) :: _, [] => some (k, g, 0)
  | [], (k, _, g) :: _ => some (k, 0, g)
  | (k, h, g) :: r, (k', h', g') :: r' =>
    if k < k' then some (k, g, 0)
    else if k' < k then some (k', 0, g')
    else if h != h' then some (k, g, g')
    else firstDiff r r'

/-- Which item differs first: 0 none (R308). Where the checksums differ, the exchange of block hashes tells output from state. -/
def twinDiff (a b : TwinMsg) : Nat :=
  let part (m : TwinMsg) := (m.blocks.filter (fun x => x.1 / 2 ^ 32 == 1)).map (fun x => (x.1, x.2.1))
  if a.checksum != b.checksum then (if part a != part b then 1 else 2)
  else if a.status != b.status || a.detail != b.detail || a.outLen != b.outLen then 3
  else if a.nflags != b.nflags then 4
  else if a.digest != b.digest then 5
  else 0

/-- A paired task is judged against its twin's message (R308). The source of the event is the model's choice (log entry 57). -/
def State.judgeTwin (tid : Nat) (t : Task) (peer : TwinMsg) (s : State) : State :=
  let (st, detail) := t.final
  let mine := s.twinMsgOf t st detail
  if !comparable st || !comparable peer.status then
    let s := s.modRepro (fun r => { r with unpaired := wrap1 32 r.unpaired })
    (if st == 0 || st == 1 then s.writeBack t else s).complete tid t st detail
  else
    let s := s.modRepro (fun r => { r with compared := wrap1 32 r.compared })
    match twinDiff mine peer with
    | 0 => (if st == 0 || st == 1 then s.writeBack t else s).complete tid t st detail
    | d =>
      let (key, gl, gp) := (firstDiff mine.blocks peer.blocks).getD (0, 0, 0)
      let kind := key / 2 ^ 32
      let off := key % 2 ^ 32 * 512
      let s := s.modRepro (fun r =>
        { r with diverged := sat1 16 r.diverged, firstKind := kind, firstRoom := t.room, firstOff := off % 2 ^ 32,
                 gtcLocal := gl, gtcPeer := gp })
      (s.emit 0x90 9 2 t.tenant 3 [kind, off, gl, gp]).complete tid t 0x50 d

/-- The twin's comparison message, where it came before the task started here. -/
def State.earlyMsg (s : State) (q no : Nat) : Option TwinMsg :=
  (s.repro.early.find? (fun x => x.1 == q && x.2.1 == no)).map (·.2.2)

/-- The queue manager reads the input bytes not hashed inline (R303). -/
def State.askRefetch (tid : Nat) (t : Task) (s : State) : State :=
  match t.refetchAt with
  | some _ => s
  | none =>
    (s.modTask tid (fun t => { t with refetchAt := some (s.view 0x90) })).send
      (.hostRead t.tenant (dInAddr t.ent.raw + t.hashed.length) (dInLen t.ent.raw - t.hashed.length))

/-- The lead slot hands the record over once nothing of the task is outstanding. A paired task waits for its twin's
comparison first. -/
def State.handOver (n k : Nat) (s : State) : State :=
  let tid := (s.slot n k).task
  match s.task? tid with
  | none => s.freeSlotAt n k
  | some t =>
    if t.slots.all (fun y => (s.slot y.1 y.2).drained) && t.slots.tail.isEmpty && !t.comparing then
      let (st, detail) := t.final
      let alone (s : State) := (if st == 0 || st == 1 then s.writeBack t else s).complete tid t st detail
      if t.requeue then s.requeue tid t
      else if t.noRecord then s.complete tid t st detail
      else if t.digestDue st && t.hashed.length != dInLen t.ent.raw then s.askRefetch tid t
      else match t.ent.twin with
        | some no =>
          if s.repro.st == .paired then
            let s := (s.modTask tid (fun t => { t with comparing := true })).send
              (.twinCompare t.queue no (s.twinMsgOf t st detail))
            match t.peerMsg, s.earlyMsg t.queue no with
            | some p, _ => s.judgeTwin tid { t with comparing := true } p
            | none, some p =>
              (s.modRepro (fun r => { r with early := r.early.filter (fun x => !(x.1 == t.queue && x.2.1 == no)) })).judgeTwin tid
                { t with comparing := true } p
            | none, none => s
          else alone s
        | none => alone s
    else s

/-- TASK_END: an ENDING lead slot whose last writes are done. -/
def State.taskEnd (n k : Nat) (s : State) : State :=
  if (s.slot n k).st == .ending && s.isLead n k then s.handOver n k else s

/-- STOP_COMPLETE: a STOPPING slot that has drained is freed; with the last slot, the lead's, the task ends. -/
def State.stopComplete (n k : Nat) (s : State) : State :=
  let x := s.slot n k
  if x.st == .stopping && x.drained then
    if s.isLead n k then s.handOver n k
    else (s.freeSlotAt n k).modTask x.task (fun t => { t with slots := t.slots.filter (· != (n, k)) })
  else s

/-- STOP_REQUEST: a stop request that names no status of its own is that of a kill (R103). -/
def State.stopReq (n k : Nat) (s : State) : State :=
  let st := (s.slot n k).st
  if st == .ready || st == .running || st == .waiting then
    (if s.isLead n k then s.setStatus (s.slot n k).task 0x31 0 else s).stopSlot n k
  else s

/-! ### Commands -/

def execNop (queue : Nat) (s : State) : Answer := .next (s.nop queue)
def execStateZero (queue : Nat) (s : State) : Answer := .next (s.stateZero queue)
def execStopRequest (isl : IslN) (slot : SlotN) (s : State) : Answer := .next (s.stopReq isl slot)

end Sys2Proof.Machine
end

