-- ==== Sys2Proof/Machine/Flags.lean ====
section
/-! DEFINITION. Sticky flags and numeric traps (R213, R214). -/

namespace Sys2Proof.Machine

open Sys2Proof

/-- Engines of the flag layout (R213). -/
def engGrid : Nat := 0
def engVec : Nat := 1
def engSfu : Nat := 2
def engConv : Nat := 3

/-- Flags of an engine placed in the layout of R213. -/
def placeFlags (eng : Nat) (fl : Flags) : Word := BitVec.ofNat 64 (fl % 16 * 2 ^ (4 * eng))

/-- The lowest trapped flag among those set, by its bit position. -/
def trapped (traps : Nat) (w : Word) : Option Nat := (List.range 16).find? (fun i => bitOf w i && nbit traps (i % 4))

/-- Flags set in a slot, in its task and in the island's register; no trap judged (R213). -/
def State.stickFlags (n k : Nat) (w : Word) (s : State) : State :=
  let tid := (s.slot n k).task
  let s := s.modSlot n k (fun x => { x with nflags := x.nflags ||| w })
  (s.modIsl n (fun i => { i with nflags := i.nflags ||| w })).modTask tid (fun t => { t with nflags := t.nflags ||| w })

/-- An ending cause of an island's slot counted (R157). -/
def State.countEnded (n : Nat) (s : State) : State := s.modIsl n (fun i => { i with excEnded := wrap1 32 i.excEnded })

/-- POISONED or NUMERIC_TRAP of a slot's task, with the DETAIL of R151. -/
def State.endCause (n k status code : Nat) (s : State) : State := (s.countEnded n).slotFault n k status (code + n * 256)

/-- The event of a numeric trap: TVAL, then EPC. Its class, code and severity are not stated, so they are free (log entry 82). -/
def State.trapEvent (n k epc tval : Nat) (s : State) : State :=
  let ten := match s.task? (s.slot n k).task with | some t => t.tenant | none => noTenant
  let (v, s) := s.draw
  s.emit (0x10 + n) (v.toNat % 13) (v.toNat / 16 % 2 ^ 16) ten (v.toNat / 2 ^ 20 % 5) [tval, epc]

/-- Flags that an operation issued at `epc` has set: they stick, and a trapped one ends the task; TVAL names the lowest
(R213, R214). -/
def State.raiseFlags (n k epc : Nat) (w : Word) (s : State) : State :=
  let s := s.stickFlags n k w
  match s.task? (s.slot n k).task with
  | none => s
  | some t =>
    match trapped (s.numeric t.room).traps w with
    | none => s
    | some i => ((s.trapEvent n k epc i).modIsl n (fun i => { i with trapped := sat1 16 i.trapped })).endCause n k 0x21 0x11

/-- Poison consumed by a slot at an instruction: the event, the count of R338, and the end of the task (R335, Table 7-6). -/
def State.poisoned (n k epc tval : Nat) (s : State) : State :=
  let ten := match s.task? (s.slot n k).task with | some t => t.tenant | none => noTenant
  ((s.emit (0x10 + n) 3 2 ten 3 [epc, tval]).modIsl n
    (fun i => { i with shConsumed := sat1 16 i.shConsumed })).endCause n k 0x20 0x10

end Sys2Proof.Machine
end

