-- ==== Sys2Proof/Machine/Tags.lean ====
section
/-! DEFINITION. DMA tags and the data they bring: which tag a request takes, where its data land, when its response is
released, and when it completes (R139, R145, R295–R297, R303). -/

namespace Sys2Proof.Machine

open Sys2Proof

def State.tag? (s : State) (n k t : Nat) : Option Dma := NMap.find? (s.slot n k).tags t

def State.modTag (n k t : Nat) (f : Dma → Dma) (s : State) : State :=
  s.modSlot n k (fun x => match NMap.find? x.tags t with
    | some d => { x with tags := NMap.set x.tags t (f d) }
    | none => x)

/-- A request completes, with or without an error (R139). -/
def State.finishTag (n k t : Nat) (err : Bool) (s : State) : State :=
  s.modTag n k t (fun d => { d with done := true, err := err && !d.drop, held := none })

/-- Range-coding jobs given up with all their requests, wherever they run; the DMA writes that sent them are over. -/
def State.endJobs (p : Submit → Bool) (s : State) : State :=
  let s := ((s.eng.rceIn ++ s.eng.jobs.map (·.from_)).filter p).foldl (fun s x => s.finishTag x.isl x.slot x.tag false) s
  s.modEng (fun e =>
    let gone := (e.jobs.filter (fun j => p j.from_)).map (·.from_.ord)
    { e with rceIn := e.rceIn.filter (fun x => !p x)
             jobs := e.jobs.filter (fun j => !p j.from_)
             reqs := e.reqs.filter (fun r => !gone.contains r.job)
             rce := NMap.mapV e.rce (fun _ x => match x.run with
               | some r => if gone.contains r.job then { x with run := none } else x
               | none => x) })

/-- Tags that a new request may take: those no request holds, and those whose request has completed and owes no error. -/
def Slot.freeTags (x : Slot) : List Nat :=
  (List.range 8).filter (fun t => match NMap.find? x.tags t with
    | none => true
    | some d => d.done && !d.err)

/-- Input bytes hashed inline: a read that begins within the hashed prefix extends it; one that begins beyond its end leaves a
gap, and nothing is hashed inline from then on (R303). -/
def Task.hashRead (t : Task) (addr : Nat) (data : Bytes) : Task :=
  let off := addr - dInAddr t.ent.raw
  if !dDigest t.ent.raw || t.gap || decide (addr < dInAddr t.ent.raw) then t
  else if t.hashed.length < off then { t with gap := true }
  else if t.hashed.length < off + data.length then { t with hashed := t.hashed ++ data.drop (t.hashed.length - off) }
  else t

/-- A layer of a slot that a tied transfer of a direction belongs to (R256), waiting or running. -/
def Layer.takes (l : Layer) (n k : Nat) (out : Bool) : Bool := l.isl == n && l.slot == k && l.out == out

def State.modLayer (n k : Nat) (out : Bool) (f : Layer → Layer) (s : State) : State :=
  s.modEng (fun e =>
    { e with eleIn := e.eleIn.map (fun l => if l.takes n k out then f l else l)
             ele := NMap.mapV e.ele (fun _ x => { x with layer := x.layer.map (fun l => if l.takes n k out then f l else l) }) })

/-- The layer, if there is one: running first. -/
def State.layerOf (s : State) (n k : Nat) (out : Bool) : Option Layer :=
  ((s.eng.ele.filterMap (fun e => e.2.layer)) ++ s.eng.eleIn).find? (fun l => l.takes n k out)

/-- A request that R256 ties to an ELE. -/
def Dma.tied (d : Dma) : Bool := d.cls == 2 || d.cls == 6

/-- A tied transfer that its layer does not let through yet: a read while the ELE still reads the chunk before, a write
before the ELE has written the whole chunk, and either behind an earlier one of its kind (R256). -/
def State.tiedWaits (s : State) (n k : Nat) (d : Dma) : Bool :=
  d.tied && !d.drop
    && ((s.slot n k).tags.any (fun e => e.2.tied && e.2.write == d.write && !e.2.done && decide (e.2.ord < d.ord))
      || (match s.layerOf n k d.write with
        | some l => if d.write then l.filled == 0 else l.landed != 0
        | none => false))

/-- The read of a class 0 or 2 request leaves for the host. -/
def State.sendRead (n k : Nat) (d : Dma) (s : State) : State :=
  match s.task? (s.slot n k).task with
  | some tk => if !d.write && (d.cls == 0 || d.cls == 2) then s.send (.hostRead tk.tenant (d.far % 2 ^ 61) d.len) else s
  | none => s

/-- Tied transfers of a slot that nothing holds in the DMA unit any more go out (R256). -/
def State.tiedGo (n k : Nat) (s : State) : State :=
  (s.slot n k).tags.foldl (fun s e =>
    if e.2.waits && !s.tiedWaits n k e.2 then
      (s.modTag n k e.1 (fun d => { d with waits := false, issued := s.view (0x10 + n) })).sendRead n k e.2
    else s) s

/-- A tied write has taken the chunk from the raw buffer. -/
def State.tiedWritten (n k : Nat) (d : Dma) (s : State) : State :=
  if d.tied then s.modLayer n k true (fun l => { l with filled := 0 }) else s

/-- Data of a read land in the Shelf of the island that asked, unless its task has been stopped. -/
def State.landRead (n k : Nat) (d : Dma) (data : Bytes) (bad : List (Nat × Nat)) (s : State) : State :=
  if d.drop || d.write then s
  else
    let s := s.modShelf n (fun st => st.land wordB d.shelf data bad)
    let s := if d.tied then s.modLayer n k false (fun l => { l with landed := d.len }) else s
    if d.cls == 0 || d.cls == 2 then s.modTask (s.slot n k).task (fun t => t.hashRead (d.far % 2 ^ 61) data) else s

/-- A response takes effect: its data land and its tag completes. An error brings an ELE no chunk. -/
def State.landResp (n k t : Nat) (d : Dma) (data : Bytes) (bad : List (Nat × Nat)) (err : Bool) (s : State) : State :=
  (if d.tied && err then s else s.landRead n k d data bad).finishTag n k t err

/-- Release offset of a response (Table 14-4). -/
def State.releaseOffset (s : State) (d : Dma) (hops : Nat) : Nat :=
  let c := s.rwt offReproCfg
  if d.cls == 4 || d.cls == 6 then fld c 20 12 + 2 * cdiv d.len 64
  else if d.cls == 0 || d.cls == 2 then fld c 0 20 + 8 * cdiv d.len 512
  else fld c 32 12 * hops + 4 * cdiv d.len 1024

/-- A response arrives, with an error or without: at Level T it is held until its release, and one that comes later than its
release, or that refresh delays by more than 350 ns, breaks the room's timing; at other levels it lands at once (R295–R297). `stall` is a refresh stall; `retried` says that the link
retried it. -/
def State.respond (n k t : Nat) (d : Dma) (data : Bytes) (bad : List (Nat × Nat)) (err : Bool) (stall hops : Nat)
    (retried : Bool) (s : State) : State :=
  let land := fun (s : State) => (s.landResp n k t d data bad err).tiedGo n k
  match s.task? (s.slot n k).task with
  | none => land s
  | some tk =>
    let s := if stall != 0 then s.modTask (s.slot n k).task (fun t => { t with refreshHits := t.refreshHits + 1 }) else s
    if s.levelT tk.room && !d.drop then
      let s := s.modRoom tk.room (fun r => { r with refreshNs := r.refreshNs + stall })
      let now := s.view (0x10 + n)
      let base := d.issued + s.releaseOffset d hops
      let rel := base + stall
      let late := !retried && (if stall = 0 then decide (base < now) else decide (350 < stall) || decide (base + 350 < now))
      if now < rel then
        (if late then s.timingBreak tk.room 3 else s).modTag n k t (fun d =>
          { d with held := some { rel := rel, data := data, bad := bad, err := err } })
      else
        land (if late then s.timingBreak tk.room 3 else s)
    else land s

/-- A held response reaches its release instant (R295). -/
def State.release (n k t : Nat) (s : State) : State :=
  match s.tag? n k t with
  | some d =>
    match d.held with
    | some r =>
      if d.done || s.tiedWaits n k d then s
      else ((s.reach r.rel).landResp n k t d r.data r.bad r.err).tiedGo n k
    | none => s
  | none => s

/-- The completion timeout of a host read passes (R438): its tag completes with an error. -/
def State.completionTimeout (n k t : Nat) (s : State) : State :=
  match s.tag? n k t with
  | some d =>
    if !d.write && !d.done && !d.waits && d.held.isNone && (d.cls == 0 || d.cls == 2) then (s.finishTag n k t true).tiedGo n k
    else s
  | none => s

def execResponseRelease (isl : IslN) (slot : SlotN) (tag : Tag) (s : State) : Answer := .next (s.release isl slot tag)
def execCompletionTimeout (isl : IslN) (slot : SlotN) (tag : Tag) (s : State) : Answer :=
  .next (s.completionTimeout isl slot tag)

end Sys2Proof.Machine
end

