-- ==== Sys2Proof/Machine/Route.lean ====
section
/-! DEFINITION. How frames leave the device: routes inside a cell and between cells (R368–R370), virtual channels and
credits (R343–R345), pacing (R359), the retry buffer (R346), leaving a port that goes down (R349, R352, R362), and the
port maps that decide routes (R367, R372). -/

namespace Sys2Proof.Machine

open Sys2Proof

def linkPolOff : LinkPolCfg := { mode := 0, lanes := 16, protect := 0, retryUs := 0, rate := 0, peer := 0 }
def State.linkPol (s : State) (p : Nat) : LinkPolCfg := NMap.getD s.living.linkpols p linkPolOff
def LinkPolCfg.retry (c : LinkPolCfg) : Nat := if c.retryUs = 0 then 2000 else c.retryUs

def State.cellMode (s : State) : Nat := fld (s.rwt offCellCfg) 16 2
def State.cellMap (s : State) : Word := s.rwt offCellCfg
def State.ownMember (s : State) : Nat := s.cell.chip % 16

/-- The code of a port state (LINK_n_STATUS.STATE). -/
def PortSt.code : PortSt → Nat
  | .down => 0 | .training => 1 | .probation => 2 | .up => 3 | .quarantined => 4

/-- A lease timer: the GTC less its forward steps (R356). -/
def State.leaseNow (s : State) : Nat := s.clk.gtc - s.link.stepped

/-! ### Routes -/

/-- A port of a member is UP in this device's map. -/
def State.mapUp (s : State) (m p : Nat) : Bool :=
  if m == s.ownMember then (s.port p).st == .up
  else match NMap.find? s.cell.maps m with
    | some q => (q.ports[p]?).getD 0 == 3
    | none => false

/-- The cell port of dimension d joins two members of MAP and is UP. -/
def State.edge (s : State) (m d : Nat) : Bool :=
  s.mapUp m d && bitOf s.cellMap m && bitOf s.cellMap (m ^^^ 2 ^ d)
    && (m != s.ownMember || (s.linkPol d).mode == 1)

/-- Members at each distance from which `dst` can be reached, nearest first: four rounds of a 16-member search cover
every path of a hypercube with failed ports in at most 15 rounds. -/
def State.distRounds (s : State) : Nat → NMap Nat → NMap Nat
  | 0, d => d
  | n + 1, d =>
    s.distRounds n ((List.range 16).foldl (fun acc m =>
      if (NMap.find? d m).isSome then acc
      else
        let near := (List.range 4).filterMap (fun k => if s.edge m k then NMap.find? d (m ^^^ 2 ^ k) else none)
        match near with
        | [] => acc
        | x :: r => NMap.set acc m (r.foldl min x + 1)) d)

/-- Distance of every member to `dst`, in hops. -/
def State.distTo (s : State) (dst : Nat) : NMap Nat := s.distRounds 15 [(dst, 0)]

/-- The first hop toward a member: the lowest dimension on a shortest path, and the distance (R368). -/
def State.cellHop (s : State) (dst : Nat) : Option (Nat × Nat) :=
  let d := s.distTo dst
  match NMap.find? d s.ownMember with
  | none => none
  | some h =>
    ((List.range 4).find? (fun k => s.edge s.ownMember k && NMap.find? d (s.ownMember ^^^ 2 ^ k) == some (h - 1))).map
      (fun k => (k, h))

/-- The yard route entry of a cell (Table 17-4). -/
def State.yardEntry (s : State) (cell : Nat) : Word :=
  BitVec.ofNat 64 (fld (s.rwt (offYrt (cell / 2))) (32 * (cell % 2)) 32)

/-- The port toward an exit of a yard entry, if it can be used. -/
def State.exitVia (s : State) (m p : Nat) : Option Nat :=
  if !s.mapUp m (4 + p) then none
  else if m == s.ownMember then some (4 + p)
  else (s.cellHop m).map (·.1)

/-- Port and distance class toward a chip (R343, R368, R370); a twin partner is reached over the twin port. -/
def State.routeTo (s : State) (dst : Nat) : Option (Nat × Nat) :=
  let plain :=
    if dst / 16 == s.cell.chip / 16 then (s.cellHop (dst % 16)).map (fun x => (x.1, min (x.2 - 1) 3))
    else
      let e := s.yardEntry (dst / 16)
      let first := if bitOf e 0 then s.exitVia (fld e 4 4) (fld e 8 2) else none
      let other := if bitOf e 10 then s.exitVia (fld e 12 4) (fld e 16 2) else none
      match first, other with
      | some p, _ => some (p, 3)
      | none, some p => some (p, 3)
      | none, none => none
  match plain with
  | some r => some r
  | none =>
    ((List.range 8).find? (fun p => (s.port p).st == .up && (s.linkPol p).mode == 3 && (s.linkPol p).peer == dst)).map
      (fun p => (p, 0))

/-- Hops of the route to a chip, for release offsets (Table 14-4). -/
def State.hopsTo (s : State) (dst : Nat) : Nat :=
  if dst / 16 == s.cell.chip / 16 then match s.cellHop (dst % 16) with | some (_, h) => h | none => 1
  else max (fld (s.yardEntry (dst / 16)) 1 3) 1

/-! ### Sending -/

/-- Class of an opcode (Table 16-3). -/
def opClass (opc : Nat) : Nat :=
  if opc == 1 || opc == 3 then 0 else if opc == 2 || opc == 4 then 1 else if opc == 5 then 2 else 3

def Carry.opc : Carry → Nat
  | .txn o _ _ => o
  | .msg _ m => match m with
    | .lease o _ _ => o
    | _ => 6

def Carry.hdr : Carry → THdr
  | .txn _ t _ => t
  | .msg t _ => t

/-- Payload blocks: the data in units of 64 bytes; a message is taken as one block. -/
def Carry.blocks : Carry → Nat
  | .txn _ _ d => cdiv d.length 64
  | .msg _ _ => 1

/-- A remote address inside the device that it names. -/
def hdrLocal (t : THdr) : Nat := t.addr % 2 ^ 49

/-- The Shelf apertures of a device's T-islands (R379). -/
def apertureBase : Nat := 0x100000000000
def inAperture (a : Nat) : Bool := decide (apertureBase ≤ a) && decide (a < apertureBase + 64 * 0x200000)

/-- Bytes of the partner's rate bucket that a request to its exported windows takes: LEN, or 64 and LEN for a read; a
request to a Shelf aperture takes none (R358). -/
def Carry.cost : Carry → Nat
  | .txn 1 t _ => if inAperture (hdrLocal t) then 0 else 64 + t.len
  | .txn 3 t _ | .txn 5 t _ => if inAperture (hdrLocal t) then 0 else t.len
  | _ => 0

def LPort.hdr (l : LPort) (vc seq nblk poison : Nat) (prot : Bool) (crvc crcnt : Nat) : LHdr :=
  { vc := vc, seq := seq, ack := (l.rxSeq + 4095) % 4096, epoch := l.epoch % 256, nblk := nblk, prot := prot,
    poison := poison, crvc := crvc, crcnt := crcnt }

def LPort.live (l : LPort) : Bool := l.st == .probation || l.st == .up

/-- Blocks of a port's receive buffer set free: their credits go back at once (R344). -/
def State.freeBlocks (p vc n : Nat) (s : State) : State :=
  let s := s.modPort p (fun l => { l with rxUsed := NMap.upd l.rxUsed vc 0 (· - n) })
  if (s.port p).live then s.send (.frame p 2 ((s.port p).hdr 0 0 0 0 false vc n) none) else s

/-- The partner's bucket as it stands now (R359). -/
def LPort.bucketNow (l : LPort) (now : Nat) : Nat := min 65536 (l.bucket + l.peerRate * (now - l.bucketAt))

def State.canSend (s : State) (p : Nat) (h : Held) : Bool :=
  let l := s.port p
  l.st == .up && decide (h.nblk + 1 ≤ NMap.getD l.credits h.vc 0) && decide (l.retry.length < 1024)
    && (l.peerRate == 0 || l.peer != h.dst || decide (h.cost ≤ l.bucketNow s.clk.gtc))

/-- A frame sent for the first time on a port. -/
def State.transmit (p : Nat) (h : Held) (s : State) : State :=
  let l := s.port p
  let h' := { h with seq := l.txSeq, ctr := l.txCtr, replays := 0, via := none }
  let paced := l.peerRate != 0 && l.peer == h.dst && h.cost != 0
  let s := s.modPort p (fun l =>
    { l with txSeq := (l.txSeq + 1) % 4096, txCtr := (l.txCtr + 1) % 2 ^ 64, retry := l.retry ++ [h']
             credits := NMap.upd l.credits h.vc 0 (· - (h.nblk + 1)), txBlocks := (l.txBlocks + h.nblk) % 2 ^ 32
             bucket := if paced then l.bucketNow s.clk.gtc - h.cost else l.bucket
             bucketAt := if paced then s.clk.gtc else l.bucketAt })
  let s := s.send (.frame p 1 (l.hdr h.vc l.txSeq h.nblk h.poison ((s.linkPol p).protect == 1) 0 0) (some h.what))
  match h.via with
  | some (q, vc) => s.freeBlocks q vc (h.nblk + 1)
  | none => s

/-- A frame for a port goes out, or waits behind the frames of its channel (R344). -/
def State.offer (p : Nat) (s : State) (h : Held) : State :=
  if (s.port p).wait.all (fun w => w.vc != h.vc) && s.canSend p h then s.transmit p h
  else s.modPort p (fun l => { l with wait := l.wait ++ [h] })

/-- Frames that wait at a port are tried again, in order. -/
def State.pump (p : Nat) (s : State) : State :=
  let ws := (s.port p).wait
  ws.foldl (fun s h => s.offer p h) (s.modPort p (fun l => { l with wait := [] }))

/-- Bits of the blocks that poisoned parts touch. -/
def poisonBits (bad : List (Nat × Nat)) : Nat :=
  ((List.range 8).filter (fun b => bad.any (fun x => decide (x.1 < 64 * b + 64) && decide (64 * b < x.1 + x.2)))).foldl
    (fun n b => n + 2 ^ b) 0

/-- A frame routed to its destination; without a route it waits (R362, R368, R370). A transit frame whose route leads
back out on the port it came by waits too. -/
def State.dispatchHeld (s : State) (h : Held) : State :=
  let strand := s.modLink (fun l => { l with stranded := l.stranded ++ [h] })
  match s.routeTo h.dst with
  | none => strand
  | some (p, dist) =>
    if (match h.via with | some (q, _) => q == p | none => false) then strand
    else s.offer p { h with vc := 4 * opClass h.what.opc + dist }

def State.sendCarry (dst poison : Nat) (task : Option Nat) (via : Option (Nat × Nat)) (c : Carry) (s : State) : State :=
  s.dispatchHeld { seq := 0, vc := 0, nblk := c.blocks, poison := poison, ctr := 0, replays := 0, dst := dst, cost := if via.isNone then c.cost else 0,
                   task := task, via := via, what := c }

def State.retryStranded (s : State) : State :=
  let hs := s.link.stranded
  hs.foldl (fun s h => s.dispatchHeld h) (s.modLink (fun l => { l with stranded := [] }))

/-- Header of a message or lease frame to a chip. -/
def State.msgHdr (s : State) (dst : Nat) (status : Nat) : THdr :=
  { status := status, len := 0, src := s.cell.chip, tag := 0, e2e := 0, addr := dst * 2 ^ 49 }

def State.sendMsg (dst : Nat) (m : LMsg) (s : State) : State := s.sendCarry dst 0 none none (.msg (s.msgHdr dst 0) m)

/-- Next end-to-end number to a chip (R353). -/
def State.nextE2e (dst : Nat) (s : State) : Nat × State :=
  let n := NMap.getD s.link.txE2e dst 0
  (n, s.modLink (fun l => { l with txE2e := NMap.set l.txE2e dst ((n + 1) % 2 ^ 32) }))

/-! ### Port maps, leader and parent (R367, R372) -/

def State.reachable (s : State) : List Nat :=
  let own := s.ownMember
  (List.range 16).filter (fun m => m == own || (bitOf s.cellMap m && (s.cellHop m).isSome))

def State.ownPorts (s : State) : List Nat := (List.range 8).map (fun p => (s.port p).st.code)

/-- Port-map messages to every member that can be reached. -/
def State.sendMaps (s : State) : State :=
  ((s.reachable).filter (· != s.ownMember)).foldl (fun s m =>
    s.sendMsg (s.cell.chip / 16 * 16 + m) (.portMap s.cell.chip s.cell.ver s.ownPorts)) s

/-! ### Alignment states (R373, R376) -/

/-- An ascending list with one more element. -/
def insI (x : Int) : List Int → List Int
  | [] => [x]
  | y :: r => if x ≤ y then x :: y :: r else y :: insI x r

/-- The median; of an even count, the mean of the two in the middle, rounded down. -/
def median (l : List Int) : Int :=
  let v := l.foldl (fun a x => insI x a) []
  let n := v.length
  if n % 2 = 1 then v.getD (n / 2) 0 else (v.getD (n / 2 - 1) 0 + v.getD (n / 2) 0) / 2

/-- The offset of the parent: median of the last 8 values of θ. -/
def State.thetaHat (s : State) : Int := median s.cell.thetas

def State.isLeader (s : State) : Bool := s.cell.pport.isNone

/-- The lowest-numbered member of MAP. -/
def State.lowestMember (s : State) : Nat := ((bitsOf 16 s.cellMap).head?).getD 0

/-- Locked to PTP within 200 ns. -/
def State.ptpGood (s : State) : Bool := s.cell.ptpLock && decide (s.cell.ptpOffs.natAbs ≤ 200)

/-- θ̂ is known and within 20 ns. -/
def State.thetaGood (s : State) : Bool := !s.cell.thetas.isEmpty && decide (s.thetaHat.natAbs ≤ 20)

/-- The state that Table 17-2 gives next: 0 SOLO, 1 CELL, 2 YARD, 3 HOLDOVER. -/
def State.alignNext (s : State) : Nat :=
  let a := s.clk.align
  let mode := s.cellMode
  let level := if s.cell.leaderLevel = 2 then 2 else 1
  if a = 0 || mode = 0 || s.clk.refLost then a
  else if a = 3 then
    if s.isLeader then
      (if mode = 1 && s.cell.leader == s.lowestMember then 1 else if mode = 2 && s.ptpGood then 2 else 3)
    else if s.thetaGood then level else 3
  else if s.isLeader then
    (if a = 1 && mode = 1 && s.cell.leader != s.lowestMember then 3 else if a = 2 && !s.cell.ptpLock then 3 else a)
  else if (match s.cell.parentAt with | some g => !s.thetaGood && decide (g + 1000000 < s.clk.gtc) | none => false) then 3
  else if a = 2 && s.cell.leaderLevel != 2 then 1
  else if a = 1 && mode = 2 && s.cell.leaderLevel = 2 then 2
  else a

/-- ALIGN follows Table 17-2; a change is told to the members that can be reached. -/
def State.alignEval (s : State) : State :=
  let s := if s.thetaGood then s.modCell (fun c => { c with parentAt := none }) else s
  let a := s.alignNext
  if a = s.clk.align then s
  else
    let s := s.modClk (fun c => { c with align := a })
    ((s.reachable).filter (· != s.ownMember)).foldl (fun s m =>
      s.sendMsg (s.cell.chip / 16 * 16 + m) (.align s.cell.chip a)) s

/-- Routes, leader and parent computed again (R367, R372); a change of parent starts θ̂ afresh. -/
def State.recompute (s : State) : State :=
  let reach := s.reachable
  let own := s.ownMember
  let on := s.cellMode == 1 || s.cellMode == 2
  let leader := if on then reach.foldl min own else 0
  let hop := if on && leader != own then s.cellHop leader else none
  let pport := hop.map (·.1)
  let parent := match pport with | some d => own ^^^ 2 ^ d | none => if on then own else 0
  let s := s.modCell (fun c =>
    { c with leader := leader, parent := parent, pport := pport
             reach := (wordOf 16 (fun m => reach.contains m && bitOf s.cellMap m)).toNat
             thetas := if c.pport == pport then c.thetas else []
             parentAt := if c.pport == pport then c.parentAt else some s.clk.gtc })
  (s.retryStranded).alignEval

/-- A change of one of this device's port states (R367). -/
def State.portChanged (s : State) : State :=
  ((s.modCell (fun c => { c with ver := c.ver + 1, applied := wrap1 16 c.applied })).recompute).sendMaps

/-! ### Leaving a port (R349, R352, R362) -/

/-- The task whose transaction a frame carries met a retry or a reroute (R346, R362). -/
def State.countRetry (h : Held) (s : State) : State :=
  match h.task with
  | some tid =>
    match s.task? tid with
    | some t => (s.modTask tid (fun t => { t with linkRetries := t.linkRetries + 1 })).modRoom t.room
        (fun r => { r with retries := wrap1 32 r.retries })
    | none => s
  | none => s

/-- Everything a port holds is sent again on the route that is left (R362). -/
def State.reroute (p : Nat) (s : State) : State :=
  let hs := (s.port p).retry ++ (s.port p).wait
  hs.foldl (fun s h => (s.countRetry h).dispatchHeld h) (s.modPort p (fun l => { l with retry := [], wait := [] }))

def State.revoke (p : Nat) (s : State) : State :=
  s.modLink (fun l => { l with granted := l.granted.filter (·.port != p), held := l.held.filter (·.port != p) })

/-- A port enters QUARANTINED (Table 16-4). -/
def State.quarantine (p cause : Nat) (s : State) : State :=
  let s := (s.modPort p (fun l => { l with st := .quarantined, qcause := cause, lanesUp := 0 })).emit
    (0x70 + p) 6 3 noTenant 3 [cause]
  ((s.revoke p).portChanged).reroute p

/-- A port enters DOWN; from PROBATION or UP too often within 1 s it enters QUARANTINED instead (R349). -/
def State.goDown (p cause : Nat) (s : State) : State :=
  let l := s.port p
  let now := s.clk.gtc
  let recent := if l.live then (l.downs.filter (fun g => decide (now < g + 1000000000))) ++ [now] else l.downs
  let limit := fld (s.rwt (offLinkCfg p)) 24 4
  if l.live && decide (limit < recent.length) then (s.modPort p (fun l => { l with downs := recent })).quarantine p 4
  else
    let s := s.modPort p (fun l => { l with st := .down, dcause := cause, lanesUp := 0, downs := recent })
    ((s.emit (0x70 + p) 6 2 noTenant 2 [cause]).portChanged).reroute p

/-- A violation of R352: 0 BAD_FRAME, 1 CREDIT_CLAIM, 2 CREDIT_OVERRUN, 3 REPLAY, 4 TAG, 5 WINDOW, 6 RATE. -/
def State.violation (p kind : Nat) (s : State) : State :=
  let now := s.clk.gtc
  let s := s.modPort p (fun l =>
    { l with viol := setAt l.viol kind (sat1 8 ((l.viol[kind]?).getD 0))
             violAt := (l.violAt.filter (fun g => decide (now < g + 1000000))) ++ [now]
             tagRun := if kind = 4 then l.tagRun + 1 else l.tagRun })
  let s := s.emit (0x70 + p) 6 1 noTenant 2 [p, kind]
  let l := s.port p
  if !l.live then s
  else if kind = 4 ∧ 4 ≤ l.tagRun then s.quarantine p 2
  else if fld (s.rwt (offLinkCfg p)) 16 8 ≤ l.violAt.length then s.quarantine p 1
  else s

/-- A NAK naming the next SEQ expected (R342). -/
def State.sendNak (p : Nat) (s : State) : State :=
  (s.modPort p (fun l => { l with naks := wrap1 32 l.naks })).send (.nak p (s.port p).rxSeq)

end Sys2Proof.Machine
end

