-- ==== Sys2Proof/Machine/Link.lean ====
section
/-! DEFINITION. Hatal Link (R339–R364): port states and training, frames received, retry, transactions served and
answered, leases on exported windows, and the requests that tasks make of other devices. -/

namespace Sys2Proof.Machine

open Sys2Proof

/-! ### Acknowledgement and credits (R344–R346) -/

/-- Credits returned on a channel, clamped to the partner's pool (R345). -/
def State.takeCredits (p vc n : Nat) (s : State) : State :=
  let l := s.port p
  let have_ := NMap.getD l.credits vc 0
  let pool := NMap.getD l.pool vc 0
  let s := s.modPort p (fun l => { l with credits := NMap.set l.credits vc (min (have_ + n) pool) })
  if pool < have_ + n then
    (s.modPort p (fun l => { l with excess := NMap.upd l.excess vc 0 (fun x => sat 32 (x + (have_ + n - pool))) })).violation p 1
  else s

/-- Frames up to the acknowledged one leave the retry buffer. -/
def State.takeAck (p ack : Nat) (s : State) : State :=
  s.modPort p (fun l => { l with retry := l.retry.filter (fun f => decide (2048 ≤ (ack + 4096 - f.seq) % 4096)) })

/-- What every frame of the current epoch carries. -/
def State.takeHdr (p : Nat) (h : LHdr) (s : State) : State :=
  let s := s.takeAck p h.ack
  let s := if h.crcnt = 0 then s else s.takeCredits p h.crvc h.crcnt
  s.pump p

/-- A frame of another epoch is discarded and counted (R342). -/
def State.staleFrame (p : Nat) (s : State) : State := s.modPort p (fun l => { l with stale := wrap1 32 l.stale })

/-- Own pool of every channel (R344). -/
def ownPool : Nat := 1024

/-- A data frame: discarded, held back for a replay, sent on in transit, or handed to `deliver` (R342–R346). -/
def State.recvData (p : Nat) (h : LHdr) (dst : Nat) (c : Carry) (deliver : State → State) (s : State) : State :=
  let l := s.port p
  if !l.live then s
  else if h.epoch != l.epoch % 256 then s.staleFrame p
  else if 8 < h.nblk || 16 ≤ h.vc || (h.prot != ((s.linkPol p).protect == 1))
      || (match c with | .txn _ _ d => h.nblk != cdiv d.length 64 | _ => false) then (s.sendNak p).violation p 0
  else
    let s := s.takeHdr p h
    let l := s.port p
    if l.st != .up || h.seq != l.rxSeq then
      (if decide ((h.seq + 4096 - l.rxSeq) % 4096 < 2048) then s.sendNak p else s)
    else if ownPool < NMap.getD l.rxUsed h.vc 0 + h.nblk + 1 then (s.sendNak p).violation p 2
    else
      let s := s.modPort p (fun l =>
        { l with rxSeq := (l.rxSeq + 1) % 4096, tagRun := 0, rxBlocks := (l.rxBlocks + h.nblk) % 2 ^ 32
                 rxUsed := NMap.upd l.rxUsed h.vc 0 (· + (h.nblk + 1)) })
      if dst != s.cell.chip then s.sendCarry dst h.poison none (some (p, h.vc)) c
      else deliver (s.freeBlocks p h.vc (h.nblk + 1))

/-- Chip that a request or message goes to, and that a response goes to. -/
def hdrTo (t : THdr) : Nat := t.addr / 2 ^ 49 % 2 ^ 15

/-- Poisoned parts of the data of a frame. -/
def badOf (poison len : Nat) : List (Nat × Nat) :=
  ((List.range 8).filter (fun b => nbit poison b && decide (64 * b < len))).map (fun b => (64 * b, min 64 (len - 64 * b)))

/-! ### End-to-end numbers (R353) -/

/-- How an arriving number is handled: accepted, or seen before, or outside the window. -/
inductive Seen where
  | fresh | again | outside
  deriving DecidableEq, Repr

/-- A number checked and recorded; the first number from a source is accepted. -/
def State.checkE2e (src n : Nat) (s : State) : Seen × State :=
  match NMap.find? s.link.rxE2e src with
  | none => (.fresh, s.modLink (fun l => { l with rxE2e := NMap.set l.rxE2e src { high := n, seen := [n] } }))
  | some e =>
    let ahead := (n + 2 ^ 32 - e.high) % 2 ^ 32
    let back := (e.high + 2 ^ 32 - n) % 2 ^ 32
    if 0 < ahead && decide (ahead < 2 ^ 31) then
      let e' : E2e := { high := n, seen := n :: e.seen.filter (fun x => decide ((n + 2 ^ 32 - x) % 2 ^ 32 < 4096)) }
      (.fresh, s.modLink (fun l => { l with rxE2e := NMap.set l.rxE2e src e' }))
    else if decide (back < 4096) then
      if e.seen.contains n then (.again, s)
      else (.fresh, s.modLink (fun l => { l with rxE2e := NMap.set l.rxE2e src { e with seen := n :: e.seen } }))
    else (.outside, s)

/-! ### Serving requests (R355–R358, R379) -/

/-- A store into a Shelf aperture: the island and address, where a task of the sender's span holds those pages (R379). -/
def State.aperture (s : State) (src a len : Nat) : Option (Nat × Nat) :=
  let n := (a - apertureBase) / 0x200000
  let off := (a - apertureBase) % 0x200000
  match s.roomOf n with
  | none => none
  | some m =>
    let cfg := s.rwt (offSpanCfg m)
    let inSpan := bitOf cfg 24 && (List.range (fld cfg 16 4 + 1)).any (fun k => fld (s.rwt (offSpanDev m k)) 0 15 == src)
    let pages := (s.island n).held
    if inSpan && decide (off + len ≤ 0x200000) && (unitsOf 4096 off len).all pages.contains then some (n, off) else none

/-- The exported window that holds a range and admits its sender. -/
def State.exported (s : State) (src a len : Nat) : Option (Nat × WindowCfg) :=
  s.living.windows.find? (fun e => e.2.kind == 2 && decide (e.2.base ≤ a) && decide (a + len ≤ e.2.base + e.2.size)
    && (e.2.peer == 0xFFFF || e.2.peer == src))

/-- A lease that this device has granted and that has not run out. -/
def State.leased (s : State) (src win : Nat) : Bool :=
  s.link.granted.any (fun l => l.chip == src && l.win == win && decide (s.leaseNow < l.expiry))

def LPort.masterBucket (l : LPort) (src rate now : Nat) : Nat :=
  match NMap.find? l.buckets src with
  | some (b, g) => min 65536 (b + rate * (now - g))
  | none => 65536

/-- STATUS of a request to Cellar storage: 0 served, 1 NO_WINDOW, 2 ACCESS, 3 NO_LEASE, 4 RATE. -/
def State.requestStatus (s : State) (p src a len : Nat) (wr : Bool) : Nat :=
  match s.exported src a len with
  | none => 1
  | some (w, c) =>
    if !nbit c.access (b2n wr) then 2
    else if !s.leased src w then 3
    else
      let r := (s.linkPol p).rate
      let cost := if wr then len else 64 + len
      if r != 0 && decide ((s.port p).masterBucket src r s.clk.gtc < cost) then 4 else 0

/-- A refused request: the violation, REMOTE_VIOL of the tenant whose window the address falls in, and the lowest
address refused for want of a lease (R355, R357, R358). -/
def State.refuse (p st a : Nat) (s : State) : State :=
  let s := s.violation p (if st = 4 then 6 else 5)
  let s := if st = 3 then
      s.modPort p (fun l => { l with lastAddr := some (match l.lastAddr with | some x => min x a | none => a) })
    else s
  if st = 4 then s
  else match s.living.windows.find? (fun e => decide (e.2.base ≤ a) && decide (a < e.2.base + e.2.size)) with
    | some (_, c) => s.remoteViol (0x70 + p) c.tenant a
    | none => s

/-- The bucket of a remote master after a request it was served (R358). -/
def State.spend (p src cost : Nat) (s : State) : State :=
  let r := (s.linkPol p).rate
  if r = 0 then s
  else s.modPort p (fun l =>
    { l with buckets := NMap.set l.buckets src (l.masterBucket src r s.clk.gtc - cost, s.clk.gtc) })

/-- A response to a request. -/
def State.answer (t : THdr) (opc st : Nat) (data : Bytes) (poison : Nat) (s : State) : State :=
  s.sendCarry t.src poison none none (.txn opc { t with status := st, len := data.length, e2e := 0 } data)

/-- READ (R355, R361). -/
def State.serveRead (p : Nat) (t : THdr) (s : State) : State :=
  let (seen, s) := s.checkE2e t.src t.e2e
  if seen = .outside then s.violation p 3
  else
    let st := if inAperture (hdrLocal t) then 1 else s.requestStatus p t.src (hdrLocal t) t.len false
    if st = 0 then
      let d := s.cellarRead (hdrLocal t) t.len
      let bad := s.cellar.store.badIn lineB (hdrLocal t) t.len
      let s := (s.spend p t.src (64 + t.len)).countLines false (hdrLocal t) t.len
      s.answer t 2 (if bad.isEmpty then 0 else 6) d (poisonBits bad)
    else (s.refuse p st (hdrLocal t)).answer t 2 st [] 0

/-- WRITE or COLL: applied whole once, or refused whole (R353, R355, R357). -/
def State.serveWrite (p : Nat) (h : LHdr) (t : THdr) (data : Bytes) (s : State) : State :=
  let (seen, s) := s.checkE2e t.src t.e2e
  match seen with
  | .outside => s.violation p 3
  | .again => (s.modPort p (fun l => { l with dup := wrap1 32 l.dup })).answer t 4 5 [] 0
  | .fresh =>
    let d := fit t.len data
    let bad := badOf h.poison t.len
    if inAperture (hdrLocal t) then
      match s.aperture t.src (hdrLocal t) t.len with
      | some (n, off) => (s.modShelf n (fun st => st.land wordB off d bad)).answer t 4 0 [] 0
      | none => (s.refuse p 1 (hdrLocal t)).answer t 4 1 [] 0
    else
      let st := s.requestStatus p t.src (hdrLocal t) t.len true
      if st = 0 then ((s.spend p t.src t.len).cellarLand (hdrLocal t) d bad).answer t 4 0 [] 0
      else (s.refuse p st (hdrLocal t)).answer t 4 st [] 0

/-! ### Leases, the grantor's side (R356) -/

def leaseUs (c : WindowCfg) : Nat := if c.leaseUs = 0 then 1000 else c.leaseUs

/-- Header of a lease answer: the requester's tag is echoed (Table 16-2). -/
def State.echoHdr (s : State) (t : THdr) (status : Nat) : THdr := { s.msgHdr t.src status with tag := t.tag }

/-- LEASE_REQ: granted for an exported window that admits the sender. -/
def State.serveLease (p : Nat) (t : THdr) (win : Nat) (s : State) : State :=
  match NMap.find? s.living.windows win with
  | some c =>
    if c.kind == 2 && (c.peer == 0xFFFF || c.peer == t.src) then
      let l : Lease := { chip := t.src, win := win, expiry := s.leaseNow + leaseUs c * 1000, port := p, us := leaseUs c,
                         sent := [], granted := true, used := s.leaseNow }
      (s.modLink (fun k =>
        { k with granted := (k.granted.filter (fun x => !(x.chip == t.src && x.win == win))) ++ [l] })).sendCarry
        t.src 0 none none (.msg (s.echoHdr t 0) (.lease 0x11 [win] (leaseUs c)))
    else (s.violation p 5).sendCarry t.src 0 none none (.msg (s.echoHdr t 1) (.lease 0x11 [win] 0))
  | none => (s.violation p 5).sendCarry t.src 0 none none (.msg (s.echoHdr t 1) (.lease 0x11 [win] 0))

/-- LEASE_RENEW: every lease named that has not run out starts again. -/
def State.serveRenew (t : THdr) (wins : List Nat) (s : State) : State :=
  let now := s.leaseNow
  let hit := fun (l : Lease) => l.chip == t.src && wins.contains l.win && decide (now < l.expiry)
  let done := (s.link.granted.filter hit).map (·.win)
  (s.modLink (fun k => { k with granted := k.granted.map (fun l =>
    if hit l then { l with expiry := now + l.us * 1000 } else l) })).sendCarry
    t.src 0 none none (.msg (s.echoHdr t 0) (.lease 0x13 done 0))

def State.serveRelease (t : THdr) (win : Nat) (s : State) : State :=
  s.modLink (fun k => { k with granted := k.granted.filter (fun l => !(l.chip == t.src && l.win == win)) })

/-! ### Requests of this device's tasks (R140, R354, R356) -/

def State.heldLease? (s : State) (chip win : Nat) : Option Lease :=
  s.link.held.find? (fun l => l.chip == chip && l.win == win)

def State.modHeld (chip win : Nat) (f : Lease → Lease) (s : State) : State :=
  s.modLink (fun k => { k with held := k.held.map (fun l => if l.chip == chip && l.win == win then f l else l) })

/-- One request leaves; a write takes its data from the Shelf now. -/
def State.sendReq (r : RemReq) (s : State) : State :=
  let (e, s) := s.nextE2e r.chip
  let shelf := (s.island r.isl).shelf
  let data := if r.write then shelf.read r.shelf r.len else []
  let bad := if r.write then (shelf.badIn wordB r.shelf r.len) else []
  let port := match s.routeTo r.chip with | some (p, _) => p | none => r.port
  let s := s.modLink (fun k => { k with reqs := k.reqs.map (fun x =>
    if x.tag = r.tag then { x with sent := true, port := port } else x) })
  let s := s.modHeld r.chip r.win (fun l => { l with used := s.leaseNow })
  s.sendCarry r.chip (poisonBits bad) (some r.task) none
    (.txn r.opc { status := 0, len := r.len, src := s.cell.chip, tag := r.tag, e2e := e, addr := r.chip * 2 ^ 49 + r.addr } data)

/-- One part of a remote request is answered: status 0, 5 and 6 are no error; NO_LEASE ends the task (R353–R355). Of a
read that met an error nothing lands (DESIGN CHOICE, log entry 43). -/
def State.partDone (r : RemReq) (st : Nat) (data : Bytes) (bad : List (Nat × Nat)) (s : State) : State :=
  let s := s.modLink (fun k => { k with reqs := k.reqs.filter (fun x => x.tag != r.tag) })
  match s.tag? r.isl r.slot r.dtag with
  | none => s
  | some d =>
    if d.done || d.held.isSome || d.lost || (s.slot r.isl r.slot).task != r.task then s
    else
      let off := r.shelf - d.shelf
      let d' := { d with
        moved := d.moved + r.len, err := d.err || !(st == 0 || st == 5 || st == 6)
        buf := if d.write then [] else patch (fit d.len d.buf) off (fit r.len data)
        bufBad := d.bufBad ++ bad.map (fun x => (off + x.1, x.2)) }
      let s := s.modTag r.isl r.slot r.dtag (fun _ => d')
      let s := if d'.moved < d.len then s
        else s.respond r.isl r.slot r.dtag d' (if d'.err then [] else d'.buf)
          (if d'.err then [] else d'.bufBad ++ d'.meshBad) d'.err 0 (s.hopsTo r.chip) d'.retried
      if st = 3 then s.slotFault r.isl r.slot 0x41 0 else s

/-- READ_RESP or WRITE_ACK: the first response to each TAG counts. -/
def State.onResponse (t : THdr) (data : Bytes) (poison : Nat) (s : State) : State :=
  match s.link.reqs.find? (fun r => r.tag == t.tag && r.sent) with
  | some r => s.partDone r t.status data (badOf poison r.len)
  | none => s

/-- A lease-less request to an exported window asks for a lease, once (R356). -/
def State.askLease (chip win addr : Nat) (s : State) : State :=
  match s.heldLease? chip win with
  | some _ => s
  | none =>
    let port := match s.routeTo chip with | some (p, _) => p | none => 0
    let tag := s.link.nextTag
    let l : Lease := { chip := chip, win := win, expiry := 0, port := port, us := 0, sent := [(tag, s.leaseNow)], granted := false,
                       used := s.leaseNow }
    (s.modLink (fun k => { k with held := k.held ++ [l], nextTag := wrap1 16 k.nextTag })).sendCarry chip 0 none none
      (.msg { s.msgHdr chip 0 with tag := tag, addr := chip * 2 ^ 49 + addr } (.lease 0x10 [win] 0))

/-- A DMA request to another device, in requests of at most 512 bytes (R140). -/
def State.remoteIssue (n k dtag : Nat) (d : Dma) (coll : Bool) (s : State) : State :=
  let addr := d.far % 2 ^ 49
  let win := (Config.remoteWin d.chip addr).toNat
  let direct := inAperture addr
  let lease := s.heldLease? d.chip win
  let live := match lease with | some l => l.granted && decide (s.leaseNow < l.expiry) | none => false
  let lapsed := match lease with | some l => l.granted && decide (l.expiry ≤ s.leaseNow) | none => false
  if !direct && lapsed then (s.finishTag n k dtag false).slotFault n k 0x41 0
  else
    let s := if direct || live then s else s.askLease d.chip win addr
    (List.range (cdiv d.len 512)).foldl (fun s i =>
      let len := min 512 (d.len - 512 * i)
      let r : RemReq :=
        { tag := s.link.nextTag, chip := d.chip, opc := if coll then 5 else if d.write then 3 else 1, addr := addr + 512 * i,
          len := len, port := 0, isl := n, slot := k, task := (s.slot n k).task, dtag := dtag, shelf := d.shelf + 512 * i,
          win := win, sent := false, write := d.write }
      let s := s.modLink (fun l => { l with nextTag := wrap1 16 l.nextTag, reqs := l.reqs ++ [r] })
      if direct || live then s.sendReq r else s) s

/-- Expiry on the holder's side: from the send of the request or renewal that was answered (R356). -/
def holderExpiry (sent us : Nat) : Nat := sent + us * 1000 - us * 1000 / 1024 - 2000

def State.waitingOn (s : State) (chip win : Nat) : List RemReq :=
  s.link.reqs.filter (fun r => r.chip == chip && r.win == win && !r.sent)

/-- An answer with a tag: the lease runs on from the send it answers, and older ones count no more. -/
def Lease.answered (l : Lease) (tag : Nat) : Option Lease :=
  (l.sent.find? (fun x => x.1 == tag)).map (fun x =>
    { l with expiry := holderExpiry x.2 l.us, sent := l.sent.filter (fun y => decide (x.2 < y.2)) })

/-- LEASE_GRANT: the lease, and the requests that waited; a refusal fails them (R355, R356). -/
def State.onGrant (t : THdr) (chip win us : Nat) (s : State) : State :=
  match s.heldLease? chip win with
  | some l =>
    match { l with granted := true, us := us }.answered t.tag with
    | none => s
    | some l =>
      let rs := s.waitingOn chip win
      if t.status = 0 then
        let s := s.modHeld chip win (fun _ => l)
        rs.foldl (fun s r => s.sendReq r) s
      else
        let s := s.modLink (fun k => { k with held := k.held.filter (fun x => !(x.chip == chip && x.win == win)) })
        rs.foldl (fun s r => s.partDone r t.status [] []) s
  | none => s

/-- LEASE_ACK: the leases of the grantor that it names run on from the renewal's send. -/
def State.onLeaseAck (t : THdr) (wins : List Nat) (s : State) : State :=
  s.modLink (fun k => { k with held := k.held.map (fun l =>
    if l.chip == t.src && wins.contains l.win && l.granted then (l.answered t.tag).getD l else l) })

/-- LEASE_RENEW_TIMER: one renewal covers every lease held at a grantor. -/
def State.renewTimer (chip : Nat) (s : State) : State :=
  let ls := s.link.held.filter (fun l => l.chip == chip && l.granted)
  if ls.isEmpty then s
  else
    let tag := s.link.nextTag
    let s' := s.modLink (fun k => { k with nextTag := wrap1 16 k.nextTag, held := k.held.map (fun l =>
      if l.chip == chip && l.granted then { l with sent := l.sent ++ [(tag, s.leaseNow)] } else l) })
    s'.sendCarry chip 0 none none (.msg { s.msgHdr chip 0 with tag := tag } (.lease 0x12 (ls.map (·.win)) 0))

/-- LEASE_EXPIRY: the side's lease is over; tasks that still need it end (R356). -/
def State.leaseExpiry (grantor : Bool) (chip win : Nat) (s : State) : State :=
  let here := fun (l : Lease) => l.chip == chip && l.win == win && l.granted
  if grantor then
    match s.link.granted.find? here with
    | some l =>
      let s := s.reach (l.expiry + s.link.stepped)
      (s.modLink (fun k => { k with granted := k.granted.filter (fun x => !here x) })).modPort l.port
        (fun p => { p with expired := sat1 16 p.expired })
    | none => s
  else
    match s.link.held.find? here with
    | some l =>
      let s := s.reach (l.expiry + s.link.stepped)
      let rs := s.waitingOn chip win
      let s := (s.modLink (fun k => { k with held := k.held.filter (fun x => !here x) })).modPort l.port
        (fun p => { p with expired := sat1 16 p.expired })
      rs.foldl (fun s r => s.partDone r 3 [] []) s
    | none => s

/-- LEASE_IDLE_RELEASE: a held lease without requests for LEASE_US is released on both sides. -/
def State.leaseIdle (chip win : Nat) (s : State) : State :=
  match s.heldLease? chip win with
  | some l =>
    if l.granted then
      (s.modLink (fun k => { k with held := k.held.filter (fun x => !(x.chip == chip && x.win == win)) })).sendCarry chip 0 none
        none (.msg (s.msgHdr chip 0) (.lease 0x14 [win] 0))
    else s
  | none => s

/-- REMOTE_REQ_TIMEOUT: the task ends with LINK_LOST, DETAIL the port (R354). -/
def State.remoteTimeout (tag : Nat) (s : State) : State :=
  match s.link.reqs.find? (fun r => r.tag == tag) with
  | some r =>
    let live := (s.slot r.isl r.slot).task == r.task
    let s := s.partDone r 1 [] []
    if live then s.slotFault r.isl r.slot 0x40 r.port else s
  | none => s

/-! ### NAK, signal, pacing -/

/-- A request's tag learns that a frame of it was replayed. -/
def State.markRetried (f : Held) (s : State) : State :=
  match f.task with
  | none => s
  | some tid =>
    match s.link.reqs.find? (fun r => r.tag == f.what.hdr.tag && r.task == tid) with
    | some r => s.modTag r.isl r.slot r.dtag (fun d => { d with retried := true })
    | none => s

/-- NAK: every held frame from the named SEQ on is replayed; a ninth replay takes the port DOWN (R346). -/
def State.onNak (p : Nat) (h : LHdr) (seq : Nat) (s : State) : State :=
  let l := s.port p
  if !l.live then s
  else if h.epoch != l.epoch % 256 then s.staleFrame p
  else
    let s := s.takeHdr p h
    let from_ := fun (f : Held) => decide ((f.seq + 4096 - seq) % 4096 < 2048)
    let fs := (s.port p).retry.filter from_
    if fs.any (fun f => decide (8 ≤ f.replays)) then s.goDown p 3
    else
      let s := s.modPort p (fun l =>
        { l with replays := (l.replays + fs.length) % 2 ^ 32
                 retry := l.retry.map (fun f => if from_ f then { f with replays := f.replays + 1 } else f) })
      fs.foldl (fun s f =>
        let s := if f.replays = 0 then (s.countRetry f).markRetried f else s
        s.send (.frame p 1 ((s.port p).hdr f.vc f.seq f.nblk f.poison ((s.linkPol p).protect == 1) 0 0) (some f.what))) s

def State.onCredit (p : Nat) (h : LHdr) (s : State) : State :=
  let l := s.port p
  if !l.live then s else if h.epoch != l.epoch % 256 then s.staleFrame p else s.takeHdr p h

/-- A frame that the receiver discards: CRC, malformed, or a tag that fails (R342, R360). -/
def State.corrupt (p : Nat) (k : Corrupt) (h : LHdr) (s : State) : State :=
  let l := s.port p
  if !l.live then s
  else if k != .crc && h.epoch != l.epoch % 256 then s.staleFrame p
  else match k with
    | .crc => s.sendNak p
    | .malformed => (s.sendNak p).violation p 0
    | .tag => (s.sendNak p).violation p 4

def State.lossOfSignal (p lane : Nat) (s : State) : State :=
  if (s.port p).live && decide (lane < (s.linkPol p).lanes) then s.goDown p 1 else s

def State.heartbeatTimeout (p : Nat) (s : State) : State := if (s.port p).live then s.goDown p 2 else s

/-- RATE_PACED_SEND: time passes until the partner's bucket holds what the next paced frame takes (R359). -/
def State.paced (p : Nat) (s : State) : State :=
  let l := s.port p
  match l.wait.find? (fun w => w.dst == l.peer && w.cost != 0) with
  | some w =>
    if l.peerRate = 0 then s
    else (s.reach (s.clk.gtc + cdiv (w.cost - l.bucketNow s.clk.gtc) l.peerRate)).pump p
  | none => s

/-! ### Training (R348–R351) -/

/-- Retry buffer, SEQ, ACK and credits cleared (R348). -/
def LPort.fresh (l : LPort) : LPort :=
  { l with retry := [], wait := [], txSeq := 0, rxSeq := 0, txCtr := 0, credits := [], pool := [], rxUsed := [],
           rxOwed := [], tagRun := 0 }

def State.enterTraining (p : Nat) (s : State) : State :=
  (s.modPort p (fun l => { l.fresh with st := .training, retrains := wrap1 32 l.retrains })).portChanged

def State.trainingStart (p : Nat) (s : State) : State :=
  if (s.port p).st == .down && (s.linkPol p).mode != 0 then s.enterTraining p else s

def LPort.doubleBackoff (l : LPort) : LPort := { l with backoff := min (2 * l.backoff) 100000 }

/-- Partners that a port admits (Table 17-1). -/
def State.admits (s : State) (p chip : Nat) : Bool :=
  let c := s.linkPol p
  match c.mode with
  | 1 => decide (p < 4) && chip / 16 == s.cell.chip / 16 && chip % 16 == s.ownMember ^^^ 2 ^ p && bitOf s.cellMap (chip % 16)
  | 2 => chip / 16 != s.cell.chip / 16
  | 3 => chip == c.peer
  | _ => false

/-- The steps of R350 with what the partner presented: a PHY failure is TRAIN_FAIL, steps 3 and 4 are AUTH. -/
def State.trainingDone (p : Nat) (x : Partner) (s : State) : State :=
  let l := s.port p
  if l.st != .training then s
  else if !x.phyOk then ((s.modPort p LPort.doubleBackoff).goDown p 5)
  else
    let c := s.linkPol p
    let s := s.modPort p (fun l => { l with epoch := (max l.epoch x.epoch + 1) % 2 ^ 32 })
    let owner := s.plat.keys.any (fun k => k.provisioned && !k.revoked && k.hash == x.ownerHash)
    if x.authOk && owner && x.mode == c.mode && x.protect == (c.protect == 1) && s.admits p x.chip then
      let pools := (List.range 16).map (fun v => (v, min ((x.pools[v]?).getD 0) 4096))
      (s.modPort p (fun l =>
        { l.fresh with st := .probation, peer := x.chip, lanesUp := 2 ^ c.lanes - 1, credits := pools, pool := pools
                       peerRate := x.rate, bucket := 65536, bucketAt := s.clk.gtc })).portChanged
    else s.quarantine p 3

def State.trainingTimeout (p : Nat) (s : State) : State :=
  if (s.port p).st == .training then (s.modPort p LPort.doubleBackoff).goDown p 5 else s

/-- PROBATION_END: within the limits of R351 the port is UP. -/
def State.probationEnd (p uncorr crc corr : Nat) (s : State) : State :=
  if (s.port p).st != .probation then s
  else
    let s := s.modPort p (fun l => { l with fecCorr := (l.fecCorr + corr) % 2 ^ 40, fecUncorr := sat 24 (l.fecUncorr + uncorr) })
    if uncorr = 0 ∧ crc = 0 ∧ corr ≤ 100000 then
      ((s.modPort p (fun l => { l with st := .up })).emit (0x70 + p) 6 4 noTenant 0 [p]).portChanged
    else s.goDown p 6

def State.backoffReset (p : Nat) (s : State) : State :=
  if (s.port p).st == .up then s.modPort p (fun l => { l with backoff := 100 }) else s

def offCreditSel (p : Nat) : Nat := 0x100038 + p * 0x10000

/-- A link port reset: the registers of the port take their reset values, but the epoch advances (R348, Table 5-7). -/
def State.linkPortReset (p : Nat) (s : State) : State :=
  if (s.port p).st == .quarantined then s
  else
    let s := s.goDown p 4
    if (s.port p).st == .quarantined then s
    else
      let s := s.setRegs (NMap.del s.regs (offCreditSel p))
      s.modPort p (fun l =>
        { LPort.reset with epoch := (l.epoch + 1) % 2 ^ 32, dcause := 4, backoff := l.backoff, downs := l.downs, wait := l.wait })

def State.linkQuarantine (p : Nat) (s : State) : State := s.quarantine p 5

def State.linkRelease (p : Nat) (s : State) : State :=
  if (s.port p).st == .quarantined then (s.modPort p (fun l => { l with st := .down, backoff := 100 })).portChanged else s

/-- REKEY retrains the port with new keys; what it holds goes by the routes that are left (R360). -/
def State.rekey (p : Nat) (s : State) : State :=
  if (s.port p).live then
    let hs := (s.port p).retry ++ (s.port p).wait
    let s := s.enterTraining p
    hs.foldl (fun s h => (s.countRetry h).dispatchHeld h) s
  else s

/-! ### A member's part of a span's task (R379, R380) -/

/-- When the last slot of a member's part is free, the head learns what it met, unless it has itself said stop. -/
def State.memberGone (tid : Nat) (s : State) : State :=
  match s.task? tid with
  | some t =>
    match t.span, t.slots with
    | some (chip, ref), [] =>
      let s := s.modTasks (fun u => { u with live := NMap.del u.live tid })
      if t.spanStop then s else s.sendMsg chip (.spanEnd ref t.status t.refreshHits t.linkRetries)
    | _, _ => s
  | none => s

/-! ### Register readouts (Table 16-7) -/

def State.readLink (s : State) (p off : Nat) : Word :=
  let l := s.port p
  let sel := fld (s.reg (offCreditSel p) 0) 0 4
  match off with
  | 0x08 => packW [(0, 3, l.st.code), (4, 4, l.dcause), (8, 3, l.qcause), (16, 15, l.peer), (32, 16, l.lanesUp)]
  | 0x10 => s.rwt (offLinkCfg p)
  | 0x18 => packW [(0, 32, l.epoch), (32, 32, l.retrains)]
  | 0x20 => packW [(0, 40, l.fecCorr), (40, 24, l.fecUncorr)]
  | 0x28 => packW [(0, 32, l.replays), (32, 32, l.naks)]
  | 0x30 => packW ((List.range 7).map (fun k => (8 * k, 8, (l.viol[k]?).getD 0)))
  | 0x38 => s.reg (offCreditSel p) 0
  | 0x40 => packW [(0, 16, NMap.getD l.credits sel 0), (16, 16, NMap.getD l.pool sel 0), (32, 32, NMap.getD l.excess sel 0)]
  | 0x48 => packW [(0, 32, l.stale), (32, 32, l.dup)]
  | 0x50 => packW [(0, 16, (s.link.granted.filter (fun x => x.port == p && decide (s.leaseNow < x.expiry))).length),
      (16, 16, l.expired), (32, 32, match l.lastAddr with | some a => a / 4096 | none => 0)]
  | 0x58 => packW [(0, 32, l.txBlocks), (32, 32, l.rxBlocks)]
  | _ => 0

/-! ### Commands -/

def execHeartbeatTimeout (port : Port) (s : State) : Answer := .next (s.heartbeatTimeout port)
def execLossOfSignal (port : Port) (lane : Fin 16) (s : State) : Answer := .next (s.lossOfSignal port lane)
def execNak (port : Port) (h : LHdr) (seq : Nat) (s : State) : Answer := .next (s.onNak port h seq)
def execCreditFrame (port : Port) (h : LHdr) (s : State) : Answer := .next (s.onCredit port h)
def execTrainingStart (port : Port) (s : State) : Answer := .next (s.trainingStart port)
def execTrainingDone (port : Port) (p : Partner) (s : State) : Answer := .next (s.trainingDone port p)
def execTrainingTimeout (port : Port) (s : State) : Answer := .next (s.trainingTimeout port)
def execProbationEnd (port : Port) (uncorr crcFails corrected : Nat) (s : State) : Answer :=
  .next (s.probationEnd port uncorr crcFails corrected)
def execBackoffReset (port : Port) (s : State) : Answer := .next (s.backoffReset port)
def execLinkPortReset (port : Port) (s : State) : Answer := .next (s.linkPortReset port)
def execLinkQuarantine (port : Port) (s : State) : Answer := .next (s.linkQuarantine port)
def execLinkRelease (port : Port) (s : State) : Answer := .next (s.linkRelease port)
def execRekey (port : Port) (s : State) : Answer := .next (s.rekey port)
def execRead (port : Port) (h : LHdr) (t : THdr) (s : State) : Answer :=
  .next (s.recvData port h (hdrTo t) (.txn 1 t []) (fun s => s.serveRead port t))
def execReadResp (port : Port) (h : LHdr) (t : THdr) (data : Bytes) (s : State) : Answer :=
  .next (s.recvData port h t.src (.txn 2 t data) (fun s => s.onResponse t data h.poison))
def execWrite (port : Port) (h : LHdr) (t : THdr) (data : Bytes) (s : State) : Answer :=
  .next (s.recvData port h (hdrTo t) (.txn 3 t data) (fun s => s.serveWrite port h t data))
def execWriteAck (port : Port) (h : LHdr) (t : THdr) (s : State) : Answer :=
  .next (s.recvData port h t.src (.txn 4 t []) (fun s => s.onResponse t [] 0))
def execColl (port : Port) (h : LHdr) (t : THdr) (data : Bytes) (s : State) : Answer :=
  .next (s.recvData port h (hdrTo t) (.txn 5 t data) (fun s => s.serveWrite port h t data))
def execLeaseReq (port : Port) (h : LHdr) (t : THdr) (win : Nat) (s : State) : Answer :=
  .next (s.recvData port h (hdrTo t) (.msg t (.lease 0x10 [win] 0)) (fun s => s.serveLease port t win))
def execLeaseGrant (port : Port) (h : LHdr) (t : THdr) (win leaseUs : Nat) (s : State) : Answer :=
  .next (s.recvData port h (hdrTo t) (.msg t (.lease 0x11 [win] leaseUs)) (fun s => s.onGrant t t.src win leaseUs))
def execLeaseRenew (port : Port) (h : LHdr) (t : THdr) (wins : List Nat) (s : State) : Answer :=
  .next (s.recvData port h (hdrTo t) (.msg t (.lease 0x12 wins 0)) (fun s => s.serveRenew t wins))
def execLeaseAck (port : Port) (h : LHdr) (t : THdr) (wins : List Nat) (s : State) : Answer :=
  .next (s.recvData port h (hdrTo t) (.msg t (.lease 0x13 wins 0)) (fun s => s.onLeaseAck t wins))
def execLeaseRelease (port : Port) (h : LHdr) (t : THdr) (win : Nat) (s : State) : Answer :=
  .next (s.recvData port h (hdrTo t) (.msg t (.lease 0x14 [win] 0)) (fun s => s.serveRelease t win))
def execLeaseRenewTimer (grantor : Nat) (s : State) : Answer := .next (s.renewTimer grantor)
def execLeaseExpiry (side : LeaseSide) (chip win : Nat) (s : State) : Answer :=
  .next (s.leaseExpiry (side == .grantor) chip win)
def execLeaseIdleRelease (chip win : Nat) (s : State) : Answer := .next (s.leaseIdle chip win)
def execRemoteReqTimeout (tag : Nat) (s : State) : Answer := .next (s.remoteTimeout tag)
def execCorruptFrame (port : Port) (k : Corrupt) (h : LHdr) (s : State) : Answer := .next (s.corrupt port k h)
def execRatePacedSend (port : Port) (s : State) : Answer := .next (s.paced port)

end Sys2Proof.Machine
end

