-- ==== Sys2Proof/Machine/Operands.lean ====
section
/-! DEFINITION. Operand forms: the Steward's instruction word and its immediates (Tables 7-3, 7-4), the DMA request
block (R140), the crate row word and the Grid operand word (Tables 8-4, 8-5), crate locations (R177), and the vector
instruction word (Table 11-1). -/

namespace Sys2Proof.Machine

open Sys2Proof

/-! ### The Steward's instruction word -/

/-- Three-register form. -/
def wR (cls rd rs1 rs2 fn : Nat) : Nat := cls * 2 ^ 28 + rd * 2 ^ 23 + rs1 * 2 ^ 18 + rs2 * 2 ^ 13 + fn
/-- Immediate form; the store form has the data source in the rd field. -/
def wI (cls rd rs1 sel : Nat) (imm : Imm15) : Nat := cls * 2 ^ 28 + rd * 2 ^ 23 + rs1 * 2 ^ 18 + sel * 2 ^ 15 + imm.toNat

/-- An immediate, sign-extended to 64 bits (R137). -/
def immW (i : Imm15) : Word := i.signExtend 64

/-- The shift count of an immediate shift; none where imm [14:6] is not zero (R137). -/
def shamt (i : Imm15) : Option Nat := if i.toNat / 64 = 0 then some (i.toNat % 64) else none

/-- LUI: the immediate shifted left by 15, sign-extended (R137). -/
def luiW (i : Imm23) : Word := (i.signExtend 64) <<< 15

/-- A byte offset of a branch or jump that counts instructions. -/
def branchOff (i : Imm15) : Word := (i.signExtend 64) <<< 2
def jumpOff (i : Imm23) : Word := (i.signExtend 64) <<< 2

/-- A branch condition on two registers (Table 7-3). -/
def condHolds (c : Cond) (a b : Word) : Bool :=
  match c with
  | .eq => a == b
  | .ne => a != b
  | .lt => a.slt b
  | .ge => !a.slt b
  | .ltu => a.ult b
  | .geu => !a.ult b

/-! ### The DMA request block (R140) -/

structure ReqBlock where
  shelf : Nat
  len : Nat
  chip : Nat
  far : Nat
  deriving DecidableEq, Repr

def ReqBlock.of (b : Bytes) : ReqBlock :=
  { shelf := leAt b 0 8 % 2 ^ 21, len := leAt b 8 4, chip := leAt b 12 2 % 2 ^ 15, far := leAt b 16 8 }

/-- The class of the far address. -/
def ReqBlock.cls (r : ReqBlock) : Nat := r.far / 2 ^ 61
/-- A host bus address. -/
def ReqBlock.host (r : ReqBlock) : Nat := r.far % 2 ^ 61
/-- A local Cellar address, here or on another device. -/
def ReqBlock.cellar (r : ReqBlock) : Nat := r.far % 2 ^ 49
/-- A stream endpoint. -/
def ReqBlock.endpoint (r : ReqBlock) : Nat := r.far % 4

/-! ### Crate and Grid operand words -/

/-- Row word (Table 8-4). -/
structure RowWord where
  stride : Nat
  first : Nat
  count : Nat
  deriving DecidableEq, Repr

/-- The row word, or none where R168 refuses it (reason OPERAND). -/
def RowWord.of (w : Word) : Option RowWord :=
  let r : RowWord := { stride := fld w 0 16, first := fld w 16 5, count := fld w 21 5 + 1 }
  if fld w 26 38 = 0 ∧ r.stride % 8 = 0 ∧ r.first + r.count ≤ 32 then some r else none

/-- Operand word (Table 8-5). -/
structure OpWord where
  acr : Nat
  bcr : Nat
  av : Nat
  scale : Option Nat
  ag : Nat
  bg : Nat
  depth : Nat
  zero : Bool
  deriving DecidableEq, Repr

def OpWord.of (w : Word) : OpWord :=
  { acr := fld w 0 4, bcr := fld w 4 4, av := fld w 8 3, scale := if bitOf w 11 then some (fld w 12 4) else none,
    ag := fld w 16 3, bg := fld w 19 3, depth := fld w 22 3 + 1, zero := fld w 25 39 == 0 }

/-- A crate location (R177). -/
def crateLoc (crate off : Nat) : Nat := 2 ^ 63 + crate * 4096 + off

/-- CRATE_FAULT's TVAL (R168). -/
def crateTval (crate reason : Nat) : Nat := crate + reason * 256

/-! ### The vector instruction word (Table 11-1) -/

/-- OP and fields of a vector instruction; none where a reserved bit is set. -/
def vecWord (w : Nat) : Option (Nat × VFields) :=
  if nfld w 36 4 = 0 then
    some (nfld w 0 8, { vd := Fin.ofNat 32 (nfld w 8 5), va := Fin.ofNat 32 (nfld w 13 5), vb := Fin.ofNat 32 (nfld w 18 5),
                        vc := Fin.ofNat 32 (nfld w 23 5), fmt := Fin.ofNat 32 (nfld w 28 5), p := Fin.ofNat 8 (nfld w 33 3),
                        imm := BitVec.ofNat 24 (nfld w 40 24) })
  else none

/-- IMM as a signed value. -/
def vSimm (f : VFields) : Int := f.imm.toInt
def vImm (f : VFields) : Nat := f.imm.toNat

end Sys2Proof.Machine
end

