-- ==== Sys2Proof/Machine/Steward.lean ====
section
/-! DEFINITION. The Steward of a T-island (R133–R156): registers, exceptions and their frames, loads and stores with
crate overlays, branches and the predictor, task control words, WAIT, EXIT and ERET, and the switch between slots. A
Steward instruction acts on the RUNNING slot of its island; where its unit makes it stall, nothing changes. -/

namespace Sys2Proof.Machine

open Sys2Proof

/-! ### Registers (R135) -/

def Slot.getReg (x : Slot) (r : Nat) : Word := if r = 0 then 0 else NMap.getD x.regs r 0
/-- g0 discards writes. -/
def Slot.setReg (x : Slot) (r : Nat) (v : Word) : Slot := if r = 0 then x else { x with regs := NMap.set x.regs r v }

/-- Commit of an instruction: counted, and the slot continues after it unless `f` says where. -/
def State.retire (n k : Nat) (f : Slot → Slot) (s : State) : State :=
  s.modIsl n (fun i => { i with instret := wrap1 64 i.instret
                                slots := NMap.upd i.slots k .reset (fun x => f { x with pc := x.pc + 4 }) })

/-! ### Exceptions (R146–R151) -/

/-- Codes of the handler group (Table 7-6). -/
def excIllegal : Nat := 1
def excMisaligned : Nat := 2
def excAccess : Nat := 3
def excTrap : Nat := 4
def excDma : Nat := 5
def excCrate : Nat := 6
def excOver : Nat := 7

/-- Why sp cannot take a frame: [0] OUTSIDE, [1] MISALIGNED, [2] CRATE, [3] POISON (R149). -/
def State.spReason (s : State) (n k : Nat) : Nat :=
  let x := s.slot n k
  let sp := (x.getReg 30).toNat
  let lo := s.stackLo n k
  let hi := s.stackHi n k
  let outside := !(decide (lo + 64 ≤ sp) && decide (sp ≤ hi))
  let crate := x.maps.any (fun m => decide (sp < m.2 + 4096 + 64) && decide (m.2 < sp))
  let words := (List.range 8).map (fun i => ((x.getReg 30 - 64#64 + BitVec.ofNat 64 (8 * i)) &&& ~~~7#64).toNat)
  let poison := words.any (fun w => decide (lo ≤ w) && decide (w + 8 ≤ hi) && (s.island n).shelf.poison.contains w)
  b2n outside + 2 * b2n (sp % 64 != 0) + 4 * b2n crate + 8 * b2n poison

/-- The eight words of a frame, without the additions of the fault-frame registers (Table 7-7). -/
def State.frameOf (s : State) (n k code epc tval : Nat) : List Nat :=
  let x := s.slot n k
  let task := match s.task? x.task with
    | some t => t.queue % 2 ^ 17 + t.room % 64 * 2 ^ 17 + t.tenant % 64 * 2 ^ 23 + dSession t.ent.raw * 2 ^ 32
    | none => 0
  [epc, code + b2n x.inHandler * 256 + k * 4096, tval, (x.getReg 30).toNat, (x.getReg 31).toNat, task, s.view (0x10 + n),
   (wordOf 16 x.full.contains).toNat]

/-- A frame written into the fault-frame registers, with its event (R149, R150). -/
def State.faultFrame (n k code epc tval reason ending : Nat) (s : State) : State :=
  let ws := s.frameOf n k code epc tval
  let nf := sat 16 (s.island n).frames
  let w1 := (ws[1]?).getD 0 + reason * 2 ^ 16 + ending * 2 ^ 24
  let w7 := (ws[7]?).getD 0 + nf * 2 ^ 48
  let ws := setAt (setAt ws 1 w1) 7 w7
  let ten := match s.task? (s.slot n k).task with | some t => t.tenant | none => noTenant
  (s.modIsl n (fun i => { i with frame := ws.map (BitVec.ofNat 64), frames := i.frames + 1 })).emit (0x10 + n) 3 1 ten 3
    [(ws[0]?).getD 0, w1, (ws[3]?).getD 0]

/-- A handler-group cause (R148–R151). -/
def State.raise (n k code epc tval : Nat) (s : State) : State :=
  let x := s.slot n k
  if x.inHandler then
    ((s.faultFrame n k code epc tval 0 0x13).countEnded n).slotFault n k 0x2D (code + n * 256 + 2 ^ 14)
  else if x.evec = 0 then
    ((s.faultFrame n k code epc tval 0 0x14).countEnded n).slotFault n k 0x2D (code + n * 256 + 2 ^ 15)
  else
    let reason := s.spReason n k
    if reason = 0 then
      let sp := x.getReg 30 - 64
      let bytes := (s.frameOf n k code epc tval).flatMap (le 8)
      let s := s.modShelf n (fun st => st.write wordB sp.toNat bytes)
      s.modIsl n (fun i =>
        { i with excHandled := wrap1 32 i.excHandled
                 slots := NMap.upd i.slots k .reset (fun x =>
                   { x.setReg 30 sp with inHandler := true, pc := x.evec.toNat }) })
    else ((s.faultFrame n k code epc tval reason 0x12).countEnded n).slotFault n k 0x2C (code + reason * 256)

/-- A handler-group cause at the instruction itself. -/
def State.raiseAt (n k code tval : Nat) (s : State) : State := s.raise n k code (s.slot n k).pc tval

def State.illegal (n k w : Nat) (s : State) : State := s.raiseAt n k excIllegal w

/-! ### The running slot -/

/-- Fetches come from whole instructions of the pinned region only (R133). -/
def State.fetchable (s : State) (n pc : Nat) : Bool := pc % 4 == 0 && decide (pc + 4 ≤ s.pin n)

/-- Slot that the Steward is running. -/
def State.runningSlot (s : State) (n : Nat) : Option Nat :=
  match (s.island n).run with
  | some k => if (s.slot n k).st == .running then some k else none
  | none => none

/-- An instruction acts on the running slot, at a pc from which instructions can be fetched. -/
def State.onSteward (n : Nat) (f : Nat → State → State) (s : State) : State :=
  match s.runningSlot n with
  | none => s
  | some k =>
    let pc := (s.slot n k).pc
    if s.fetchable n pc then f k s else s.raise n k excAccess pc pc

/-- A register of the running slot. -/
def State.greg (s : State) (n k : Nat) (r : Reg) : Word := (s.slot n k).getReg r.val

/-- An instruction that only writes a register. -/
def State.aluOp (n : Nat) (rd : Reg) (v : Nat → State → Word) (s : State) : State :=
  s.onSteward n (fun k s => let w := v k s; s.retire n k (fun x => x.setReg rd.val w))

/-- ALU: rd = f rs1 rs2. -/
def State.aluR (n : Nat) (rd rs1 rs2 : Reg) (f : Word → Word → Word) (s : State) : State :=
  s.aluOp n rd (fun k s => f (s.greg n k rs1) (s.greg n k rs2))

/-- ALU-I: rd = f rs1 imm. -/
def State.aluI (n : Nat) (rd rs1 : Reg) (imm : Imm15) (f : Word → Word → Word) (s : State) : State :=
  s.aluOp n rd (fun k s => f (s.greg n k rs1) (immW imm))

/-- Immediate shift: imm [14:6] not zero is ILLEGAL (R137). -/
def State.aluSh (n : Nat) (rd rs1 : Reg) (sel : Nat) (imm : Imm15) (f : Word → Nat → Word) (s : State) : State :=
  match shamt imm with
  | some c => s.aluOp n rd (fun k s => f (s.greg n k rs1) c)
  | none => s.onSteward n (fun k s => s.illegal n k (wI 1 rd.val rs1.val sel imm))

/-! ### Loads and stores (R133, R134) -/

/-- The overlaid crate and offset that an address reaches. -/
def Slot.overlay (x : Slot) (a : Nat) : Option (Nat × Nat) :=
  (x.maps.find? (fun m => decide (m.2 ≤ a) && decide (a < m.2 + 4096))).map (fun m => (m.1, a - m.2))

/-- The crates of a slot are in place (R171). -/
def Isl.inPlace (i : Isl) (k : Nat) : Bool :=
  i.owner == k && i.swapTo.isEmpty && !(i.slots.any (fun e => e.1 == k && !e.2.saved.isEmpty))

def Isl.crate (i : Isl) (c : Nat) : Store := NMap.getD i.crates c .empty
def State.modCrate (n c : Nat) (f : Store → Store) (s : State) : State :=
  s.modIsl n (fun i => { i with crates := NMap.upd i.crates c .empty f })

/-- Bytes that the Steward reads for a slot, with the first poisoned word if there is one; none while the overlaid
crate is still to be restored. -/
def State.stewRead (s : State) (n k a len : Nat) : Option (Bytes × Bool) :=
  let i := s.island n
  match (s.slot n k).overlay a with
  | some (c, off) =>
    if i.inPlace k then some ((i.crate c).read off len, ((i.crate c).poisonIn wordB off len).isSome) else none
  | none => some (i.shelf.read a len, (i.shelf.poisonIn wordB a len).isSome)

/-- Poison consumed by a committed load (R335). -/
def State.readPoison (n k a : Nat) (s : State) : State := s.poisoned n k (s.slot n k).pc a

/-- LOAD: `size` bytes at rs1 + imm; `ext` extends them. -/
def State.loadOp (n : Nat) (rd rs1 : Reg) (imm : Imm15) (size : Nat) (ext : Nat → Word) (s : State) : State :=
  s.onSteward n (fun k s =>
    let a := (s.greg n k rs1 + immW imm).toNat
    if a % size != 0 then s.raiseAt n k excMisaligned a
    else if !s.canLoad n k a size then s.raiseAt n k excAccess a
    else match s.stewRead n k a size with
      | none => s
      | some (_, true) => s.readPoison n k a
      | some (b, false) => s.retire n k (fun x => x.setReg rd.val (ext (unle b))))

/-- STORE: the low `size` bytes of rs2 at rs1 + imm. -/
def State.storeOp (n : Nat) (rs2 rs1 : Reg) (imm : Imm15) (size : Nat) (s : State) : State :=
  s.onSteward n (fun k s =>
    let a := (s.greg n k rs1 + immW imm).toNat
    let d := le size (s.greg n k rs2).toNat
    if a % size != 0 then s.raiseAt n k excMisaligned a
    else if !s.canStore n k a size then s.raiseAt n k excAccess a
    else match (s.slot n k).overlay a with
      | some (c, off) =>
        if (s.island n).inPlace k then (s.modCrate n c (fun st => st.write wordB off d)).retire n k id else s
      | none => (s.modShelf n (fun st => st.write wordB a d)).retire n k id)

def sextN (size v : Nat) : Word := BitVec.ofInt 64 (signed (8 * size) v)
def zextN (v : Nat) : Word := BitVec.ofNat 64 v

/-! ### Branches and the predictor (R153–R155) -/

def Isl.counter (i : Isl) (pc : Nat) : Nat := NMap.getD i.pred (pc / 4 % 256) 1

/-- Counter trained by a committed branch. -/
def Isl.train (i : Isl) (pc : Nat) (taken : Bool) : Isl :=
  let c := i.counter pc
  let c := if taken then min (c + 1) 3 else c - 1
  { i with pred := if c = 1 then NMap.del i.pred (pc / 4 % 256) else NMap.set i.pred (pc / 4 % 256) c }

/-- SPEC_DEPTH in force; 7 is taken as 6 (R157). -/
def State.specDepth (s : State) (n : Nat) : Nat := min (fld (s.rwt (offStewCfg n)) 0 3) 6

/-- The instructions that the Steward fetches and executes at most from a pc on a predicted path: up to the depth, up to a fetch outside
the pinned region, and up to the first instruction that ends speculation, which is fetched (R155, Table 7-3). -/
def State.pathLimit (s : State) (n : Nat) : Nat → Nat → Nat × Nat
  | 0, _ => (0, 0)
  | d + 1, pc =>
    if !s.fetchable n pc then (0, 0)
    else if nfld (unle ((s.island n).shelf.read pc 4)) 28 4 < 4 then let (f, e) := s.pathLimit n d (pc + 4); (f + 1, e + 1)
    else (1, 0)

/-- A branch or predicted jump resolved; on a wrong prediction the Steward has fetched and executed some of the instructions that
R155 lets it, from the predicted pc: how many is a matter of time, so free. -/
def State.resolve (n : Nat) (wrong : Bool) (pc : Nat) (s : State) : State :=
  let s := s.modIsl n (fun i => { i with brRes := wrap1 32 i.brRes, brMis := if wrong then wrap1 32 i.brMis else i.brMis })
  if wrong then
    let (f, s) := s.draw
    let (e, s) := s.draw
    let most := s.pathLimit n (s.specDepth n) pc
    let nf := f.toNat % (most.1 + 1)
    s.modIsl n (fun i =>
      { i with sqFetch := (i.sqFetch + nf) % 2 ^ 64, sqExec := (i.sqExec + e.toNat % (min nf most.2 + 1)) % 2 ^ 64 })
  else s

def Isl.push (i : Isl) (ret : Nat) : Isl := { i with rstack := (ret :: i.rstack).take 8 }

def State.branchOp (n : Nat) (c : Cond) (rs1 rs2 : Reg) (imm : Imm15) (s : State) : State :=
  s.onSteward n (fun k s =>
    let pc := (s.slot n k).pc
    let taken := condHolds c (s.greg n k rs1) (s.greg n k rs2)
    let guess := decide (2 ≤ (s.island n).counter pc)
    let target := (BitVec.ofNat 64 pc + branchOff imm).toNat
    ((s.resolve n (guess != taken) (if guess then target else pc + 4)).modIsl n (fun i => i.train pc taken)).retire n k
      (fun x => if taken then { x with pc := target } else x))

/-- A jump to an address, with the return address in rd; a call pushes it. -/
def State.jumpTo (n k : Nat) (rd : Reg) (target : Nat) (s : State) : State :=
  let ret := (s.slot n k).pc + 4
  let s := if rd.val = 31 then s.modIsl n (fun i => i.push ret) else s
  s.retire n k (fun x => { x.setReg rd.val (BitVec.ofNat 64 ret) with pc := target })

def State.jalOp (n : Nat) (rd : Reg) (imm : Imm23) (s : State) : State :=
  s.onSteward n (fun k s => s.jumpTo n k rd (BitVec.ofNat 64 (s.slot n k).pc + jumpOff imm).toNat)

def State.jalrOp (n : Nat) (rd rs1 : Reg) (imm : Imm15) (s : State) : State :=
  s.onSteward n (fun k s =>
    let target := ((s.greg n k rs1 + immW imm) &&& ~~~3#64).toNat
    let s := if rd.val = 0 && rs1.val == 31 then
        match (s.island n).rstack with
        | g :: r => (s.modIsl n (fun i => { i with rstack := r })).resolve n (g != target) g
        | [] => s.resolve n (target != (s.slot n k).pc + 4) ((s.slot n k).pc + 4)
      else s
    s.jumpTo n k rd target)

/-! ### Task control words (Table 7-2) -/

/-- TASK_ID. -/
def State.taskId (s : State) (n k : Nat) : Word :=
  match s.task? (s.slot n k).task with
  | some t => packW [(0, 4, k), (8, 6, n), (16, 6, t.room), (24, 6, t.tenant), (30, 1, b2n (s.isLead n k))]
  | none => packW [(0, 4, k), (8, 6, n)]

/-- A task control word; CYCLE is a count of time and so a free value. None for a number with no word. -/
def State.csrGet (s : State) (n k csr : Nat) : Option (Word × State) :=
  let x := s.slot n k
  match csr with
  | 1 => some (s.taskId n k, s)
  | 2 => some (packW [(0, 32, s.stackLo n k), (32, 32, s.stackHi n k)], s)
  | 3 => some (x.evec, s)
  | 4 => some (BitVec.ofNat 64 x.outLen, s)
  | 5 => some (BitVec.ofNat 64 (s.view (0x10 + n)), s)
  | 6 => some s.draw
  | 7 => some (BitVec.ofNat 64 (b2n x.inHandler), s)
  | _ => none

def State.csrrOp (n : Nat) (rd : Reg) (csr : Csr) (s : State) : State :=
  s.onSteward n (fun k s =>
    match s.csrGet n k csr.toNat with
    | some (v, s) => s.retire n k (fun x => x.setReg rd.val v)
    | none => s.illegal n k (wR 8 rd.val 0 0 (csr.toNat * 16)))

def State.csrwOp (n : Nat) (csr : Csr) (rs1 : Reg) (s : State) : State :=
  s.onSteward n (fun k s =>
    let v := s.greg n k rs1
    match csr.toNat with
    | 3 => s.retire n k (fun x => { x with evec := v })
    | 4 =>
      let len := fld v 0 32
      let s := if s.isLead n k then s.modTask (s.slot n k).task (fun t => { t with outLen := len }) else s
      s.retire n k (fun x => { x with outLen := len })
    | _ => s.illegal n k (wR 8 0 rs1.val 0 (csr.toNat * 16 + 1)))

/-! ### WAIT and the switch of slots (R141, R143, R170) -/

/-- Stream Passage that ends at a sink endpoint, by key; sinks and sources are numbered 4 × island + endpoint. -/
def State.sinkOf (s : State) (n e : Nat) : Option (Nat × PassageCfg) :=
  s.living.passages.find? (fun p => p.2.sink == 4 * n + e)
def State.sourceOf (s : State) (n e : Nat) : Option (Nat × PassageCfg) :=
  s.living.passages.find? (fun p => p.2.src == 4 * n + e)

/-- Data stand at a sink endpoint. -/
def State.dataAt (s : State) (n e : Nat) : Bool :=
  match s.sinkOf n e with
  | some (key, _) => !(NMap.getD s.streams key []).isEmpty
  | none => false

/-- DMA tags named by a condition or mask. -/
def tagsOf (w : Word) : List Nat := bitsOf 8 w

def Slot.tagDone (x : Slot) (t : Nat) : Bool := match NMap.find? x.tags t with | some d => d.done | none => true

/-- A WAIT condition (R141): with bit 11 and no endpoint named, data on any of them. -/
def State.waitHolds (s : State) (n k : Nat) (w : Word) : Bool :=
  let i := s.island n
  let x := s.slot n k
  let sinks := (List.range 4).filter (fun e => bitOf w (12 + e))
  (tagsOf w).all x.tagDone
    && (!bitOf w 8 || i.grid.all (fun g => g.slot != k))
    && (!bitOf w 9 || i.vec.all (fun v => v.slot != k))
    && (!bitOf w 10 || i.xfers.all (fun t => t.slot != k || t.done))
    && (!bitOf w 11 || (if sinks.isEmpty then (List.range 4).any (s.dataAt n) else sinks.all (s.dataAt n)))

/-- The lowest named tag whose request has completed with an error. -/
def Slot.badTag (x : Slot) (ts : List Nat) : Option (Nat × Dma) :=
  ts.findSome? (fun t => match NMap.find? x.tags t with
    | some d => if d.done && d.err then some (t, d) else none
    | none => none)

/-- Delivery of one DMA_ERROR; the tag is then free (R139). -/
def State.deliver (n k t : Nat) (d : Dma) (s : State) : State :=
  (s.modSlot n k (fun x => { x with tags := NMap.del x.tags t, wait := 0 })).raiseAt n k excDma d.blk

/-- Tags that have completed without error are free at the wait that names them. -/
def Slot.dropTags (x : Slot) (ts : List Nat) : Slot :=
  { x with tags := x.tags.filter (fun e => !(ts.contains e.1 && e.2.done && !e.2.err)) }

/-- The READY slot whose task started earliest (R143). -/
def State.nextReady (s : State) (n : Nat) : Option Nat :=
  (firstBy (fun a b => decide (a.2.task < b.2.task)) ((s.island n).slots.filter (fun e => e.2.st == .ready))).map (·.1)

/-- The swaps to come when a slot is selected: those already due whose slots have issued operations, which run to completion first,
then the one that brings the slot in, unless its crates will stand in place (R171). -/
def Isl.swapsTo (i : Isl) (k : Nat) (whole : Bool) : List Nat :=
  let due := i.swapTo.filter (fun j => i.xfers.any (fun x => x.slot == j) || i.grid.any (fun g => g.slot == j))
  if due.getLast? == some k || (due.isEmpty && i.owner == k && whole) then due else due ++ [k]

/-- A slot is run: a switch counts and clears the predictor where another slot ran last; at Level T a resume after a
WAIT clears it too (R143, R154). The crates of the slot come into place (R171). -/
def State.select (n k : Nat) (s : State) : State :=
  let x := s.slot n k
  let i := s.island n
  let other := i.lastRun != some k
  let lt := match s.task? x.task with | some t => s.levelT t.room | none => false
  let clear := other || (lt && x.wait != 0)
  let own := (i.slots.any (fun e => e.1 == i.owner && !e.2.full.isEmpty)) || !x.saved.isEmpty
  s.modIsl n (fun i =>
    { i with run := some k, lastRun := some k
             switches := if other && i.lastRun.isSome then wrap1 64 i.switches else i.switches
             pred := if clear then [] else i.pred, rstack := if clear then [] else i.rstack
             owner := if i.owner != k && i.swapTo.isEmpty && !own then k else i.owner
             swapTo := if i.swapTo.isEmpty && !own then [] else i.swapsTo k x.saved.isEmpty
             slots := NMap.upd i.slots k .reset (fun x => { x with st := .running }) })

/-- A pending fault of a vector program raised at this instruction (R222). -/
def State.vecFault (n k : Nat) (s : State) : Option State :=
  match (s.slot n k).vfault with
  | some (code, tval) => some ((s.modSlot n k (fun x => { x with vfault := none, wait := 0 })).raiseAt n k code tval)
  | none => none

/-- WAIT whose condition holds: errors are delivered, the tags are free, the slot continues. -/
def State.waitDone (n k : Nat) (w : Word) (s : State) : State :=
  match (s.slot n k).badTag (tagsOf w) with
  | some (t, d) => s.deliver n k t d
  | none => s.retire n k (fun x => { x.dropTags (tagsOf w) with wait := 0 })

/-- WAIT with no condition yields to another READY slot, with no more crates FULL than a switch can save. -/
def State.yieldSlot (n k : Nat) (s : State) : State :=
  match s.nextReady n with
  | some j =>
    if decide ((s.slot n k).full.length ≤ (s.slot n k).hold) then
      (s.modSlot n k (fun x => { x with st := .ready })).select n j
    else s
  | none => s

def State.waitOp (n : Nat) (rs1 : Reg) (s : State) : State :=
  s.onSteward n (fun k s =>
    let w := s.greg n k rs1
    let x := s.slot n k
    let s := s.modSlot n k (fun x => { x with wait := 0 })
    match (if bitOf w 9 then s.vecFault n k else none) with
    | some s => s
    | none =>
      if s.waitHolds n k w then
        let s := s.waitDone n k w
        if fld w 0 12 = 0 then s.yieldSlot n k else s
      else if decide (x.hold < x.full.length) then
        s.raiseAt n k excCrate (crateTval ((x.full[x.hold]?).getD 0) 5)
      else s.modIsl n (fun i =>
        { i with run := none, slots := NMap.upd i.slots k .reset (fun x => { x with st := .waiting, wait := w }) }))

/-- The condition of a WAITING slot comes to hold (Table 7-5); the WAIT completes when the slot next runs. -/
def State.waitSatisfied (n k : Nat) (s : State) : State :=
  let x := s.slot n k
  if x.st == .waiting && s.waitHolds n k x.wait then s.modSlot n k (fun x => { x with st := .ready }) else s

def State.waittagOp (n : Nat) (rs1 : Reg) (s : State) : State :=
  s.onSteward n (fun k s =>
    let ts := tagsOf (s.greg n k rs1)
    let x := s.slot n k
    if ts.all x.tagDone then
      match x.badTag ts with
      | some (t, d) => s.deliver n k t d
      | none => s.retire n k (fun x => x.dropTags ts)
    else s)

/-! ### TRAP, EXIT, ERET, FENCE -/

/-- TRAP: EPC is the next instruction, or the TRAP itself where it ends the task as DOUBLE or NO_HANDLER (Table 7-6). -/
def State.trapOp (n : Nat) (rs1 : Reg) (s : State) : State :=
  s.onSteward n (fun k s =>
    let v := (s.greg n k rs1).toNat
    let x := s.slot n k
    let s := s.retire n k id
    s.raise n k excTrap (if x.inHandler || x.evec == 0 then x.pc else x.pc + 4) v)

/-- Everything that a slot has issued is complete. -/
def State.idle (s : State) (n k : Nat) : Bool :=
  let i := s.island n
  (s.slot n k).drained && i.grid.all (fun g => g.slot != k) && i.vec.all (fun v => v.slot != k)
    && i.xfers.all (fun t => t.slot != k || t.done)

def State.exitOp (n : Nat) (rs1 : Reg) (s : State) : State :=
  s.onSteward n (fun k s =>
    let v := (s.greg n k rs1).toNat
    if v == 0 || v == 0x12 || v == 0x2D then
      match s.vecFault n k with
      | some s => s
      | none =>
        if s.idle n k then
          let tid := (s.slot n k).task
          let s := s.retire n k id
          if v == 0 && !s.isLead n k then
            ((s.freeSlotAt n k).modTask tid (fun t => { t with slots := t.slots.filter (· != (n, k)) })).memberGone tid
          else s.slotFault n k v (if v == 0x2D then n * 256 else 0)
        else s
    else s.illegal n k (wR 8 0 rs1.val 0 4))

/-- The 64 bytes of a frame at sp may be loaded; a poisoned word among them ends the task (R152, R335). -/
def State.eretOp (n : Nat) (s : State) : State :=
  s.onSteward n (fun k s =>
    let x := s.slot n k
    let sp := (x.getReg 30).toNat
    if !x.inHandler then s.illegal n k (wR 8 0 0 0 5)
    else if sp % 8 != 0 then s.raiseAt n k excMisaligned sp
    else if !s.canLoad n k sp 64 then s.raiseAt n k excAccess sp
    else match s.stewRead n k sp 64 with
      | none => s
      | some (_, true) => s.readPoison n k sp
      | some (b, false) =>
        s.retire n k (fun x => { x.setReg 30 (x.getReg 30 + 64) with inHandler := false, pc := leAt b 0 8 }))

def State.fenceOp (n : Nat) (s : State) : State :=
  s.onSteward n (fun k s =>
    if (s.slot n k).tags.any (fun e => e.2.write && !e.2.done) then s else s.retire n k id)

/-! ### Commands -/

def execAdd (isl : IslN) (rd rs1 rs2 : Reg) (s : State) : Answer := .next (s.aluR isl rd rs1 rs2 (· + ·))
def execSub (isl : IslN) (rd rs1 rs2 : Reg) (s : State) : Answer := .next (s.aluR isl rd rs1 rs2 (· - ·))
def execAndR (isl : IslN) (rd rs1 rs2 : Reg) (s : State) : Answer := .next (s.aluR isl rd rs1 rs2 (· &&& ·))
def execOrR (isl : IslN) (rd rs1 rs2 : Reg) (s : State) : Answer := .next (s.aluR isl rd rs1 rs2 (· ||| ·))
def execXorR (isl : IslN) (rd rs1 rs2 : Reg) (s : State) : Answer := .next (s.aluR isl rd rs1 rs2 (· ^^^ ·))
def execSll (isl : IslN) (rd rs1 rs2 : Reg) (s : State) : Answer :=
  .next (s.aluR isl rd rs1 rs2 (fun a b => a <<< (b.toNat % 64)))
def execSrl (isl : IslN) (rd rs1 rs2 : Reg) (s : State) : Answer :=
  .next (s.aluR isl rd rs1 rs2 (fun a b => a >>> (b.toNat % 64)))
def execSra (isl : IslN) (rd rs1 rs2 : Reg) (s : State) : Answer :=
  .next (s.aluR isl rd rs1 rs2 (fun a b => a.sshiftRight (b.toNat % 64)))
def execSlt (isl : IslN) (rd rs1 rs2 : Reg) (s : State) : Answer :=
  .next (s.aluR isl rd rs1 rs2 (fun a b => if a.slt b then 1 else 0))
def execSltu (isl : IslN) (rd rs1 rs2 : Reg) (s : State) : Answer :=
  .next (s.aluR isl rd rs1 rs2 (fun a b => if a.ult b then 1 else 0))
def execMul (isl : IslN) (rd rs1 rs2 : Reg) (s : State) : Answer := .next (s.aluR isl rd rs1 rs2 (· * ·))
def execMulh (isl : IslN) (rd rs1 rs2 : Reg) (s : State) : Answer :=
  .next (s.aluR isl rd rs1 rs2 (fun a b => BitVec.ofInt 64 (a.toInt * b.toInt / 2 ^ 64)))
def execMinR (isl : IslN) (rd rs1 rs2 : Reg) (s : State) : Answer :=
  .next (s.aluR isl rd rs1 rs2 (fun a b => if b.slt a then b else a))
def execMaxR (isl : IslN) (rd rs1 rs2 : Reg) (s : State) : Answer :=
  .next (s.aluR isl rd rs1 rs2 (fun a b => if a.slt b then b else a))
def execAddi (isl : IslN) (rd rs1 : Reg) (imm : Imm15) (s : State) : Answer := .next (s.aluI isl rd rs1 imm (· + ·))
def execAndi (isl : IslN) (rd rs1 : Reg) (imm : Imm15) (s : State) : Answer := .next (s.aluI isl rd rs1 imm (· &&& ·))
def execOri (isl : IslN) (rd rs1 : Reg) (imm : Imm15) (s : State) : Answer := .next (s.aluI isl rd rs1 imm (· ||| ·))
def execXori (isl : IslN) (rd rs1 : Reg) (imm : Imm15) (s : State) : Answer := .next (s.aluI isl rd rs1 imm (· ^^^ ·))
def execSlli (isl : IslN) (rd rs1 : Reg) (imm : Imm15) (s : State) : Answer :=
  .next (s.aluSh isl rd rs1 4 imm (fun a c => a <<< c))
def execSrli (isl : IslN) (rd rs1 : Reg) (imm : Imm15) (s : State) : Answer :=
  .next (s.aluSh isl rd rs1 5 imm (fun a c => a >>> c))
def execSrai (isl : IslN) (rd rs1 : Reg) (imm : Imm15) (s : State) : Answer :=
  .next (s.aluSh isl rd rs1 6 imm (fun a c => a.sshiftRight c))
def execSlti (isl : IslN) (rd rs1 : Reg) (imm : Imm15) (s : State) : Answer :=
  .next (s.aluI isl rd rs1 imm (fun a b => if a.slt b then 1 else 0))
def execLui (isl : IslN) (rd : Reg) (imm : Imm23) (s : State) : Answer := .next (s.aluOp isl rd (fun _ _ => luiW imm))
def execLb (isl : IslN) (rd rs1 : Reg) (imm : Imm15) (s : State) : Answer := .next (s.loadOp isl rd rs1 imm 1 (sextN 1))
def execLh (isl : IslN) (rd rs1 : Reg) (imm : Imm15) (s : State) : Answer := .next (s.loadOp isl rd rs1 imm 2 (sextN 2))
def execLw (isl : IslN) (rd rs1 : Reg) (imm : Imm15) (s : State) : Answer := .next (s.loadOp isl rd rs1 imm 4 (sextN 4))
def execLd (isl : IslN) (rd rs1 : Reg) (imm : Imm15) (s : State) : Answer := .next (s.loadOp isl rd rs1 imm 8 zextN)
def execLbu (isl : IslN) (rd rs1 : Reg) (imm : Imm15) (s : State) : Answer := .next (s.loadOp isl rd rs1 imm 1 zextN)
def execLhu (isl : IslN) (rd rs1 : Reg) (imm : Imm15) (s : State) : Answer := .next (s.loadOp isl rd rs1 imm 2 zextN)
def execLwu (isl : IslN) (rd rs1 : Reg) (imm : Imm15) (s : State) : Answer := .next (s.loadOp isl rd rs1 imm 4 zextN)
def execSb (isl : IslN) (rs2 rs1 : Reg) (imm : Imm15) (s : State) : Answer := .next (s.storeOp isl rs2 rs1 imm 1)
def execSh (isl : IslN) (rs2 rs1 : Reg) (imm : Imm15) (s : State) : Answer := .next (s.storeOp isl rs2 rs1 imm 2)
def execSw (isl : IslN) (rs2 rs1 : Reg) (imm : Imm15) (s : State) : Answer := .next (s.storeOp isl rs2 rs1 imm 4)
def execSd (isl : IslN) (rs2 rs1 : Reg) (imm : Imm15) (s : State) : Answer := .next (s.storeOp isl rs2 rs1 imm 8)
def execBranch (isl : IslN) (cond : Cond) (rs1 rs2 : Reg) (imm : Imm15) (s : State) : Answer :=
  .next (s.branchOp isl cond rs1 rs2 imm)
def execJal (isl : IslN) (rd : Reg) (imm : Imm23) (s : State) : Answer := .next (s.jalOp isl rd imm)
def execJalr (isl : IslN) (rd rs1 : Reg) (imm : Imm15) (s : State) : Answer := .next (s.jalrOp isl rd rs1 imm)
def execCsrr (isl : IslN) (rd : Reg) (csr : Csr) (s : State) : Answer := .next (s.csrrOp isl rd csr)
def execCsrw (isl : IslN) (csr : Csr) (rs1 : Reg) (s : State) : Answer := .next (s.csrwOp isl csr rs1)
def execWait (isl : IslN) (rs1 : Reg) (s : State) : Answer := .next (s.waitOp isl rs1)
def execTrap (isl : IslN) (rs1 : Reg) (s : State) : Answer := .next (s.trapOp isl rs1)
def execExit (isl : IslN) (rs1 : Reg) (s : State) : Answer := .next (s.exitOp isl rs1)
def execEret (isl : IslN) (s : State) : Answer := .next (s.eretOp isl)
def execFence (isl : IslN) (s : State) : Answer := .next (s.fenceOp isl)
def execDmaWaittag (isl : IslN) (rs1 : Reg) (s : State) : Answer := .next (s.waittagOp isl rs1)
def execWaitSatisfied (isl : IslN) (slot : SlotN) (s : State) : Answer := .next (s.waitSatisfied isl slot)

end Sys2Proof.Machine
end

