-- ==== Sys2Proof/Machine/Streams.lean ====
section
/-! DEFINITION. Stream Passages at work (R26, R30, R41, R140): the handshakes a sender presents and a receiver captures, and
the requests and layers at the two ends. -/

namespace Sys2Proof.Machine

open Sys2Proof

/-- 256-bit handshakes of a stream transfer, each with its poison marker. -/
def flits (st : Store) (a len : Nat) : List (Bytes × Bool) :=
  (List.range (len / 32)).map (fun i => (st.read (a + 32 * i) 32, (st.poisonIn wordB (a + 32 * i) 32).isSome))

/-- 256-bit handshakes of a tensor; the last is filled with zeros. -/
def tensorFlits (b : Bytes) : List (Bytes × Bool) :=
  (List.range (cdiv b.length 32)).map (fun i => (fit 32 (slice b (32 * i) 32), false))

def State.modStream (key : Nat) (f : List (Bytes × Bool) → List (Bytes × Bool)) (s : State) : State :=
  { s with streams := NMap.upd s.streams key [] f }

/-- Passage of a layer: from the ELE into the room for ingest, from the room to the ELE for output. -/
def State.elePassage (s : State) (j : Nat) (l : Layer) : Option (Nat × PassageCfg) :=
  s.living.passages.find? (fun p =>
    let mine := if l.out then p.2.sink else p.2.src
    let other := if l.out then p.2.src else p.2.sink
    decide (256 ≤ mine) && (mine - 256) / 2 == j && decide (other < 256) && s.roomOf (other / 4) == some l.room)

/-! ### The two ends -/

/-- What stands at an end of a passage: a DMA request of a slot, or the layer that an ELE runs. -/
inductive StreamEnd where
  | dma (n k t : Nat) (d : Dma)
  | ele (j : Nat) (l : Layer)
  deriving DecidableEq, Repr

/-- Requests of class 3 at endpoint 4 × island + index, in one direction, that have not completed. -/
def State.streamReqs (s : State) (e : Nat) (wr : Bool) : List (Nat × Nat × Dma) :=
  (s.island (e / 4)).slots.flatMap (fun x => (x.2.tags.filter (fun t =>
    t.2.cls == 3 && t.2.write == wr && t.2.far % 4 == e % 4 && !t.2.done)).map (fun t => (x.1, t.1, t.2)))

/-- The end that sends, or takes, next: the oldest request with bytes to move, or the layer of the ELE. -/
def State.streamEnd (s : State) (key : Nat) (p : PassageCfg) (src : Bool) : Option StreamEnd :=
  let e := if src then p.src else p.sink
  if e < 256 then
    (firstBy (fun a b => decide (a.2.2.ord < b.2.2.ord))
      ((s.streamReqs e src).filter (fun x => decide (x.2.2.moved < x.2.2.len)))).map (fun x => .dma (e / 4) x.1 x.2.1 x.2.2)
  else
    match (s.eleRt ((e - 256) / 2)).layer with
    | some l =>
      if l.out != src && (s.elePassage ((e - 256) / 2) l).map (·.1) == some key then some (.ele ((e - 256) / 2) l) else none
    | none => none

/-- Handshakes that an end has still to send, or to take. -/
def StreamEnd.left : StreamEnd → Nat
  | .dma _ _ _ d => (d.len - d.moved) / 32
  | .ele _ l => if l.out then l.want else cdiv l.output.length 32

def leftOf (e : Option StreamEnd) : Nat := match e with | some x => x.left | none => 0

def State.setLayer (j : Nat) (f : Layer → Layer) (s : State) : State :=
  s.modEle j (fun e => { e with layer := e.layer.map f })

/-- The next m handshakes of a source. -/
def State.streamSend (m : Nat) (e : Option StreamEnd) (s : State) : List (Bytes × Bool) × State :=
  match e with
  | some (.dma n k t d) =>
    (flits (s.island n).shelf (d.shelf + d.moved) (32 * m), s.modTag n k t (fun d => { d with moved := d.moved + 32 * m }))
  | some (.ele j l) =>
    (tensorFlits (l.output.take (32 * m)), s.setLayer j (fun l => { l with output := l.output.drop (32 * m) }))
  | none => ([], s)

/-- Handshakes captured at a sink, into Shelf as they arrive or into the engine; those of a stopped task's read are discarded
(R140, R145). -/
def State.streamTake (fl : List (Bytes × Bool)) (e : Option StreamEnd) (s : State) : State :=
  match e with
  | some (.dma n k t d) =>
    let bad := (fl.zipIdx.filter (fun x => x.1.2)).map (fun x => (32 * x.2, 32))
    (s.landRead n k { d with shelf := d.shelf + d.moved } (fl.flatMap (·.1)) bad).modTag n k t (fun d =>
      { d with moved := d.moved + 32 * fl.length })
  | some (.ele j _) =>
    s.setLayer j (fun l => { l with input := l.input ++ fl.flatMap (·.1), want := l.want - fl.length, tainted := l.tainted || fl.any (·.2) })
  | none => s

/-! ### The handshakes (R26) -/

/-- One exchange over a passage: the sink captures what it asks for, and the source presents at most one further handshake on
each lane and stalls (R26; one for each lane: log entry 47). -/
def State.exchange (key : Nat) (p : PassageCfg) (s : State) : State :=
  let q := NMap.getD s.streams key []
  let src := s.streamEnd key p true
  let sink := s.streamEnd key p false
  let all := q.length + leftOf src
  let take := min (leftOf sink) all
  let send := take + min p.width (all - take) - q.length
  let (fl, s) := s.streamSend send src
  let hs := q ++ fl
  (s.streamTake (hs.take take) sink).modStream key (fun _ => hs.drop take)

/-- Nothing moves over a passage: the sink takes nothing, and the source has nothing to present or stalls. -/
def State.still (s : State) (key : Nat) (p : PassageCfg) : Bool :=
  let q := (NMap.getD s.streams key []).length
  let l := leftOf (s.streamEnd key p true)
  (leftOf (s.streamEnd key p false) == 0 || q + l == 0) && (l == 0 || decide (p.width ≤ q))

def State.flowLoop (key : Nat) (p : PassageCfg) : Nat → State → State
  | 0, s => s
  | n + 1, s => if s.still key p then s else State.flowLoop key p n (s.exchange key p)

/-- A passage moves what its two ends stand ready for; each exchange but the last two ends a request at one of them. -/
def State.flow (key : Nat) (s : State) : State :=
  match NMap.find? s.living.passages key with
  | some p => s.flowLoop key p ((s.streamReqs p.src true).length + (s.streamReqs p.sink false).length + 3)
  | none => s

/-- The passage at an endpoint of a slot's stream request. -/
def State.streamOf (s : State) (n : Nat) (d : Dma) : Option (Nat × PassageCfg) :=
  if d.write then s.sourceOf n (d.far % 4) else s.sinkOf n (d.far % 4)

/-- A stream request is over: a write once every handshake of it is acknowledged, a read once it has its bytes. A stopped
task's read waits for what its source still has outstanding (R145). -/
def State.streamOver (s : State) (n : Nat) (d : Dma) : Bool :=
  match s.streamOf n d with
  | none => true
  | some (key, p) =>
    let q := (NMap.getD s.streams key []).length
    if d.write then
      d.moved == d.len && decide (q ≤ (((s.streamReqs (4 * n + d.far % 4) true).filter (fun x => decide (d.ord < x.2.2.ord))).map
        (fun x => x.2.2.moved / 32)).sum)
    else d.moved == d.len || (d.drop && q == 0 && leftOf (s.streamEnd key p true) == 0)

/-- The requests at one endpoint are over, with what they have moved. -/
def State.endReqs (e : Nat) (wr : Bool) (keep : Nat → Bool) (s : State) : State :=
  if e < 256 then (s.streamReqs e wr).foldl (fun s x =>
    if keep (s.slot (e / 4) x.1).task then s else s.finishTag (e / 4) x.1 x.2.1 false) s
  else s

/-- The lanes of a passage freed: its handshakes are gone, and the requests at its ends are over. -/
def State.freePassage (key : Nat) (s : State) : State :=
  match NMap.find? s.living.passages key with
  | some p => ((s.endReqs p.src true (fun _ => false)).endReqs p.sink false (fun _ => false)).modStream key (fun _ => [])
  | none => s.modStream key (fun _ => [])

end Sys2Proof.Machine
end

