-- ==== Sys2Proof/Machine/Dma.lean ====
section
/-! DEFINITION. DMA (R137, R139, R140): the checks of a request block, what each far-address class reaches, and what
completes a request. Data of a write are taken from the Shelf when the request completes, and as its handshakes are
presented where it is a stream. -/

namespace Sys2Proof.Machine

open Sys2Proof

/-! ### The limits of R139 -/

/-- The task's state block holds a range whole. -/
def Task.inState (t : Task) (a len : Nat) : Bool :=
  dUsesState t.ent.raw && decide (dState t.ent.raw ≤ a) && decide (a + len ≤ dState t.ent.raw + t.stateBytes)

/-- The weight payload of the graph that the task runs (R321). -/
def State.inWeights (s : State) (t : Task) (a len : Nat) : Bool :=
  match s.taskGraph t, NMap.find? s.living.windows t.window with
  | some g, some w =>
    let base := w.base + g.imageOff
    decide (base + g.woff ≤ a) && decide (a + len ≤ base + g.length)
  | _, _ => false

/-- A range meets a Pantry window. -/
def State.touchesPantry (s : State) (a len : Nat) : Bool :=
  s.living.windows.any (fun e => e.2.kind == 1 && decide (a < e.2.base + e.2.size) && decide (e.2.base < a + len))

/-- What the far side of a request comes to: issued, ACCESS with its TVAL, or OUTPUT_OVER with its TVAL. -/
inductive FarRes where
  | ok | access (a : Nat) | past (off : Nat)
  deriving DecidableEq, Repr

/-- The task runs in a span (R377). -/
def State.spanRoom (s : State) (m : Nat) : Bool := bitOf (s.rwt (offSpanCfg m)) 24
def State.spanPos (s : State) (m : Nat) : Nat := fld (s.rwt (offSpanCfg m)) 20 4
/-- A member of a span other than its head: no host DMA and no state block (R379). -/
def State.spanMember (s : State) (m : Nat) : Bool := s.spanRoom m && s.spanPos m != 0

def State.farHost (s : State) (t : Task) (wr : Bool) (a len : Nat) : FarRes :=
  let d := t.ent.raw
  if s.spanMember t.room then .access a
  else if wr then
    if decide (dOutAddr d ≤ a) && decide (a < dOutAddr d + dOutCap d) then
      if a + len ≤ dOutAddr d + dOutCap d then .ok else .past (a + len - dOutAddr d)
    else .access a
  else if decide (dInAddr d ≤ a) && decide (a + len ≤ dInAddr d + dInLen d) then .ok else .access a

def State.farCellar (s : State) (t : Task) (wr : Bool) (a len : Nat) : FarRes :=
  let state := t.inState a len && !s.spanMember t.room
  if state || s.privateWin t.tenant a len || (!wr && s.inWeights t a len) then
    if wr && s.touchesPantry a len then .access a else .ok
  else .access a

def State.farCheck (s : State) (n : Nat) (t : Task) (wr : Bool) (r : ReqBlock) : FarRes :=
  match r.cls with
  | 0 | 2 => s.farHost t wr r.host r.len
  | 1 =>
    let rce := match s.roomCfg? t.room with | some c => c.rceList.contains (r.far % 16) | none => false
    if wr && r.len == 64 && nfld r.far 4 57 == 0 && rce then .ok else .access r.far
  | 3 =>
    let there := if wr then (s.sourceOf n r.endpoint).isSome else (s.sinkOf n r.endpoint).isSome
    if r.len % 32 == 0 && there then .ok else .access r.far
  | 4 | 6 => s.farCellar t wr r.cellar r.len
  | 5 => if r.chip == s.cell.chip then .access r.far else .ok
  | _ => if wr && r.chip != s.cell.chip && s.spanRoom t.room then .ok else .access r.far

/-! ### Issue -/

/-- The tag that a request takes: which of the free ones is not stated, so it is free. -/
def State.pickTag (n k : Nat) (s : State) : Option (Nat × State) :=
  let ts := (s.slot n k).freeTags
  if ts.isEmpty then none
  else
    let (v, s) := s.draw
    some ((ts[v.toNat % ts.length]?).getD 0, s)

/-- Layer record idx of a task's graph (Table 15-7), read from its image in the Pantry. -/
def State.layerRec (s : State) (t : Task) (idx : Nat) : Option (Nat × Bytes) :=
  match s.taskGraph t, NMap.find? s.living.windows t.window with
  | some g, some w =>
    let base := w.base + g.imageOff
    some (base, s.cellarRead (base + 0x40 + 32 * leAt (s.cellarRead base 64) 0x0A 1 + 32 * idx) 32)
  | _, _ => none

/-- Parameter block of an ELE layer, with the ELE that runs it (Tables 12-4 and 15-7). -/
def State.eleLayerAt (s : State) (t : Task) (idx : Nat) : Option (Nat × EleParam) :=
  match s.layerRec t idx, s.roomCfg? t.room with
  | some (base, r), some c =>
    if leAt r 0 1 = 2 then (c.eleList[leAt r 0x15 1]?).map (fun e => (e, EleParam.parse (s.cellarRead (base + leAt r 0x1C 4) 32)))
    else none
  | _, _ => none

/-- Layer records of a task's graph. -/
def State.layerCount (s : State) (t : Task) : Nat :=
  match s.taskGraph t, NMap.find? s.living.windows t.window with
  | some g, some w => leAt (s.cellarRead (w.base + g.imageOff) 64) 0x0C 2
  | _, _ => 0

/-- The first tied transfer for a layer asks the layer's ELE for it: the next layer of the graph, in layer order, that
is fed from this island in this direction (R255, R256). -/
def State.wantLayer (n k : Nat) (d : Dma) (t : Task) (s : State) : State :=
  if !d.tied || (s.layerOf n k d.write).isSome then s
  else
    match ((List.range (s.layerCount t)).filterMap (fun i => (s.eleLayerAt t i).map (fun x => (i, x)))).find?
        (fun x => x.2.2.feed == n && x.2.2.ingest != d.write && !t.eleDone.contains x.1) with
    | none => s
    | some (i, e, _) =>
      s.modEng (fun g =>
        { g with eleIn := g.eleIn ++ [{ eng := e, isl := n, slot := k, task := (s.slot n k).task, room := t.room, idx := i,
                                        out := d.write, epc := d.epc, stamp := d.issued, src := 0x10 + n, ord := g.ord,
                                        rows := 0, cols := 0, landed := 0, state := [], input := [], want := 0, tainted := false, chunks := 0, computed := false, output := [], filled := 0 }]
                 ord := g.ord + 1 })

/-- What issuing does beside taking a tag: a job block leaves for its engine, requests leave for another device, a host
read leaves, a stream moves; a tied transfer that its ELE is not ready for stays in the DMA unit (R256). -/
def State.launch (n k t : Nat) (d : Dma) (s : State) : State :=
  match s.task? (s.slot n k).task with
  | none => s
  | some tk =>
    let s := s.wantLayer n k d tk
    if s.tiedWaits n k d then s.modTag n k t (fun d => { d with waits := true })
    else match d.cls with
    | 0 | 2 => s.sendRead n k d
    | 3 => match s.streamOf n d with
      | some (key, _) => s.flow key
      | none => s
    | 1 =>
      let st := (s.island n).shelf
      s.modEng (fun e =>
        { e with rceIn := e.rceIn ++ [{ eng := d.far % 16, isl := n, slot := k, task := (s.slot n k).task, room := tk.room,
                                        block := st.read d.shelf 64, addr := d.shelf, tag := t, epc := d.epc,
                                        bad := st.poisonIn wordB d.shelf 64, ord := e.ord }]
                 ord := e.ord + 1 })
    | 5 => s.remoteIssue n k t d false
    | 7 => s.remoteIssue n k t d true
    | _ => s

/-- DMA.RD and DMA.WR. -/
def State.dmaOp (n : Nat) (wr : Bool) (rd rs1 : Reg) (s : State) : State :=
  s.onSteward n (fun k s =>
    let a := (s.greg n k rs1).toNat
    let pc := (s.slot n k).pc
    match s.task? (s.slot n k).task with
    | none => s
    | some tk =>
      if (s.slot n k).freeTags.isEmpty then s
      else if a % 32 != 0 then s.raiseAt n k excMisaligned a
      else if !s.canLoad n k a 32 then s.raiseAt n k excAccess a
      else match (s.island n).shelf.poisonIn wordB a 32 with
        | some u => s.poisoned n k pc u
        | none =>
          let r := ReqBlock.of ((s.island n).shelf.read a 32)
          if r.len = 0 || decide (2 ^ 24 < r.len) then s.raiseAt n k excAccess a
          else if !(if wr then s.canLoad n k r.shelf r.len else s.canStore n k r.shelf r.len) then
            s.raiseAt n k excAccess r.shelf
          else match s.farCheck n tk wr r with
            | .access x => s.raiseAt n k excAccess x
            | .past x => s.raiseAt n k excOver x
            | .ok =>
              match s.pickTag n k with
              | none => s
              | some (t, s) =>
                let d : Dma :=
                  { write := wr, blk := a, shelf := r.shelf, len := r.len, chip := r.chip, far := r.far, cls := r.cls,
                    issued := s.view (0x10 + n), done := false, err := false,
                    drop := wr && tk.withhold && (r.cls == 0 || r.cls == 2), held := none, moved := 0, buf := [], bufBad := [],
                    epc := pc, retried := false, ord := (s.island n).ord, waits := false, meshBad := [], lost := false }
                let s := (s.modIsl n (fun i => { i with ord := i.ord + 1 })).retire n k (fun x =>
                  { x.setReg rd.val (BitVec.ofNat 64 t) with tags := NMap.set x.tags t d })
                s.launch n k t d)

/-! ### Completion -/

/-- A store of a paired task entered in its log (R307). -/
def State.logTask (tid kind off : Nat) (d : Bytes) (s : State) : State :=
  s.modTask tid (fun t => match t.ent.twin with
    | some _ => { t with slog := logStore kind off d (s.view 0x90) t.slog }
    | none => t)

/-- Poisoned parts that fall into a piece of the data. -/
def cutBad (bad : List (Nat × Nat)) (off len : Nat) : List (Nat × Nat) :=
  bad.filterMap (fun x =>
    let lo := max x.1 off
    let hi := min (x.1 + x.2) (off + len)
    if lo < hi then some (lo - off, hi - lo) else none)

/-- Poisoned parts of the data of a request: as the Shelf marks them, with those that the mesh marked on the way (R32). -/
def Dma.badOf (d : Dma) (own : List (Nat × Nat)) : List (Nat × Nat) := own ++ d.meshBad

/-- The parts of a host write that are sent: its TLPs, cut at multiples of 512 bytes, up to the first that would carry poison;
and the Shelf address of that one's poison (R335). -/
def State.hostTlps (s : State) (n : Nat) (d : Dma) : List Nat → List (Nat × Nat) × Option Nat
  | [] => ([], none)
  | u :: us =>
    let addr := d.far % 2 ^ 61
    let lo := max u addr
    let len := min (u + 512) (addr + d.len) - lo
    match (s.island n).shelf.poisonIn wordB (d.shelf + (lo - addr)) len, (cutBad d.meshBad (lo - addr) len).head? with
    | some w, _ => ([], some w)
    | none, some b => ([], some ((d.shelf + (lo - addr) + b.1) / wordB * wordB))
    | none, none => let (r, w) := s.hostTlps n d us; ((lo, len) :: r, w)

/-- A host write goes out TLP by TLP and is one store of its task; a TLP that would carry poison is not sent, and the task ends
(R307, R335). -/
def State.hostStores (n k t : Nat) (d : Dma) (tk : Task) (s : State) : State :=
  let addr := d.far % 2 ^ 61
  let tid := (s.slot n k).task
  let (parts, bad) := s.hostTlps n d (unitsOf 512 addr d.len)
  let st := (s.island n).shelf
  let b := st.read d.shelf (parts.map (·.2)).sum
  let s := parts.foldl (fun s x => s.hostWrite tk.tenant x.1 (slice b (x.1 - addr) x.2)) s
  let s := ((s.modTask tid (fun t => { t with written := t.written + b.length })).logTask tid 1 (addr - dOutAddr tk.ent.raw) b).finishTag
    n k t false
  match bad with
  | some w => s.poisoned n k d.epc w
  | none => s

/-- The Cellar as a task sees it: with its own held writes into its state block (R126). -/
def State.cellarView (s : State) (t : Task) : Store :=
  t.pend.foldl (fun st w => st.land lineB w.1 w.2.1 w.2.2) s.cellar.store

/-- A part of a Cellar write: held where it lies in the task's state block, landed elsewhere. -/
def State.cellarPart (tid : Nat) (t : Task) (a : Nat) (b : Bytes) (bad : List (Nat × Nat)) (s : State) : State :=
  if b.isEmpty then s
  else if t.inState a b.length then s.modTask tid (fun t => { t with pend := t.pend ++ [(a, b, bad)] })
  else s.cellarLand a b bad

/-- A Cellar write, split at the ends of the task's state block. -/
def State.cellarStore (tid : Nat) (t : Task) (a : Nat) (b : Bytes) (bad : List (Nat × Nat)) (s : State) : State :=
  let lo := if dUsesState t.ent.raw then max a (min (dState t.ent.raw) (a + b.length)) else a + b.length
  let hi := if dUsesState t.ent.raw then max lo (min (dState t.ent.raw + t.stateBytes) (a + b.length)) else a + b.length
  let p1 := lo - a
  let p2 := hi - lo
  ((s.cellarPart tid t a (b.take p1) (cutBad bad 0 p1)).cellarPart tid t lo (slice b p1 p2) (cutBad bad p1 p2)).cellarPart
    tid t hi (b.drop (p1 + p2)) (cutBad bad (p1 + p2) (b.length - p1 - p2))

/-- A refresh collision counted by its controller (R316, R338). -/
def State.collide (a stall : Nat) (s : State) : State :=
  if stall = 0 then s
  else s.modCctl (a / 256 % 4) (fun c => { c with collisions := wrap1 32 c.collisions, maxWait := max c.maxWait stall })

/-- DMA_COMPLETE: the far side of a request has answered, or its last handshake is acknowledged. A request that a lost packet
served waits for its timer (R32); a stopped task's read brings nothing (R145). -/
def State.dmaDone (n k t : Nat) (r : DmaResult) (s : State) : State :=
  match s.tag? n k t with
  | none => s
  | some d =>
    if d.done || d.held.isSome || d.waits || d.lost || s.tiedWaits n k d then s
    else match s.task? (s.slot n k).task with
      | none => s.finishTag n k t false
      | some tk =>
        let tid := (s.slot n k).task
        match d.cls with
        | 0 | 2 =>
          if d.write && d.drop then (s.finishTag n k t false).tiedGo n k
          else if d.write then ((s.tiedWritten n k d).hostStores n k t d tk).tiedGo n k
          else s.respond n k t d (r.data.take d.len) (d.badOf r.bad) r.err 0 0 false
        | 3 => if s.streamOver n d then s.finishTag n k t false else s
        | 4 | 6 =>
          let a := d.far % 2 ^ 49
          let s := s.collide a r.stall
          if r.err then s.respond n k t d [] [] true r.stall 0 false
          else if d.write then
            let st := (s.island n).shelf
            let b := st.read d.shelf d.len
            let s := (s.cellarStore tid tk a b (d.badOf (st.badIn wordB d.shelf d.len))).tiedWritten n k d
            s.respond n k t d [] [] false r.stall 0 false
          else
            let v := s.cellarView tk
            (s.countLines false a d.len).respond n k t d (v.read a d.len) (d.badOf (v.badIn lineB a d.len)) false r.stall 0 false
        | _ => s

def execDmaRd (isl : IslN) (rd rs1 : Reg) (s : State) : Answer := .next (s.dmaOp isl false rd rs1)
def execDmaWr (isl : IslN) (rd rs1 : Reg) (s : State) : Answer := .next (s.dmaOp isl true rd rs1)
def execDmaComplete (isl : IslN) (slot : SlotN) (tag : Tag) (r : DmaResult) (s : State) : Answer :=
  .next (s.dmaDone isl slot tag r)

end Sys2Proof.Machine
end

