-- ==== Sys2Proof/Machine/Clocks.lean ====
section
/-! DEFINITION. Island clocks (R18–R25): the effective ceiling, retunes, what a change of it does to a Level T room's
timing (R299, R300), and the return of a room to TIMED. -/

namespace Sys2Proof.Machine

open Sys2Proof

def isT (u : Nat) : Bool := decide (0x10 ≤ u) && decide (u < 0x50)
def isRce (u : Nat) : Bool := decide (0x50 ≤ u) && decide (u < 0x60)
def isEle (u : Nat) : Bool := decide (0x60 ≤ u) && decide (u < 0x64)

/-- A room uses the unit of a source number. -/
def RoomCfg.hasUnit (r : RoomCfg) (u : Nat) : Bool :=
  (isT u && r.islands.getLsbD (u - 0x10)) || (isRce u && r.rces.getLsbD (u - 0x50)) || (isEle u && r.eles.getLsbD (u - 0x60))

/-- Rooms that use a unit, ascending. -/
def State.roomsOn (s : State) (u : Nat) : List Nat := (s.living.rooms.filter (fun e => e.2.hasUnit u)).map (·.1)

/-- CEIL_EFF in force. -/
def State.ceilEff (s : State) (src : Nat) : Nat :=
  if (s.clkIsl src).ceilEff = 0 then ceilDefault s.ident.grade src else (s.clkIsl src).ceilEff

/-- A task of a room in state TIMED occupies the unit: the thermal ceiling is not applied (R298). -/
def State.thermalFree (s : State) (src : Nat) : Bool :=
  (s.roomsOn src).any (fun m => (s.room m).timed == 1 && s.roomRunning m != 0)

/-- The effective ceiling of R19, with the thermal ceiling of R447. -/
def State.ceilNow (s : State) (src : Nat) : Nat :=
  let ceil := fld (s.rwt (offClkCfg src)) 0 12
  let a := ceil * (16 - (s.unit src).cstep) / 400
  if (isT src || isEle src) && !s.thermalFree src then 25 * min a (ceil * s.plat.k / 800) else 25 * a

/-- The sources with a DCO. -/
def dcoSources : List Nat := (List.range 0x84).filter isDco

/-- A retune to a new effective ceiling begins (R24). The same while the reference is lost, although R40 then has the
island hold its last control word (DESIGN CHOICE, log entry 79). -/
def State.retuneTo (src new : Nat) (s : State) : State :=
  let old := s.ceilEff src
  s.modClkIsl src (fun c =>
    let f := if c.freq = 0 then old else c.freq
    { c with ceilEff := new, retune := some new, freq := min f new })

/-- A change of CEIL_EFF of an island of a Level T room: its TEPOCH, and a break while a task runs (R299, R300). The
thermal ceiling that a task's own start lifts (R298) breaks nothing: `fresh` is the room of a task that starts now. -/
def State.clockChanged (src : Nat) (fresh : Option Nat) (s : State) : State :=
  ((s.roomsOn src).filter s.levelT).foldl (fun s m =>
    let s := s.modRoom m (fun r => { r with tepoch := wrap1 16 r.tepoch })
    if s.roomRunning m != 0 && fresh != some m then s.timingBreak m 5 else s) s

/-- Every DCO island whose effective ceiling has changed begins to retune. -/
def State.syncCeilAt (fresh : Option Nat) (s : State) : State :=
  dcoSources.foldl (fun s src =>
    let new := s.ceilNow src
    if new = s.ceilEff src then s else (s.retuneTo src new).clockChanged src fresh) s

def State.syncCeil (s : State) : State := s.syncCeilAt none

/-- A retune ends: the island is on its new triangle. -/
def State.retuneDone (src : Nat) (s : State) : State :=
  s.modClkIsl src (fun c => match c.retune with
    | some new => { c with freq := new, retune := none }
    | none => c)

/-- Length of a spread period, ns (R20). -/
def spreadPeriod : Nat := 31744

/-- Where an island stands on its spread triangle: the time from the nearest peak, ns, by its GTC view and PHASE (R20). -/
def State.fromPeak (s : State) (src : Nat) : Nat :=
  let x := (s.view src + 31 * fld (s.rwt (offClkCfg src)) 16 10) % spreadPeriod
  min x (spreadPeriod - x)

/-- Spread is on for an island: from the GTC's validity on, unless SPREAD turns it off (R22, Table 2-6). -/
def State.spreadOn (s : State) (src : Nat) : Bool := s.clk.valid && !bitOf (s.rwt (offClkCfg src)) 12

/-- Ceiling of the triangle an island is on, MHz (R20, R24). -/
def State.triCeil (s : State) (src : Nat) : Nat := if (s.clkIsl src).freq = 0 then s.ceilEff src else (s.clkIsl src).freq

/-- Denominator of instantaneous frequencies: half a period times 200, so that 0.5% of a ceiling over half a period is
one unit per MHz and nanosecond. -/
def freqDen : Nat := 200 * (spreadPeriod / 2)

/-- The instantaneous frequency, in MHz over `freqDen` (R20): CEIL_EFF at a peak of the triangle, 0.995 × CEIL_EFF half a
period from it, and on straight lines between. -/
def State.instFreq (s : State) (src : Nat) : Nat :=
  s.triCeil src * (if s.spreadOn src then freqDen - s.fromPeak src else freqDen)

/-- FREQ_MHZ: the average of the spread triangle, or the ceiling while spread is off (R20, R22). It is the average of the
triangle in force, also in the first 31,744 ns after a change (DESIGN CHOICE, log entry 79). -/
def State.freqMhz (s : State) (src : Nat) : Nat :=
  if s.spreadOn src then s.triCeil src * 9975 / 10000 else s.triCeil src

/-- Pacing is in force on the islands and RCEs of a Level T room (R25). -/
def State.pacedOn (s : State) (src : Nat) : Bool := (isT src || isRce src) && (s.roomsOn src).any s.levelT

/-! ### Return to TIMED (R300) -/

/-- An event of R300: the room returns between tasks, when the junction is below the throttle threshold. -/
def State.returnTimed (m : Nat) (s : State) : State :=
  if (s.room m).timed != 2 then s
  else if s.roomRunning m != 0 then s.modRoom m (fun r => { r with rearm := true })
  else if s.hotJunction then s.modRoom m (fun r => { r with rearm := false })
  else s.modRoom m (fun r => { r with timed := 1, rearm := false, tepoch := wrap1 16 r.tepoch })

/-- A room with no task left takes up a return that waited. -/
def State.settleTimed (m : Nat) (s : State) : State :=
  if (s.room m).rearm && s.roomRunning m == 0 then s.returnTimed m else s

def execRearm (room : Room) (s : State) : Answer := .next (s.returnTimed room)
def execDcoRetune (src : Nat) (s : State) : Answer := .next (s.retuneDone src)

end Sys2Proof.Machine
end

