-- ==== Sys2Proof/Machine/Crates.lean ====
section
/-! DEFINITION. The crates of an island when the slot they belong to changes: which save pages they go to, what is
saved, what is restored (R170, R171). -/

namespace Sys2Proof.Machine

open Sys2Proof

/-- The save pages of a slot: its highest-numbered working pages (R170). -/
def Slot.savePages (x : Slot) : List Nat := x.pages.drop (x.pages.length - x.hold)

/-- The crates a slot holds FULL with the page of each: the m-th crate has the m-th page (R171). -/
def Slot.savePlan (x : Slot) : List (Nat × Nat) := (insAll x.full []).zip x.savePages

def crateB : Nat := 4096

/-- A slot's FULL crates go to its save pages, poison and all. -/
def State.saveCrates (n k : Nat) (s : State) : State :=
  let plan := (s.slot n k).savePlan
  let s := plan.foldl (fun s x =>
    let c := (s.island n).crate x.1
    s.modShelf n (fun st => st.land wordB x.2 (c.read 0 crateB) (c.badIn wordB 0 crateB))) s
  s.modIsl n (fun i =>
    { i with swSaved := (i.swSaved + plan.length) % 2 ^ 32
             slots := NMap.upd i.slots k .reset (fun x => { x with saved := plan.map (·.1) }) })

/-- A slot's saved crates come back. -/
def State.restoreCrates (n k : Nat) (s : State) : State :=
  let x := s.slot n k
  let plan := x.savePlan.filter (fun e => x.saved.contains e.1)
  let s := plan.foldl (fun s e =>
    let st := (s.island n).shelf
    s.modCrate n e.1 (fun _ => Store.empty.land wordB 0 (st.read e.2 crateB) (st.badIn wordB e.2 crateB))) s
  s.modIsl n (fun i =>
    { i with swRestored := (i.swRestored + plan.length) % 2 ^ 32
             slots := NMap.upd i.slots k .reset (fun x => { x with saved := [] }) })

/-- A slot whose crates stand in the crate unit. -/
def State.holdsCrates (s : State) (n k : Nat) : Bool :=
  (s.island n).slots.any (fun e => e.1 == k && !e.2.full.isEmpty && e.2.saved.isEmpty)

/-- ECC errors that an operation of a slot meets in the crates in place: a corrected word is counted; another is marked poisoned,
counted and logged (R176). -/
def State.crateEcc (n k : Nat) (errs : List CrateErr) (s : State) : State :=
  let ten := match s.task? (s.slot n k).task with | some t => t.tenant | none => noTenant
  errs.foldl (fun s e =>
    if e.fatal then
      ((s.modCrate n e.crate.val (fun c => c.mark [8 * e.word.val])).modIsl n (fun i => { i with crUncorr := sat1 16 i.crUncorr })).emit
        (0x10 + n) 4 2 ten 3 [crateLoc e.crate.val (8 * e.word.val)]
    else s.modIsl n (fun i => { i with crCorr := sat1 32 i.crCorr })) s

/-- The next swap ends: the owner's crates saved, the incoming slot's restored, once the owner's issued operations have completed
(R171). -/
def State.swapDone (n : Nat) (errs : List CrateErr) (s : State) : State :=
  let i := s.island n
  match i.swapTo with
  | [] => s
  | k :: rest =>
    if i.xfers.any (fun x => x.slot == i.owner && x.slot != k) || i.grid.any (fun g => g.slot == i.owner && g.slot != k) then s
    else
      let s := s.crateEcc n i.owner errs
      let s := if i.owner != k && s.holdsCrates n i.owner then s.saveCrates n i.owner else s
      let s := (s.modIsl n (fun i => { i with crates := if i.owner = k then i.crates else [] })).restoreCrates n k
      s.modIsl n (fun i => { i with owner := k, swapTo := rest })

def execCrateSwapDone (x : SwapEnd) (s : State) : Answer := .next (s.swapDone x.isl x.errs)

end Sys2Proof.Machine
end

