-- ==== Sys2Proof/Machine/Ras.lean ====
section
/-! DEFINITION. Silent errors, sweeps and retirement (R385–R408): the bound and its conditions, suspicion, Sweep, Audit
tests, verification, margin steps, draining and the retirement record. -/

namespace Sys2Proof.Machine

open Sys2Proof

/-! ### Units -/

/-- The 84 units by source number (R390). -/
def rasUnits : List Nat := (List.range 84).map (· + 0x10)
def isUnit (u : Nat) : Bool := decide (0x10 ≤ u) && decide (u < 0x64)

/-- Steps of a unit's pass, and the number of its first step (Table 18-5). -/
def passLen (u : Nat) : Nat := if isT u then 48 else 8
def testBase (u : Nat) : Nat := if isT u then 0 else if isRce u then 0x80 else 0x90
/-- Test number of a step of a pass. -/
def testNo (u step : Nat) : Nat := testBase u + step % passLen u

def chipRas : RasChipCfg := { sweepS := 0, scrubH := 0, cflags := 0, refresh := 0 }
def State.rasChip (s : State) : RasChipCfg := s.living.rasChip.getD chipRas
def State.sweepS (s : State) : Nat := if s.rasChip.sweepS = 0 then 600 else s.rasChip.sweepS
def State.scrubHours (s : State) : Nat := if s.rasChip.scrubH = 0 then 24 else s.rasChip.scrubH
def State.residueOff (s : State) : Bool := nbit s.rasChip.cflags 0
def State.sweepOff (s : State) : Bool := nbit s.rasChip.cflags 1

/-- RAS policy of a room. -/
def State.rasRoom? (s : State) (m : Nat) : Option RasRoomCfg :=
  match s.roomCfg? m with
  | some r => NMap.find? s.living.rasRooms r.rasKey
  | none => none

def State.withholdOf (s : State) (m : Nat) : Bool := match s.rasRoom? m with | some c => c.withhold == 1 | none => false

/-- A T-island has no slot READY or RUNNING; an engine has no request that runs or waits, those apart that a suspicion holds
(R391, R398). -/
def State.unitIdle (s : State) (u : Nat) : Bool :=
  if isT u then (s.island (u - 0x10)).slots.all (fun e => e.2.st != .ready && e.2.st != .running)
  else if isRce u then
    let n := u - 0x50
    (s.rceRt n).run.isNone && s.eng.reqs.all (fun x => x.rce != n || !s.mayServe u x.stamp)
      && s.eng.rceIn.all (fun x => x.eng != n || (s.unit u).health != .healthy)
  else (s.eleRt (u - 0x60)).layer.isNone && s.eng.eleIn.all (fun x => x.eng != u - 0x60 || !s.mayServe u x.stamp)

/-- No task occupies the unit (R398). -/
def State.unitFree (s : State) (u : Nat) : Bool :=
  if isT u then (s.island (u - 0x10)).slots.all (fun e => e.2.st == .free) else s.unitIdle u

/-- Tasks that occupy a unit. -/
def State.tasksOn (s : State) (u : Nat) : List Nat :=
  if isT u then (s.tasks.live.filter (fun t => t.2.slots.any (fun x => x.1 == u - 0x10))).map (·.1)
  else if isRce u then
    match (s.rceRt (u - 0x50)).run with
    | some r => ((s.eng.jobs.filter (fun j => j.from_.ord == r.job)).map (·.from_.task))
    | none => []
  else match (s.eleRt (u - 0x60)).layer with | some l => [l.task] | none => []

/-! ### The bound (R385, R386) -/

/-- Sensors within the limits of R456. -/
def State.withinLimits (s : State) : Bool :=
  let r := s.plat.sensors
  let hi := if s.ident.board = 2 then 40 else 45
  decide (5 ≤ r.inletC) && decide (r.inletC ≤ hi) && decide (r.tjC < 100) && decide (r.hbm0C < 100) && decide (r.hbm1C < 100)

/-- Failing conditions of Table 18-1, as COND shows them. -/
def State.boundCond (s : State) : Nat :=
  b2n (s.sweepOff || decide (600 < s.sweepS)) + 2 * b2n s.residueOff + 4 * b2n (decide (24 < s.scrubHours))
    + 8 * b2n s.ras.missed + 16 * b2n (!s.withinLimits)

def State.boundNow (s : State) : Bool := !s.b0 && s.plat.ready && s.boundCond == 0 && s.ras.drain == 0

/-- A change of BOUND logs an event from the Housekeeper. -/
def State.checkBound (s : State) : State :=
  if s.boundNow == s.ras.bound then s
  else (s.modRas (fun r => { r with bound := !r.bound })).emit 0 8 5 noTenant 1 [0]

/-! ### Suspicion (R388, R398, R399) -/

/-- Tasks that occupy a unit when it becomes suspect, in rooms with WITHHOLD. -/
def State.withholdOn (u : Nat) (s : State) : State :=
  (s.tasksOn u).foldl (fun s tid => match s.task? tid with
    | some t => if s.withholdOf t.room then s.modTask tid (fun t => { t with withhold := true }) else s
    | none => s) s

/-- A cause of Table 18-4: a healthy unit becomes suspect. -/
def State.suspect (u cause : Nat) (s : State) : State :=
  if isUnit u && (s.unit u).health == .healthy then
    let s := s.modUnit u (fun x =>
      { x with health := .suspect, cause := cause, firstCause := if x.firstCause = 0 then cause else x.firstCause
               suspicions := sat1 16 x.suspicions, since := s.view 0 })
    (s.withholdOn u).emit 0 8 2 noTenant 2 [u]
  else s

/-! ### Draining (R403) -/

/-- Every waiting descriptor completes with INTERNAL. -/
def State.drainQueues (s : State) : State :=
  s.qm.queues.foldl (fun s e =>
    let s := s.modQueue e.1 (fun r => { r with waiting := [] })
    e.2.waiting.foldl (fun s d => s.postRec ((s.queueRing e.1).getD 0) (s.descRec e.1 d.raw 0x7F 0xD0 0)) s) s

def State.startDrain (u : Nat) (s : State) : State :=
  if s.ras.drain != 0 then s
  else
    let s := s.modRas (fun r => { r with drain := 1, drainAt := s.view 0, stopped := 0 })
    ((s.emit 0 8 6 noTenant 4 [u]).drainQueues).checkBound

/-- A unit fails: the device drains (Table 18-6). -/
def State.failUnit (u : Nat) (s : State) : State :=
  ((s.modUnit u (fun x => { x with health := .failed })).modRas
    (fun r => { r with toRetire := r.toRetire ++ [(u, s.view 0)] })).startDrain u

/-! ### Margin steps (R400, R401) -/

/-- The room of a T-island, if it is in one. -/
def State.unitRoom (s : State) (u : Nat) : Option Nat := if isT u then s.roomOf (u - 0x10) else none

/-- Whether the unit takes clock steps, and its limit. -/
def State.marginRule (s : State) (u : Nat) : Bool × Nat :=
  match s.unitRoom u with
  | some m => match s.rasRoom? m with | some c => (c.margin == 1, c.maxSteps) | none => (false, 4)
  | none => (false, 4)

def State.atLimit (s : State) (u : Nat) : Bool :=
  let x := s.unit u
  let (clock, lim) := s.marginRule u
  decide (lim ≤ x.vstep + x.cstep) || decide (4 ≤ (if clock then x.cstep else x.vstep))

/-- A margin step, or failure at the limit. -/
def State.marginStep (u : Nat) (s : State) : State :=
  if s.atLimit u then s.failUnit u
  else
    let clock := (s.marginRule u).1
    let s := s.modUnit u (fun x => if clock then { x with cstep := x.cstep + 1 } else { x with vstep := x.vstep + 1 })
    (s.emit 0 8 3 noTenant 2 [u]).syncCeil

/-- A failed verification: the step that failed is kept, and the unit takes a margin step (R398). -/
def State.verifyFail (u step : Nat) (s : State) : State :=
  (s.modUnit u (fun x => { x with health := .verifying, lastFail := testNo u step })).marginStep u

/-! ### Sweep (R389–R394) -/

def State.sweepRuns (s : State) : Bool := s.plat.ready && !s.sweepOff && !s.txn.quiesce && s.ras.drain == 0

/-- A Level T room of the unit runs a task (R393). -/
def State.levelTBusy (s : State) (u : Nat) : Bool := (s.roomsOn u).any (fun m => s.levelT m && s.roomRunning m != 0)

/-- Units not retired, and the time each has (R390). -/
def State.liveUnits (s : State) : List Nat := rasUnits.filter (fun u => (s.unit u).health != .retired)
def State.slotNs (s : State) : Nat := s.sweepS * 1000000000 / max s.liveUnits.length 1

/-- Sweep moves to the next unit; after the last a round ends (R390, R394). -/
def State.sweepNext (s : State) : State :=
  let us := s.liveUnits
  match us.find? (fun u => decide (s.ras.sweepUnit < u)) with
  | some u => s.modRas (fun r => { r with sweepUnit := u, sweepStep := 0, sweepBusy := false, sweepForced := false, slotStart := s.clk.gtc })
  | none =>
    (s.modRas (fun r =>
      { r with sweepUnit := us.headD 0x10, sweepStep := 0, sweepBusy := false, sweepForced := false, slotStart := s.clk.gtc
               rounds := wrap1 16 r.rounds, missed := r.missed && r.roundMiss, roundMiss := false })).checkBound

/-- Before a step on a T-island, the crates of the slot that last ran are saved; the step leaves every crate EMPTY
(R389). -/
def State.clearForTest (u : Nat) (s : State) : State :=
  if isT u then
    let n := u - 0x10
    let k := (s.island n).owner
    (if s.holdsCrates n k then s.saveCrates n k else s).modIsl n (fun i => { i with crates := [] })
  else s

/-- Nothing that the units of an island run stands in the way of a test. -/
def State.testable (s : State) (u : Nat) : Bool :=
  s.unitIdle u && (!isT u || (let i := s.island (u - 0x10); i.xfers.isEmpty && i.grid.isEmpty && i.vec.isEmpty))

def State.wake (u : Nat) (s : State) : State := s.modPlat (fun p => { p with gated := p.gated.filter (· != u) })

def State.sweepStart (s : State) : State :=
  let u := s.ras.sweepUnit
  if s.sweepRuns && !s.ras.sweepBusy && (s.unit u).health == .healthy && s.testable u && !s.levelTBusy u then
    ((s.wake u).clearForTest u).modRas (fun r =>
      { r with sweepBusy := true, forced := if r.sweepForced then wrap1 16 r.forced else r.forced })
  else s

def State.sweepDone (pass_ : Bool) (s : State) : State :=
  let u := s.ras.sweepUnit
  let step := s.ras.sweepStep
  if !s.ras.sweepBusy then s
  else
    let s := s.modRas (fun r => { r with sweepBusy := false, steps := wrap1 32 r.steps })
    if pass_ then
      if step + 1 < passLen u then s.modRas (fun r => { r with sweepStep := step + 1 })
      else (s.modUnit u (fun x => { x with lastPass := s.view 0 })).sweepNext
    else
      (s.modUnit u (fun x => { x with fails := sat1 16 x.fails, lastFail := testNo u step })).suspect u 2

/-- A Level T room of the unit has a task that could start but for the step (R301). -/
def State.sweepKeeps (s : State) (u : Nat) : Bool :=
  let t := s.modRas (fun r => { r with sweepBusy := false })
  (s.roomsOn u).any (fun m => s.levelT m && (t.nextHead m).isSome)

/-- In Prepare, an island of an affected room that no task of an affected room occupies (R82). -/
def State.readyInPrepare (s : State) (u : Nat) : Bool :=
  s.txn.hatch.st == .prepare && isT u
    && (s.roomsOn u).any (fun m => bitOf s.txn.hatch.rooms m)
    && s.tasks.live.all (fun t => !bitOf s.txn.hatch.rooms t.2.room || t.2.slots.all (fun x => x.1 != u - 0x10))

/-- An unforced step yields to work, to a Level T task that waits for it, and to a Hatch in Prepare (R82, R301, R391, R392). -/
def State.sweepYield (s : State) : State :=
  let u := s.ras.sweepUnit
  if s.ras.sweepBusy && !s.ras.sweepForced && (!s.unitIdle u || s.sweepKeeps u || s.readyInPrepare u) then
    s.modRas (fun r => { r with sweepBusy := false, yields := wrap1 16 r.yields })
  else s

/-- 75% of the slot has passed: the steps that remain are forced (R392). -/
def State.sweepForce (s : State) : State :=
  if s.sweepRuns then (s.reach (s.ras.slotStart + s.slotNs * 3 / 4)).modRas (fun r => { r with sweepForced := true }) else s

/-- The slot of a unit ends with its pass unfinished: a coverage miss (R394). -/
def State.slotEnd (s : State) : State :=
  if s.sweepRuns then
    let s := (s.reach (s.ras.slotStart + s.slotNs)).modRas (fun r => { r with misses := sat1 16 r.misses, roundMiss := true, missed := true })
    ((s.emit 0 8 4 noTenant 2 [s.ras.sweepUnit]).checkBound).sweepNext
  else s

/-! ### Audit tests (R395–R397) -/

def offAudit : Nat := 0xA0020
def offDrain : Nat := 0xA0028

def State.auditGo (v : Word) (s : State) : State :=
  let u := fld v 0 12
  let s := s.setReg offAudit (packW [(0, 12, u)])
  if !bitOf v 16 || s.ras.auditBusy then s
  else if s.ras.drain != 0 then s.modRas (fun r => { r with auditRes := 5, auditTest := 0 })
  else if !isUnit u || (s.unit u).health == .retired then s.modRas (fun r => { r with auditRes := 4, auditTest := 0 })
  else s.modRas (fun r =>
    { r with auditBusy := true, auditUnit := u, auditAt := s.clk.gtc, auditRes := 0, auditTest := 0 })

/-- A test pass of a unit may run now. -/
def State.auditable (s : State) (u : Nat) : Bool :=
  s.testable u && !(s.ras.sweepBusy && s.ras.sweepUnit == u)

/-- What a test pass leaves on its unit: a pass its time; a failure suspicion with CAUSE 3, and a failed verification
(R397). -/
def State.auditResult (u : Nat) (failed : Option Nat) (s : State) : State :=
  let s := (s.wake u).clearForTest u
  match failed with
  | none => s.modUnit u (fun x => { x with lastPass := s.view 0 })
  | some step => (s.suspect u 3).verifyFail u step

/-- The room Audit of a Hatch begins: every unit of the room, ascending (R396). -/
def State.startRoomAudit (m req : Nat) (s : State) : State :=
  match s.roomCfg? m with
  | none => s
  | some r =>
    s.modRas (fun x => { x with roomAudits := NMap.upd x.roomAudits m .reset (fun a =>
      { a with todo := rasUnits.filter r.hasUnit, failed := [], req := req }) })

def State.roomAudit (s : State) (m : Nat) : RoomAudit := NMap.getD s.ras.roomAudits m .reset

/-- The tests of a room have ended. -/
def State.endRoomAudit (m : Nat) (s : State) : State :=
  let a := s.roomAudit m
  let s := s.modRas (fun x => { x with roomAudits := NMap.upd x.roomAudits m .reset (fun a =>
    { a with result := if a.failed.isEmpty then 1 else 2, doneSeq := a.req }) })
  s.emit 0 8 8 (s.roomTenant m) 1 (a.failed.flatMap (fun x => [x.1, x.2]))

def State.roomTestDone (m : Nat) (failed : Option Nat) (s : State) : State :=
  match (s.roomAudit m).todo with
  | [] => s
  | u :: rest =>
    if s.auditable u then
      let s := s.modRas (fun x => { x with roomAudits := NMap.upd x.roomAudits m .reset (fun a =>
        { a with todo := rest, failed := match failed with
            | some k => a.failed ++ [(u, testNo u k)]
            | none => a.failed }) })
      let s := s.auditResult u failed
      if rest.isEmpty then s.endRoomAudit m else s
    else s

def State.auditDone (room : Option Nat) (failed : Option Nat) (s : State) : State :=
  match room with
  | some m => s.roomTestDone m failed
  | none =>
    let u := s.ras.auditUnit
    if s.ras.auditBusy && s.auditable u then
      (s.modRas (fun r => { r with auditBusy := false, auditRes := if failed.isSome then 2 else 1
                                   auditTest := match failed with | some k => testNo u k | none => 0 })).auditResult u failed
    else s

/-- A unit that is not idle 100 ms after GO (R395). -/
def State.auditAbort (s : State) : State :=
  if s.ras.auditBusy && !s.auditable s.ras.auditUnit then
    (s.reach (s.ras.auditAt + 100000000)).modRas (fun r => { r with auditBusy := false, auditRes := 3 })
  else s

/-! ### Verification (R398, R401) -/

def State.verifyStart (u : Nat) (s : State) : State :=
  if (s.unit u).health == .suspect && s.unitFree u && s.auditable u then
    ((s.wake u).clearForTest u).modUnit u (fun x => { x with health := .verifying })
  else s

/-- The sixty minutes of R401. -/
def verifyWindow : Nat := 3600000000000

def State.verifyDone (u : Nat) (failed : Option Nat) (s : State) : State :=
  if (s.unit u).health == .verifying then
    match failed with
    | some step => s.verifyFail u step
    | none =>
      let now := s.clk.gtc
      let passes := (s.unit u).passes.filter (fun g => decide (now ≤ g + verifyWindow)) ++ [now]
      let s := s.modUnit u (fun x => { x with health := .healthy, passes := passes, lastPass := s.view 0 })
      if 3 ≤ passes.length then s.marginStep u else s
  else s

/-! ### The end of a drain (R403, R405) -/

def State.drainLimitMs (s : State) : Nat :=
  let v := fld (s.reg offDrain 10) 0 16
  if 1 ≤ v && v ≤ 10000 then v else 10

/-- Tasks still running are stopped. -/
def State.drainLimit (s : State) : State :=
  if s.ras.drain = 1 then
    let s := s.reach (s.ras.drainAt + s.drainLimitMs * 1000000)
    s.tasks.live.foldl (fun s e => match e.2.slots with
      | (n, k) :: _ =>
        if (s.slot n k).st == .ending || e.2.status.isSome then s
        else (s.stopTask e.1 0x7F (0xD1 + n * 256)).modRas (fun r => { r with stopped := wrap1 16 r.stopped })
      | [] => s) s
  else s

/-- A unit's retirement entry (R405). -/
def State.retireEntry (s : State) (u gtc : Nat) : Retire :=
  let x := s.unit u
  { a := BitVec.ofNat 64 gtc
    b := packW [(0, 12, u), (12, 4, x.firstCause), (16, 3, x.vstep), (20, 3, x.cstep), (24, 8, x.lastFail), (32, 1, 1)] }

/-- The entries of failed units written: each is RETIRED; the record holds eight. -/
def State.writeRetire (s : State) : State :=
  let s := s.ras.toRetire.foldl (fun s x =>
    let e := s.retireEntry x.1 x.2
    (s.modUnit x.1 (fun u => { u with health := .retired })).modRas
      (fun r => { r with record := if r.record.length < 8 then r.record ++ [e] else r.record })) s
  s.modRas (fun r => { r with toRetire := [] })

def State.drainComplete (s : State) : State :=
  if s.ras.drain != 0 && s.tasks.live.isEmpty && !s.ras.toRetire.isEmpty then
    let first := s.ras.drain == 1
    let s := s.writeRetire
    if first then (s.modRas (fun r => { r with drain := 2 })).emit 0 8 7 noTenant 4 [0] else s
  else s

/-! ### Registers (Table 18-7) -/

def Health.code : Health → Nat
  | .healthy => 0 | .suspect => 1 | .verifying => 2 | .failed => 3 | .retired => 4

def State.suspects (s : State) : Nat :=
  (rasUnits.filter (fun u => (s.unit u).health == .suspect || (s.unit u).health == .verifying)).length

/-- RAS_UNIT_s and RAS_UNIT_s_PASS. -/
def State.readUnit (s : State) (u : Nat) (pass_ : Bool) : Word :=
  let x := s.unit u
  if pass_ then BitVec.ofNat 64 x.lastPass
  else packW [(0, 3, x.health.code), (4, 4, x.cause), (8, 3, x.vstep), (12, 3, x.cstep), (16, 16, x.suspicions), (32, 16, x.fails)]

def State.readRas (s : State) (off : Nat) : Word :=
  let r := s.ras
  if off = 0x0 then packW [(0, 2, r.drain), (2, 1, b2n s.boundNow), (3, 5, s.boundCond), (8, 8, s.suspects), (16, 4, r.record.length)]
  else if off = 0x8 then packW [(0, 12, r.sweepUnit), (16, 8, r.sweepStep), (32, 16, r.misses), (48, 16, r.rounds)]
  else if off = 0x10 then packW [(0, 32, r.steps), (32, 16, r.yields), (48, 16, r.forced)]
  else if off = 0x20 then
    packW [(0, 12, fld (s.reg offAudit 0) 0 12), (17, 1, b2n r.auditBusy), (20, 4, r.auditRes), (24, 8, r.auditTest)]
  else if off = 0x28 then packW [(0, 16, fld (s.reg offDrain 10) 0 16), (16, 16, r.stopped)]
  else if off = 0x30 then BitVec.ofNat 64 r.drainAt
  else if 0x100 ≤ off && off < 0x180 then
    match r.record[(off - 0x100) / 16]? with
    | some e => if off % 16 = 0 then e.a else e.b
    | none => 0
  else if 0x1100 ≤ off && off < 0x1640 then s.readUnit ((off - 0x1000) / 16) (off % 16 == 8)
  else if 0x2000 ≤ off && off < 0x2200 then
    let m := (off - 0x2000) / 8
    let a := s.roomAudit m
    packW [(0, 8, fld (s.rwt (offRoomAudit m)) 0 8), (8, 4, a.result), (16, 8, a.doneSeq)]
  else 0

/-! ### Commands -/

def execSweepSlotEnd (s : State) : Answer := .next s.slotEnd
def execSweepForce (s : State) : Answer := .next s.sweepForce
def execSweepStepStart (s : State) : Answer := .next s.sweepStart
def execSweepStepDone (pass_ : Bool) (s : State) : Answer := .next (s.sweepDone pass_)
def execSweepYield (s : State) : Answer := .next s.sweepYield
def execAuditGo (v : Word) (s : State) : Answer := .next (s.auditGo v)
def execAuditAbort (s : State) : Answer := .next s.auditAbort
def execVerifyStart (unit : Nat) (s : State) : Answer := .next (s.verifyStart unit)
def execVerifyDone (unit : Nat) (failed : Option Nat) (s : State) : Answer := .next (s.verifyDone unit failed)
def execDrainLimit (s : State) : Answer := .next s.drainLimit
def execDrainComplete (s : State) : Answer := .next s.drainComplete

end Sys2Proof.Machine
end

