-- ==== Sys2Proof/Machine/Pantry.lean ====
section
/-! DEFINITION. Windows as the host sees them, graph images and the Pantry directory, and scrubbing (Cellar, Shelf and
Poison, R319–R338): BAR4, LOAD with its checks and copies, UNLOAD, eviction, the scrubbers, and the Cellar and Shelf
registers. -/

namespace Sys2Proof.Machine

open Sys2Proof

/-! ### Directory pages (Tables 15-8 and 15-9) -/

/-- A Pantry window in force. -/
def State.pantryWin (s : State) (w : Nat) : Option WindowCfg :=
  match NMap.find? s.living.windows w with
  | some c => if c.kind = 1 then some c else none
  | none => none

/-- Lines of a range that are poisoned. -/
def State.poisonLines (s : State) (a len : Nat) : Nat :=
  (s.cellar.store.poison.filter (fun u => decide (a < u + lineB) && decide (u < a + len))).length

def PEntry.bytes (e : PEntry) (poison : Nat) : Bytes :=
  le 2 e.graph ++ le 1 e.room ++ le 1 e.state ++ le 1 e.code ++ zeros 3 ++ le 8 e.imageOff ++ le 4 (sat 32 poison)
    ++ zeros 12 ++ fit 32 e.gd ++ fit 32 e.wd ++ zeros 32

/-- An entry of the directory written to its page as it stands. -/
def State.writeEntry (w i : Nat) (s : State) : State :=
  match s.pantryWin w with
  | none => s
  | some c =>
    match NMap.find? (s.pwin w).entries i with
    | none => s.cellarWrite (c.base + 0x80 + 128 * i) (zeros 128)
    | some e => s.cellarWrite (c.base + 0x80 + 128 * i) (e.bytes (s.poisonLines (c.base + e.imageOff) e.length))

def State.setEntry (w i : Nat) (e : PEntry) (s : State) : State :=
  (s.modPwin w (fun p => { p with entries := NMap.set p.entries i e })).writeEntry w i

def State.dropEntry (w i : Nat) (s : State) : State :=
  (s.modPwin w (fun p => { p with entries := NMap.del p.entries i })).writeEntry w i

/-- A result posted: RES.RESULT, GRAPH and WHERE, then RES.SEQ (R325). -/
def State.postRes (w seq result graph whr : Nat) (s : State) : State :=
  match s.pantryWin w with
  | none => s
  | some c =>
    (s.cellarWrite (c.base + 0x44) (le 1 result ++ le 1 0 ++ le 2 graph ++ le 4 whr)).cellarWrite (c.base + 0x40) (le 4 seq)

/-- Entry number of a graph and room. -/
def PWin.findEntry (p : PWin) (graph room : Nat) : Option (Nat × PEntry) :=
  p.entries.find? (fun e => e.2.graph == graph && e.2.room == room)

/-- The lowest empty or refused entry. -/
def PWin.freeEntry (p : PWin) : Option Nat :=
  (List.range 31).find? (fun i => match NMap.find? p.entries i with | none => true | some e => e.state == 3)

/-! ### Pinned runs (R326, R327) -/

/-- Runs of an island that resident graphs hold, and those a load in progress has been given; the graph that the entries `skip`,
by window and number, hold apart. -/
def State.runsOn (s : State) (n : Nat) (skip : List (Nat × Nat)) : List (Nat × Nat) :=
  s.pantry.flatMap (fun w =>
    (w.2.entries.flatMap (fun e => if skip.contains (w.1, e.1) then [] else e.2.runs)
      ++ (match w.2.req with | some r => (match r.newEntry with | some e => e.runs | none => []) | none => [])).filterMap
      (fun r => if r.island = n then some (r.prog, r.progLen + r.pinLen) else none))

/-- The lowest free run of the pinned region, aligned to 64 bytes. -/
def State.freeRun (s : State) (n size : Nat) (skip : List (Nat × Nat)) : Option Nat :=
  let used := s.runsOn n skip
  let starts := insAll (0 :: used.map (fun r => cdiv (r.1 + r.2) 64 * 64)) []
  starts.find? (fun a => decide (a + size ≤ s.pin n) && used.all (fun r => decide (a + size ≤ r.1) || decide (r.1 + r.2 ≤ a)))

/-! ### The checks of a LOAD (Table 15-10) -/

def firstBad (l : List (Bool × Nat)) : Option Nat := (l.find? (·.1)).map (·.2)

/-- A graph image as LOAD reads it: its bytes by offset and length. -/
abbrev Img := Nat → Nat → Bytes

def Img.num (g : Img) (off len : Nat) : Nat := unle (g off len)
def Img.segs (g : Img) : Nat := g.num 0x0A 1
def Img.layers (g : Img) : Nat := g.num 0x0C 2
def Img.length (g : Img) : Nat := g.num 0x10 4
def Img.woff (g : Img) : Nat := g.num 0x14 4
def Img.seg (_ : Img) (i : Nat) : Nat := 0x40 + 32 * i
def Img.layer (g : Img) (j : Nat) : Nat := 0x40 + 32 * g.segs + 32 * j
/-- End of the tables. -/
def Img.tables (g : Img) : Nat := 0x40 + 32 * (g.segs + g.layers)

/-- BAD_IMAGE: image offset of the first field that breaks Table 15-5. -/
def Img.badHeader (g : Img) : Option Nat :=
  firstBad [(g 0 4 != [0x48, 0x47, 0x52, 0x46], 0), (g.num 4 2 != 1, 4), (decide (1 < g.num 6 2), 6),
    (g.num 0x0B 1 != 0, 0x0B), (g.layers == 0 || decide (1024 < g.layers), 0x0C),
    (g.num 0x0E 2 != 0, 0x0E), (g.length % 64 != 0 || decide (2 ^ 31 < g.length) || decide (g.length < g.tables), 0x10),
    (g.woff % 64 != 0 || decide (g.woff < g.tables) || decide (g.length < g.woff), 0x14), (g.num 0x20 4 % 64 != 0, 0x20),
    (nfld (g.num 0x24 4) 15 1 != 0 || nfld (g.num 0x24 4) 18 14 != 0, 0x24), (!allZero (g 0x28 24), 0x28)]

/-- The same for a segment record (Table 15-6). -/
def Img.badSeg (g : Img) (i : Nat) : Option Nat :=
  let o := g.seg i
  let po := g.num o 4
  let pl := g.num (o + 4) 4
  let wo := g.num (o + 8) 4
  let wl := g.num (o + 12) 4
  firstBad [(po % 64 != 0 || decide (g.woff < po + pl) || decide (g.woff ≤ po), o), (pl % 64 != 0, o + 4),
    (wo % 64 != 0 || (wl != 0 && (decide (wo < g.woff) || decide (g.length < wo + wl))), o + 8), (wl % 64 != 0, o + 12),
    (g.num (o + 0x13) 1 != 0, o + 0x13), (g.num (o + 0x1C) 4 != 0, o + 0x1C)]

/-- The same for a layer record (Table 15-7). -/
def Img.badLayer (g : Img) (j : Nat) : Option Nat :=
  let o := g.layer j
  let ele := g.num o 1 == 2
  firstBad [(decide (4 < g.num o 1), o), (decide (4 < g.num (o + 1) 1), o + 1), (decide (3 < g.num (o + 0x0C) 1), o + 0x0C),
    (decide (3 < g.num (o + 0x0D) 1), o + 0x0D), (!ele && g.num (o + 0x15) 1 != 0xFF, o + 0x15), (g.num (o + 0x16) 2 != 0, o + 0x16),
    (if ele then decide (g.length < g.num (o + 0x1C) 4 + 32) else g.num (o + 0x1C) 4 != 0, o + 0x1C)]

def Img.bad (g : Img) : Option Nat :=
  match g.badHeader with
  | some o => some o
  | none =>
    match (List.range g.segs).findSome? g.badSeg with
    | some o => some o
    | none => (List.range g.layers).findSome? g.badLayer

/-- SHAPE: image offset of what does not fit the room. -/
def Img.badShape (g : Img) (r : RoomCfg) (islands : Nat) : Option Nat :=
  if g.segs != islands then some 0x0A
  else (List.range g.layers).findSome? (fun j =>
    let o := g.layer j
    if g.num o 1 = 2 && decide (r.eleList.length ≤ g.num (o + 0x15) 1) then some (o + 0x15)
    else if g.num o 1 = 3 && r.rceList.isEmpty then some o else none)

/-- FORMAT: a format outside the room's profile, or a Grid layer in a strict room. -/
def Img.badFormat (g : Img) (c : NumericCfg) : Option Nat :=
  let m := g.num 0x24 4
  if (List.range 15).any (fun i => nbit m i && (match Fmt.ofCode i with | some f => !f.allowed c.family | none => true)) then
    some 0x24
  else if c.mode = 2 then ((List.range g.layers).find? (fun j => g.num (g.layer j) 1 == 0)).map g.layer
  else none

/-- Filter, stride, dilation and padding in one dimension of a layer record. -/
structure Dim where
  k : Nat
  s : Nat
  d : Nat
  p : Nat
  q : Nat
  deriving DecidableEq, Repr

def Img.rowDim (g : Img) (o : Nat) : Dim :=
  { k := g.num (o + 2) 1, s := g.num (o + 4) 1, d := g.num (o + 6) 1, p := g.num (o + 8) 1, q := g.num (o + 9) 1 }
def Img.colDim (g : Img) (o : Nat) : Dim :=
  { k := g.num (o + 3) 1, s := g.num (o + 5) 1, d := g.num (o + 7) 1, p := g.num (o + 10) 1, q := g.num (o + 11) 1 }

/-- A filter of an extent lies within Table 12-1. -/
def filterOk (ele two : Bool) (kh kw : Nat) : Bool :=
  let lim := if two then (if ele then 7 else 15) else (if ele then 63 else 31)
  decide (1 ≤ kw) && decide (kw ≤ lim) && (if two then decide (1 ≤ kh) && decide (kh ≤ lim) else kh == 1)

/-- Layers of a fused chain. -/
def Img.chain (g : Img) (c : Nat) : List Nat := (List.range g.layers).filter (fun j => g.num (g.layer j + 0x14) 1 == c)

/-- A layer that a chain of more than one may contain: a convolution on the Grid or the vector path, or an element-wise layer
(R251). -/
def Img.chains (g : Img) (j : Nat) : Bool :=
  let o := g.layer j
  g.num o 1 == 4 || (decide (g.num o 1 ≤ 1) && decide (g.num (o + 1) 1 ≤ 1))

/-- Layer j is the first of a fused chain. -/
def Img.leads (g : Img) (j : Nat) : Bool :=
  let c := g.num (g.layer j + 0x14) 1
  c != 0xFF && (g.chain c).head? == some j

/-- A chain that breaks R251, judged at its first layer. -/
def Img.badChain (g : Img) (j : Nat) : Bool :=
  let ls := g.chain (g.num (g.layer j + 0x14) 1)
  g.leads j && (decide (8 < ls.length) || ls != (List.range ls.length).map (· + j)
    || (decide (1 < ls.length) && !ls.all g.chains))

/-- Filter, stride and dilation of a layer in one dimension; an element-wise layer has a footprint of one. -/
def Img.foot (g : Img) (row : Bool) (j : Nat) : Dim :=
  let o := g.layer j
  let op := g.num (o + 1) 1
  let one : Dim := { k := 1, s := 1, d := 1, p := 0, q := 0 }
  if g.num o 1 == 4 || 3 < op then one else if row then (if op = 1 || op = 3 then g.rowDim o else one) else g.colDim o

/-- Extents in one dimension of a tile's input and of the map after each layer, for an output extent w, worked back from the
output (R252). -/
def tileExtents : List Dim → Nat → List Nat
  | [], w => [w]
  | f :: fs, w =>
    let rest := tileExtents fs w
    (((rest.headD 1) - 1) * f.s + (f.k - 1) * f.d + 1) :: rest

/-- Bytes of Shelf that a tile of the chain led by layer j takes: its input region and its intermediate maps (R252). What the
image does not state, the extent of the output tile and the size of an element, is free (log entry 55). -/
def Img.tileBytes (g : Img) (j : Nat) : Nat :=
  let ls := g.chain (g.num (g.layer j + 0x14) 1)
  let free := fun (k : Nat) => (Config.tile (unle (sha256 (g 0 g.woff))) j k).toNat
  let two := ls.any (fun i => g.num (g.layer i + 1) 1 == 1)
  let rows := tileExtents (ls.map (g.foot true)) (if two then max (free 0) 1 else 1)
  let cols := tileExtents (ls.map (g.foot false)) (max (free 1) 1)
  let chans := g.num (g.layer j + 0x10) 2 :: ls.map (fun i => g.num (g.layer i + 0x12) 2)
  ((List.range ls.length).map (fun k => cdiv (rows.getD k 0 * cols.getD k 0 * chans.getD k 0 * free (3 + k)) 8)).sum

/-- The tile of the chain that layer j leads does not fit the working region of an island of the room (R252). -/
def State.tileBad (s : State) (r : RoomCfg) (g : Img) (j : Nat) : Bool :=
  g.leads j && (g.chain (g.num (g.layer j + 0x14) 1)).all g.chains
    && r.isls.any (fun n => decide (4096 * (s.pages n).length < g.tileBytes j))

/-- The raw buffer of an ELE layer is a run of working pages of an island of the room (R256). -/
def State.eleRoomOk (s : State) (r : RoomCfg) (p : EleParam) : Bool :=
  r.isls.contains p.feed && p.chunkKib % 4 == 0 && decide (4 ≤ p.chunkKib) && decide (p.chunkKib ≤ 1920)
    && (unitsOf 4096 p.buf (p.chunkKib * 1024)).all (fun u => (s.pages p.feed).contains u) && p.buf % 4096 == 0

/-- A filter, its padding per side and the least extent in one dimension (R245, R247). -/
def padBad (k d p q mode ext : Nat) : Bool := decide ((k - 1) * d < max p q) || (mode == 2 && decide (ext ≤ max p q))

/-- The first limit code that a layer fails (Table 12-6). An ELE layer pads as its parameter block says, by the sides of its record
(log entry 55). -/
def State.limitCode (s : State) (r : RoomCfg) (g : Img) (j : Nat) : Option Nat :=
  let o := g.layer j
  let op := g.num (o + 1) 1
  let conv := decide (op ≤ 3)
  let two := op == 1 || op == 3
  let ele := g.num o 1 == 2
  let p := EleParam.parse (g (g.num (o + 0x1C) 4) 32)
  let dims := if two then [g.rowDim o, g.colDim o] else [g.colDim o]
  let grp := g.num (o + 0x0E) 2
  let minExt := g.num (o + 0x18) 4
  let shapeOk := filterOk ele two (g.rowDim o).k (g.colDim o).k
  firstBad [(conv && !ele && !shapeOk, 1),
    (ele && ((conv && !shapeOk) || !filterOk true (p.kh != 1) p.kh p.kw), 2),
    ((conv && dims.any (fun d => d.s == 0 || decide (8 < d.s))) || (ele && (p.stride == 0 || decide (8 < p.stride))), 3),
    ((conv && dims.any (fun d => d.d == 0 || decide (32 < d.d))) || (ele && (p.dil == 0 || decide (32 < p.dil))), 4),
    ((conv && !ele && dims.any (fun d => padBad d.k d.d d.p d.q (g.num (o + 0x0C) 1) minExt))
      || (ele && (padBad p.kh p.dil (g.rowDim o).p (g.rowDim o).q p.pmode minExt
        || (!p.causal && padBad p.kw p.dil (g.colDim o).p (g.colDim o).q p.pmode minExt))), 5),
    (ele && (op == 2 || op == 3 || (if p.ingest then decide (4 < p.cin) || decide (4 < g.num (o + 0x10) 2)
      else decide (4 < p.cout) || decide (4 < g.num (o + 0x12) 2))
      || decide (255 < g.num (o + 0x10) 2) || decide (255 < g.num (o + 0x12) 2)), 6),
    (g.badChain j, 7),
    ((conv && !ele && nbit (g.num (o + 0x0D) 1) 0 && minExt % max (g.colDim o).s 1 != 0)
      || (ele && p.causal && minExt % max p.stride 1 != 0), 8),
    (conv && decide (grp < g.num (o + 0x10) 2) && ((grp == 1 && g.num o 1 == 0) || (decide (4 ≤ grp) && g.num o 1 == 1)
      || (grp == 2 && decide (g.num o 1 ≤ 1) && (g.num o 1 == 1) != nbit (g.num (o + 0x0D) 1) 1)), 9),
    (s.tileBad r g j, 0x0A), (ele && !s.eleRoomOk r p, 0x0B)]

/-- The first failing check of the placement: PAGES, then PIN_SPACE; or the runs of the segments on this device. -/
def State.placeSegs (s : State) (g : Img) (before : Nat) (skip : List (Nat × Nat)) (isls : List Nat) :
    Except (Nat × Nat) (List PinRun) :=
  let on := isls.zipIdx.map (fun x => (x.1, g.seg (before + x.2)))
  match on.find? (fun x => decide ((s.pages x.1).length < g.num (x.2 + 0x10) 2)) with
  | some x => .error (0x14, x.2 + 0x10)
  | none =>
    match on.find? (fun x => decide (16 < g.num (x.2 + 0x12) 1) || decide (g.num (x.2 + 0x10) 2 < g.num (x.2 + 0x12) 1)) with
    | some x => .error (0x14, x.2 + 0x12)
    | none =>
      match on.find? (fun x => (s.freeRun x.1 (g.num (x.2 + 4) 4 + g.num (x.2 + 12) 4) skip).isNone) with
      | some x => .error (0x13, x.2 + 4)
      | none => .ok (on.map (fun x =>
          let pl := g.num (x.2 + 4) 4
          let wl := g.num (x.2 + 12) 4
          { island := x.1, prog := (s.freeRun x.1 (pl + wl) skip).getD 0, progLen := pl, pinLen := wl }))

def Img.segInfo (g : Img) (i : Nat) : SegInfo :=
  let o := g.seg i
  { pages := g.num (o + 0x10) 2, hold := g.num (o + 0x12) 1, entry := g.num (o + 0x14) 4, evec := g.num (o + 0x18) 4 }

/-- What a LOAD comes to: a code with its WHERE, and the graph ID where the header could be read; or the entry. -/
structure LoadFail where
  code : Nat
  whr : Nat
  graph : Option Nat
  length : Nat
  deriving DecidableEq, Repr

/-- Entries in other Pantry windows of the tenant that hold a graph resident for a room. -/
def State.elsewhere (s : State) (w t graph room : Nat) : List (Nat × Nat) :=
  ((s.entriesOf t).filter (fun x => x.1 != w && x.2.2.graph == graph && x.2.2.room == room && x.2.2.live)).map
    (fun x => (x.1, x.2.1))

/-- The checks of Table 15-10 in table order, BUSY and ABORTED apart. -/
def State.loadCheck (s : State) (w room imageOff before total : Nat) : Except LoadFail (Nat × PEntry) :=
  match s.pantryWin w with
  | none => .error { code := 0x17, whr := 0, graph := none, length := 0 }
  | some c =>
    if imageOff % 64 != 0 || decide (imageOff < 0x1000) || decide (c.size < imageOff + 64) then
      .error { code := 0x17, whr := 0, graph := none, length := 0 }
    else
      let base := c.base + imageOff
      let g : Img := fun off len => s.cellarRead (base + off) len
      let id := g.num 8 2
      let len := g.length
      let no (code whr : Nat) : Except LoadFail (Nat × PEntry) :=
        .error { code := code, whr := whr, graph := some id, length := len }
      match s.roomCfg? room with
      | none => no 0x17 0
      | some r =>
        if decide (c.size < imageOff + len) || r.tenant != c.tenant then no 0x17 0
        else match s.cellar.store.poisonIn lineB base (max len 64) with
          | some u => no 0x16 (u - base)
          | none =>
            match g.bad with
            | some o => no 0x10 o
            | none =>
              let span := s.spanRoom room
              match g.badShape r (if span then total else r.isls.length) with
              | some o => no 0x15 o
              | none =>
                match g.badFormat (s.numeric room) with
                | some o => no 0x11 o
                | none =>
                  if r.level != 0 && !nbit (g.num 6 2) 0 then no 0x12 6
                  else match (List.range g.layers).findSome? (fun j => (s.limitCode r g j).map (fun k => (k, j))) with
                    | some (k, j) => no k j
                    | none =>
                      let p := s.pwin w
                      let old := p.findEntry id room
                      let skip := (match old with | some (i, e) => (if e.live then [(w, i)] else []) | none => [])
                        ++ s.elsewhere w c.tenant id room
                      let first := if span then before else 0
                      match s.placeSegs g first skip r.isls with
                      | .error (k, o) => no k o
                      | .ok runs =>
                        match (match old with | some (i, _) => some i | none => p.freeEntry) with
                        | none => no 0x1A 0
                        | some i =>
                          let js := List.range g.layers
                          let eng := fun j => g.num (g.layer j) 1
                          .ok (i, { graph := id, room := room, state := 1, code := 0, imageOff := imageOff, poison := 0,
                                    gd := sha256 (g 0 g.woff), wd := sha256 (g g.woff (len - g.woff)), length := len,
                                    woff := g.woff, inMin := g.num 0x18 4, inMax := g.num 0x1C 4, stateBytes := g.num 0x20 4,
                                    segs := (List.range g.segs).map g.segInfo, first := first, rce := js.any (fun j => eng j == 3),
                                    eles := insAll ((js.filter (fun j => eng j == 2)).map (fun j => g.num (g.layer j + 0x15) 1)) [],
                                    runs := runs, held := false })

/-! ### Requests (R324–R328, R331) -/

/-- A failed LOAD writes a refused entry for its graph and room, unless that pair is resident, through this window or another of
the tenant (R325). -/
def State.refuseLoad (w room imageOff : Nat) (f : LoadFail) (s : State) : State :=
  match f.graph, s.pantryWin w with
  | none, _ | _, none => s
  | some id, some c =>
    let e : PEntry :=
      { graph := id, room := room, state := 3, code := f.code, imageOff := imageOff, poison := 0, gd := zeros 32,
        wd := zeros 32, length := f.length, woff := 0, inMin := 0, inMax := 0, stateBytes := 0, segs := [], first := 0, rce := false,
        eles := [], runs := [], held := false }
    if (s.resident? c.tenant room id).isSome then s
    else match (s.pwin w).findEntry id room with
      | some (i, _) => s.setEntry w i e
      | none => match (s.pwin w).freeEntry with | some i => s.setEntry w i e | none => s

/-- The request of a window ends. -/
def State.reqEnd (w seq result graph whr : Nat) (s : State) : State :=
  (s.modPwin w (fun p => { p with req := none })).postRes w seq result graph whr

/-- Tasks that run a graph for a room from a window. -/
def State.graphRuns (s : State) (w i : Nat) : Bool := s.tasks.live.any (fun t => t.2.window == w && t.2.entry == i)

/-- The REQ line has been written with GO: the device takes the request, or answers BUSY (R324). -/
def State.takeReqLine (w : Nat) (c : WindowCfg) (s : State) : State :=
  let b := s.cellarRead c.base 64
  let op := leAt b 0 1
  let room := leAt b 1 1
  let graph := leAt b 2 2
  let seq := leAt b 4 4
  let s := s.cellarWrite (c.base + 0x3F) [0]
  let p := s.pwin w
  if p.req.isSome || p.queued.isSome then s.postRes w seq 0x18 graph 0
  else if op = 1 || op = 2 then
    (s.modPwin w (fun p => { p with queued := some (op, room, graph, seq, leAt b 8 8) })).cellarWrite (c.base + 0x44) [0xFF]
  else s

/-- The runs of an entry are freed. -/
def State.freeRuns (w i : Nat) (s : State) : State :=
  s.modPwin w (fun p => match NMap.find? p.entries i with
    | some e => { p with entries := NMap.set p.entries i { e with runs := [] } }
    | none => p)

/-- A resident entry that a LOAD replaces: STATE 2, and its runs freed at once where no task runs it (R327). -/
def State.replacing (s : State) (w i : Nat) : State :=
  match NMap.find? (s.pwin w).entries i with
  | some o =>
    if !o.live then s
    else
      let s' := s.setEntry w i { o with state := 2 }
      if s.graphRuns w i then s' else s'.freeRuns w i
  | none => s

/-- Entries elsewhere that the running request of a window replaces. -/
def State.replaced (s : State) (w : Nat) (r : PReq) : List (Nat × Nat) :=
  match s.pantryWin w with
  | some c => if r.load then s.elsewhere w c.tenant r.graph r.room else []
  | none => []

/-- LOAD: the checks, and the reservation of space; a resident graph that it replaces shows STATE 2, and its runs are
freed once no task runs it (R325–R327). -/
def State.loadStart (w before total : Nat) (s : State) : State :=
  match (s.pwin w).queued with
  | some (1, room, _, seq, off) =>
    let s := s.modPwin w (fun p => { p with queued := none })
    match s.loadCheck w room off before total with
    | .error f => (s.refuseLoad w room off f).postRes w seq f.code (f.graph.getD 0) f.whr
    | .ok (i, e) =>
      let old := NMap.find? (s.pwin w).entries i
      let freed := (match old with | some o => o.live | none => false) && !s.graphRuns w i
      let far := match s.pantryWin w with | some c => s.elsewhere w c.tenant e.graph room | none => []
      let s := far.foldl (fun s x => s.replacing x.1 x.2) (s.replacing w i)
      s.modPwin w (fun p =>
        { p with req := some { load := true, room := room, graph := e.graph, seq := seq, imageOff := off, entry := i,
                               freed := freed, newEntry := some e } })
  | _ => s

/-- The graph's program and pinned weights copied into each island (R326, R334). -/
def State.copyRuns (base : Nat) (g : Img) (e : PEntry) (s : State) : State :=
  e.runs.zipIdx.foldl (fun s x =>
    let o := g.seg (e.first + x.2)
    let st := s.cellar.store
    let po := base + g.num o 4
    let wo := base + g.num (o + 8) 4
    s.modShelf x.1.island (fun sh =>
      (sh.land wordB x.1.prog (st.read po x.1.progLen) (st.badIn lineB po x.1.progLen)).land wordB (x.1.prog + x.1.progLen)
        (st.read wo x.1.pinLen) (st.badIn lineB wo x.1.pinLen))) s

/-- The copies finish: once the tasks of a replaced graph have ended, its runs are freed, the new ones are written, the
entry takes STATE 1 and the result is posted. An UNLOAD waits for its tasks in the same way (R326–R328). -/
def State.loadDone (w : Nat) (s : State) : State :=
  match (s.pwin w).req, s.pantryWin w with
  | some r, some c =>
    let far := s.replaced w r
    if s.graphRuns w r.entry || far.any (fun x => s.graphRuns x.1 x.2) then s
    else match r.newEntry with
      | some e =>
        let s := far.foldl (fun s x => s.dropEntry x.1 x.2) s
        let base := c.base + r.imageOff
        let g : Img := fun off len => s.cellarRead (base + off) len
        (((s.copyRuns base g e).modPwin w (fun p => { p with req := none })).setEntry w r.entry e).postRes w r.seq 0 r.graph 0
      | none => (s.dropEntry w r.entry).reqEnd w r.seq 0 r.graph 0
  | _, _ => s

/-- UNLOAD holds starts of the graph; with no task of it running it ends at once (R328). -/
def State.unloadStart (w : Nat) (s : State) : State :=
  match (s.pwin w).queued with
  | some (2, room, graph, seq, _) =>
    let s := s.modPwin w (fun p => { p with queued := none })
    match (s.pwin w).findEntry graph room with
    | some (i, e) =>
      if e.state = 1 then
        (s.modPwin w (fun p =>
          { p with entries := NMap.set p.entries i { e with held := true }
                   req := some { load := false, room := room, graph := graph, seq := seq, imageOff := 0, entry := i,
                                 freed := false, newEntry := none } })).loadDone w
      else s.postRes w seq 0x1B graph 0
    | none => s.postRes w seq 0x1B graph 0
  | _ => s

/-- A LOAD in progress ends with ABORTED (R331); `page` says that its directory page still exists. -/
def State.abortLoad (w : Nat) (s : State) : State :=
  let p := s.pwin w
  match p.req, p.queued with
  | some r, _ =>
    if !r.load then s
    else
      let s := match NMap.find? p.entries r.entry with
        | some e =>
          if e.state = 2 then s.setEntry w r.entry (if r.freed then { e with state := 4, code := 2, runs := [] } else { e with state := 1 })
          else s.refuseLoad w r.room r.imageOff { code := 0x19, whr := 0, graph := some r.graph, length := 0 }
        | none => s.refuseLoad w r.room r.imageOff { code := 0x19, whr := 0, graph := some r.graph, length := 0 }
      let s := (s.replaced w r).foldl (fun s x => match NMap.find? (s.pwin x.1).entries x.2 with
        | some e => if e.state = 2 then s.setEntry x.1 x.2 (if e.runs.isEmpty then { e with state := 4, code := 2 } else { e with state := 1 })
            else s
        | none => s) s
      s.reqEnd w r.seq 0x19 r.graph 0
  | none, some (1, _, _, seq, _) => (s.modPwin w (fun p => { p with queued := none })).postRes w seq 0x19 0 0
  | _, _ => s

/-- Room of the request that a window runs or has taken. -/
def PWin.reqRoom (p : PWin) : Option Nat :=
  match p.req, p.queued with
  | some r, _ => some r.room
  | none, some (_, m, _, _, _) => some m
  | _, _ => none

/-- A resident graph is evicted: its runs are freed and its entry takes STATE 4 (R330). -/
def State.evict (w i code : Nat) (s : State) : State :=
  match NMap.find? (s.pwin w).entries i with
  | some e => if e.live then s.setEntry w i { e with state := 4, code := code, runs := [], held := false } else s
  | none => s

/-! ### BAR4 (R320, R324, R329, R335) -/

/-- A host window of a function that holds a range and allows an access. -/
def State.hostWin (s : State) (fn a len : Nat) (wr : Bool) : Bool :=
  s.living.windows.any (fun e => e.2.kind == 3 && e.2.tenant == fn && decide (e.2.base ≤ a)
    && decide (a + len ≤ e.2.base + e.2.size) && nbit e.2.access (b2n wr))

/-- An access that Table 5-4 refuses. -/
def State.bar4Refused (fn a : Nat) (s : State) : State := if fn = 0 then s else s.addrViol 0xB0 fn a

/-- The extents that R329 protects: images of entries with STATE 1 or 2, and the image a running LOAD reads. -/
def State.guardedExtents (s : State) : List (Nat × Nat) :=
  s.pantry.flatMap (fun w => match s.pantryWin w.1 with
    | none => []
    | some c =>
      (w.2.entries.filterMap (fun e => if e.2.live then some (c.base + e.2.imageOff, e.2.length) else none))
        ++ (match w.2.req with
          | some r => (match r.newEntry with | some e => [(c.base + e.imageOff, e.length)] | none => [])
          | none => []))

def State.scrubbing (s : State) (t : Nat) : Bool := (s.tenant t).st == .scrubbing

/-- The BAR4 size in force covers a range; beyond it an offset is out of reach (R320). -/
def State.inBar4 (s : State) (a len : Nat) : Bool := decide (a + len ≤ 2 ^ fld s.plat.pcieNow 8 6)

def State.bar4Read (fn a len : Nat) (s : State) : State :=
  let answer (b : Bytes) (ep : Bool) (s : State) := s.modOut (fun o => { o with rdBytes := b, rdEp := ep })
  if !s.inBar4 a len then s
  else if s.hostWin fn a len false then
    if s.scrubbing fn then answer (zeros len) false s
    else answer (s.cellarRead a len) (s.cellar.store.poisonIn lineB a len).isSome (s.countLines false a len)
  else answer (zeros len) false (s.bar4Refused fn a)

/-- A host write; one that touches a protected extent is discarded whole. A write that sets byte 0x3F of a REQ line to 1
hands over a request. -/
def State.bar4Write (fn a : Nat) (d : Bytes) (s : State) : State :=
  if !s.inBar4 a d.length then s
  else if !s.hostWin fn a d.length true then s.bar4Refused fn a
  else if s.scrubbing fn then s
  else if s.guardedExtents.any (fun x => decide (a < x.1 + x.2) && decide (x.1 < a + d.length)) then s.addrViol 0xB0 fn a
  else
    let s := s.cellarWrite a d
    (s.living.windows.filter (fun e => e.2.kind == 1)).foldl (fun s e =>
      let go := e.2.base + 0x3F
      if decide (a ≤ go) && decide (go < a + d.length) && d[go - a]? == some 1 then s.takeReqLine e.1 e.2 else s) s

/-! ### Scrubbing (R337) -/

/-- The tenant whose private or Pantry window holds an address. -/
def State.addrTenant (s : State) (a : Nat) : Nat :=
  match s.living.windows.find? (fun e => decide (e.2.kind ≤ 1) && decide (e.2.base ≤ a) && decide (a < e.2.base + e.2.size)) with
  | some e => e.2.tenant
  | none => noTenant

/-- Directory entries whose image holds a line count its poison. -/
def State.notePoison (a : Nat) (s : State) : State :=
  s.pantry.foldl (fun s w => match s.pantryWin w.1 with
    | none => s
    | some c => w.2.entries.foldl (fun s e =>
        if decide (c.base + e.2.imageOff ≤ a) && decide (a < c.base + e.2.imageOff + e.2.length) then s.writeEntry w.1 e.1 else s) s) s

/-- Lines of the Cellar: 48 GiB of 64 bytes. -/
def cellarLines : Nat := 48 * 2 ^ 30 / 64

/-- The Cellar scrubber reads a line of a controller. -/
def State.scrubLine (ctl line : Nat) (e : EccResult) (s : State) : State :=
  if line / 4 % 4 != ctl || decide (cellarLines ≤ line) then s
  else
    let a := line * 64
    let s := s.modCellar (fun c =>
      if c.scrubbed + 1 = cellarLines then { c with scrubbed := 0, passes := wrap1 32 c.passes }
      else { c with scrubbed := c.scrubbed + 1 })
    match e with
    | .clean => s
    | .corrected => s.modCctl ctl (fun c => { c with corrected := sat1 32 c.corrected })
    | .uncorrectable =>
      let s := s.modCctl ctl (fun c => { c with uncorr := sat1 16 c.uncorr, lastErr := line })
      ((s.modStore (fun st => st.mark [a])).emit (0x80 + ctl) 4 3 (s.addrTenant a) 3 [a]).notePoison a

/-- A Shelf scrubber reads a word. -/
def State.scrubWord (n word : Nat) (e : EccResult) (s : State) : State :=
  if decide (2 ^ 18 ≤ word) then s
  else match e with
    | .clean => s
    | .corrected => s.modIsl n (fun i => { i with shCorr := sat1 32 i.shCorr })
    | .uncorrectable =>
      let ten := match s.roomOf n with | some m => s.roomTenant m | none => noTenant
      ((s.modIsl n (fun i => { i with shUncorr := sat1 16 i.shUncorr })).modShelf n (fun st => st.mark [word * 8])).emit
        (0x10 + n) 4 1 ten 3 [word * 8]

/-! ### Registers (Table 15-12) -/

def State.readCellar (s : State) (off : Nat) : Word :=
  if off = 0 then packW [(0, 1, s.rasChip.refresh), (8, 8, s.scrubHours)]
  else if off = 8 then packW [(0, 32, s.cellar.passes), (32, 10, s.cellar.scrubbed * 1000 / cellarLines)]
  else if 0x1000 ≤ off ∧ off < 0x1400 then
    let c := s.cctl ((off - 0x1000) / 0x100)
    let o := off % 0x100
    if o = 0 then packW [(0, 1, b2n c.trained), (1, 1, b2n c.rate2x), (8, 8, c.tempC)]
    else if o = 8 then packW [(0, 32, c.rdLines), (32, 32, c.wrLines)]
    else if o = 0x10 then packW [(0, 32, c.collisions), (32, 16, c.maxWait)]
    else if o = 0x18 then packW [(0, 32, c.corrected), (32, 16, c.uncorr), (48, 16, c.poisonIn)]
    else if o = 0x20 then packW [(0, 36, c.lastErr)]
    else 0
  else 0

def State.readShelf (s : State) (n off : Nat) : Word :=
  let i := s.island n
  if off = 0x500 then packW [(0, 32, i.shCorr), (32, 16, i.shUncorr), (48, 16, i.shConsumed)]
  else if off = 0x508 then
    packW [(0, 12, cdiv ((s.runsOn n []).map (·.2)).sum 1024), (16, 9, if (s.roomOf n).isSome && !s.clearsPages n then (s.freePages n).length else 0)]
  else 0

/-! ### Commands -/

def execLoad (win : Win) (before total : Nat) (s : State) : Answer := .next (s.loadStart win before total)
def execUnload (win : Win) (s : State) : Answer := .next (s.unloadStart win)
def execGraphLoadDone (win : Win) (s : State) : Answer := .next (s.loadDone win)
def execBar4Read (fn : Fn) (off len : Nat) (s : State) : Answer := .next (s.bar4Read fn off len)
def execBar4Write (fn : Fn) (off : Nat) (data : Bytes) (s : State) : Answer := .next (s.bar4Write fn off data)
def execCellarScrub (ctl : Fin 4) (line : Nat) (e : EccResult) (s : State) : Answer := .next (s.scrubLine ctl line e)
def execShelfScrub (isl : IslN) (word : Nat) (e : EccResult) (s : State) : Answer := .next (s.scrubWord isl word e)

end Sys2Proof.Machine
end

