-- ==== Sys2Proof/Machine/Repro.lean ====
section
/-! DEFINITION. Reproducibility and twins (R289, R303–R311): the parity word, pairing, start and comparison messages,
the fall to solo, the fetch that completes a digest, and the REPRO registers. -/

namespace Sys2Proof.Machine

open Sys2Proof

/-! ### The parity word (Table 14-2) -/

/-- Parity word of a level and a numeric configuration. -/
def parityWord (level : Nat) (c : NumericCfg) : Word :=
  packW [(0, 4, 0xA), (4, 4, 1), (8, 2, if level = 0 then 0 else 1), (10, 1, if c.mode = 2 then 1 else 0), (11, 2, c.mode),
    (13, 1, c.sfu), (14, 2, c.ftab), (16, 2, c.outconv), (18, 1, c.padc), (24, 8, c.rcv)]

/-- Parity word of a room of a configuration set; 0 for a room that is absent. -/
def ConfigSet.parity (c : ConfigSet) (m : Nat) : Word :=
  match NMap.find? c.rooms m with
  | some r => parityWord r.level (NMap.getD c.numerics r.numericKey .default)
  | none => 0

/-! ### Pairing (R304, R305, Table 14-7) -/

/-- The port with LINKPOL MODE 3. -/
def State.twinPort (s : State) : Option Nat := (List.range 8).find? (fun p => (s.linkPol p).mode == 3)

def State.twinRooms (s : State) : Word := s.rwt offTwinCfg

/-- What this device presents. -/
def State.ownCheck (s : State) (p : Nat) : TwinCheck :=
  { chip := s.cell.chip, peer := (s.linkPol p).peer, rooms := s.twinRooms
    words := (bitsOf 64 s.twinRooms).map (fun m =>
      (m, (match s.roomCfg? m with | some r => r.level | none => 0), s.living.parity m)) }

/-- PAIR_RESULT of the checks: 1 paired. -/
def State.pairJudge (s : State) (p : Nat) (x : TwinCheck) : Nat :=
  let own := s.ownCheck p
  if x.chip != own.peer || x.peer != own.chip then 3
  else if x.rooms != own.rooms || (own.words ++ x.words).any (fun w => w.2.1 == 0) || own.words.map (·.1) != x.words.map (·.1) then 4
  else if own.words.map (·.2.2) != x.words.map (·.2.2) then 5
  else 1

/-- Numbers and messages of an earlier pairing are dropped; numbering starts at 0. -/
def State.renumber (s : State) : State :=
  let clear := fun (e : QEntry) => { e with twin := none }
  ((s.modQm (fun m => { m with queues := NMap.mapV m.queues (fun _ q =>
      { q with waiting := q.waiting.map clear, twinNo := 0 }) })).modTasks (fun u =>
      { u with live := NMap.mapV u.live (fun _ t => { t with ent := clear t.ent }) })).modRepro
    (fun r => { r with starts := [], early := [] })

/-- The checks end. -/
def State.pairEnd (p : Nat) (x : TwinCheck) (s : State) : State :=
  let r := s.pairJudge p x
  if r = 1 then
    s.renumber.modRepro (fun k => { k with st := .paired, pairResult := 1, peer := x.chip, primary := decide (s.cell.chip < x.chip) })
  else s.modRepro (fun k => { k with st := .off, pairResult := r })

def State.pair (peer : Option TwinCheck) (s : State) : State :=
  if s.repro.st == .pairing || s.repro.st == .paired then s
  else match s.twinPort with
    | none => s.modRepro (fun k => { k with st := .off, pairResult := 2 })
    | some p =>
      let s := (s.modRepro (fun k => { k with st := .pairing, pairResult := 0, pairAt := s.view 0x90 })).send (.twinPair (s.ownCheck p))
      match peer with
      | some x => s.pairEnd p x
      | none => s

/-- The partner's checks reach a device that is PAIRING. -/
def State.pairMsg (x : TwinCheck) (s : State) : State :=
  match s.twinPort with
  | some p => if s.repro.st == .pairing then s.pairEnd p x else s
  | none => s

def State.pairTimeout (s : State) : State :=
  if s.repro.st == .pairing then
    (s.reach (s.repro.pairAt + 10000000)).modRepro (fun k => { k with st := .off, pairResult := 6 })
  else s

/-! ### Messages (R306, R308, R309) -/

/-- A start message of the primary. -/
def State.twinStart (q no outcome : Nat) (s : State) : State :=
  if s.repro.st == .paired && !s.repro.primary then s.modRepro (fun r => { r with starts := r.starts ++ [(q, no, outcome)] })
  else s

/-- The task of a queue that bears a twin number. -/
def State.twinTask (s : State) (q no : Nat) : Option (Nat × Task) :=
  s.tasks.live.find? (fun t => t.2.queue == q && t.2.ent.twin == some no)

/-- A comparison message: for a task that waits for it, one that still runs, or one yet to come; a message for a number that has
ended here is dropped. -/
def State.twinCompare (q no : Nat) (m : TwinMsg) (s : State) : State :=
  if s.repro.st != .paired then s
  else match s.twinTask q no with
    | some (tid, t) => if t.comparing then ((s.judgeTwin tid t m).settleTimed t.room).syncCeil else s.modTask tid (fun t => { t with peerMsg := some m })
    | none =>
      if decide (no < (s.queue q).twinNo) && (s.queue q).waiting.all (fun e => e.twin != some no) then s
      else s.modRepro (fun r => { r with early := r.early ++ [(q, no, m)] })

/-- Tasks of the pairing that ends complete with their own status: those that wait at once, the others at their end. -/
def State.unpairTasks (solo : Bool) (s : State) : State :=
  (s.tasks.live.filter (fun t => t.2.ent.twin.isSome)).foldl (fun s x =>
    let s := s.modTask x.1 (fun t => { t with solo := t.solo || solo })
    if x.2.comparing then
      let t := { x.2 with solo := x.2.solo || solo }
      let (st, detail) := t.final
      (((if st == 0 || st == 1 then s.writeBack t else s).complete x.1 t st detail).settleTimed t.room).syncCeil
    else s) s

/-- A message is overdue, or the twin port has left UP (R309). The event's source and its word are the model's choice (log entry
57). -/
def State.enterSolo (s : State) : State :=
  if s.repro.st == .paired then
    let s := s.modRepro (fun r => { r with st := .solo, soloEvents := sat1 16 r.soloEvents, starts := [], early := [] })
    (s.emit 0x90 9 3 noTenant 2 [s.twinPort.getD 0]).unpairTasks true
  else s

/-- UNPAIR, or a Hatch under R310. -/
def State.unpair (s : State) : State :=
  let was := s.repro.st
  let s := s.modRepro (fun r => { r with st := .off, starts := [], early := [] })
  if was == .paired then s.unpairTasks false else s

/-! ### The fetch that completes a digest (R303) -/

/-- The bytes not hashed inline arrive; at Level T no earlier than the release of a host read, and breaking the room's
timing where they come later (R295, R297). A read that fails is issued again. -/
def State.refetched (n k : Nat) (d : Bytes) (err : Bool) (s : State) : State :=
  let tid := (s.slot n k).task
  match s.task? tid with
  | none => s
  | some t =>
    match t.refetchAt with
    | none => s
    | some g =>
      let want := dInLen t.ent.raw - t.hashed.length
      if err then (s.modTask tid (fun t => { t with refetchAt := none })).askRefetch tid { t with refetchAt := none }
      else if want = 0 then s
      else
        let rel := g + fld (s.rwt offReproCfg) 0 20 + 8 * cdiv want 512
        let s := if s.levelT t.room then (if rel < s.view 0x90 then s.timingBreak t.room 3 else s.reach rel) else s
        (s.modTask tid (fun t => { t with hashed := t.hashed ++ fit want d })).modRepro
          (fun r => { r with refetchBytes := r.refetchBytes + want })

/-! ### Registers (Table 14-8) -/

def TwinSt.num : TwinSt → Nat
  | .off => 0 | .pairing => 1 | .paired => 2 | .solo => 3

def State.readRepro (s : State) (off : Nat) : Word :=
  let r := s.repro
  if off = 0 then s.rwt offReproCfg
  else if off = 0x100 then s.rwt offTwinCfg
  else if off = 0x110 then
    packW [(0, 3, r.st.num), (4, 4, r.pairResult), (16, 15, r.peer), (31, 1, b2n r.primary), (32, 16, r.diverged),
      (48, 16, r.soloEvents)]
  else if off = 0x118 then packW [(0, 4, r.firstKind), (4, 6, r.firstRoom), (32, 32, r.firstOff)]
  else if off = 0x120 then BitVec.ofNat 64 r.gtcLocal
  else if off = 0x128 then BitVec.ofNat 64 r.gtcPeer
  else if off = 0x130 then packW [(0, 32, r.compared), (32, 32, r.unpaired)]
  else if off = 0x140 then packW [(0, 32, r.digests), (32, 32, r.refetchBytes / 1024)]
  else if 0x1000 ≤ off ∧ off < 0x1800 then
    let m := (off - 0x1000) / 0x20
    let x := s.room m
    match off % 0x20 with
    | 0 => if x.st == .absent then 0 else s.living.parity m
    | 8 => packW [(0, 1, b2n (x.timed == 1)), (1, 1, b2n (x.timed == 2)), (2, 3, x.breakCause), (16, 16, x.tepoch), (32, 16, x.breaks)]
    | 0x18 => packW [(0, 32, x.refreshNs), (32, 32, x.retries)]
    | _ => 0
  else 0

/-! ### Commands -/

def execPair (peer : Option TwinCheck) (s : State) : Answer := .next (s.pair peer)
def execUnpair (s : State) : Answer := .next s.unpair
def execPairingTimeout (s : State) : Answer := .next s.pairTimeout
def execTwinStartMsg (queue no outcome : Nat) (s : State) : Answer := .next (s.twinStart queue no outcome)
def execTwinCompare (queue no : Nat) (m : TwinMsg) (s : State) : Answer := .next (s.twinCompare queue no m)
def execTwinSoloTimeout (s : State) : Answer := .next s.enterSolo
def execDigestRefetch (isl : IslN) (slot : SlotN) (data : Bytes) (err : Bool) (s : State) : Answer :=
  .next (s.refetched isl slot data err)

end Sys2Proof.Machine
end

