-- ==== Sys2Proof/Machine/Mesh.lean ====
section
/-! DEFINITION. The mesh (R26–R28, R32): where islands attach, the way of a packet, lane parity, the order of packets,
and what the errors found on the way do. -/

namespace Sys2Proof.Machine

open Sys2Proof

/-- A router by row and column, with a port: 0 local, 1 for a, 2 for b. -/
structure Attach where
  row : Nat
  col : Nat
  port : Nat
  deriving DecidableEq, Repr

/-- Routers of the Cellar controllers, in the order of Table 2-2. -/
def cellarRouter (q i : Nat) : Nat × Nat := (if q < 2 then 0 else 7, 4 * (q % 2) + i)

/-- Where an island attaches to the mesh, by source number: T-islands at their own routers (R13), the others as Table 2-2
gives. The Housekeeper island has two source numbers, and so has the PCIe and queue manager island (Table 1-1). -/
def attachments (src : Nat) : List Attach :=
  if 0x10 ≤ src ∧ src < 0x50 then [{ row := (src - 0x10) / 8, col := (src - 0x10) % 8, port := 0 }]
  else if 0x50 ≤ src ∧ src < 0x60 then
    let (r, c) := cellarRouter ((src - 0x50) / 4) ((src - 0x50) % 4)
    [{ row := r, col := c, port := 2 }]
  else if 0x60 ≤ src ∧ src < 0x64 then
    [{ row := 3 + (src - 0x60) / 2, col := 7 * ((src - 0x60) % 2), port := 1 }]
  else if 0x70 ≤ src ∧ src < 0x78 then
    let n := src - 0x70
    let top := 1 + 4 * (n % 4 / 2)
    let c := 7 * (n % 2)
    let p := 1 + n / 4
    [{ row := top, col := c, port := p }, { row := top + 1, col := c, port := p }]
  else if 0x80 ≤ src ∧ src < 0x84 then
    (List.range 4).map (fun i => let (r, c) := cellarRouter (src - 0x80) i; { row := r, col := c, port := 1 })
  else if src = 0x90 ∨ src = 0xB0 then [{ row := 3, col := 7, port := 2 }, { row := 4, col := 7, port := 2 }]
  else if src = 0 ∨ src = 0xA0 then [{ row := 3, col := 0, port := 2 }]
  else []

/-- The coordinates from one to another, both ends included, one step at a time. -/
def meshWalk (a b : Nat) : List Nat :=
  if a ≤ b then (List.range (b - a + 1)).map (a + ·) else (List.range (a - b + 1)).map (a - ·)

/-- The routers a packet passes: along its row to the destination column, then along that column (R28). -/
def meshRoute (a b : Attach) : List (Nat × Nat) :=
  (meshWalk a.col b.col).map (fun c => (a.row, c)) ++ ((meshWalk a.row b.row).drop 1).map (fun r => (r, b.col))

/-- Router-to-router hops, |Δrow| + |Δcolumn| (R29). -/
def meshHops (a b : Attach) : Nat := (meshRoute a b).length - 1

/-- The way of a packet, or none where its header names a port that its receiver does not have (R27). -/
def packetRoute (p : MeshPacket) : Option (List (Nat × Nat)) :=
  match (attachments p.src)[p.entry]?, (attachments p.dst)[p.port]? with
  | some a, some b => some (meshRoute a b)
  | _, _ => none

/-- The even-parity bit of one 32-bit lane (R26). -/
def laneParity (lane : Bytes) : Bool := (bitsOf 32 (BitVec.ofNat 64 (unle lane))).length % 2 == 1

/-- Every lane of a flit arrived with its parity bit. -/
def flitOk (f : MeshFlit) : Bool :=
  (List.range 8).all (fun i => f.parity.getLsbD i == laneParity (slice f.data (4 * i) 4))

/-- Parts of a request's data that a packet delivers with their poison marker set, as offset and length (R32). -/
def packetBad (p : MeshPacket) (off : Nat) : List (Nat × Nat) :=
  (p.flits.zipIdx.filter (fun x => !flitOk x.1)).map (fun x => (off + 32 * x.2, 32))

def meshClassNum : MeshClass → Nat
  | .request => 0 | .response => 1 | .message => 2

/-- Sender, receiver and class of a packet, as one number. -/
def packetFlow (p : MeshPacket) : Nat := (p.src * 4096 + p.dst) * 4 + meshClassNum p.cls

/-- Packets of a flow that have come to the end of their way. -/
def State.meshSeen (s : State) (p : MeshPacket) : Nat := NMap.getD s.mesh.flows (packetFlow p) 0

/-- The request that a packet serves, while it is outstanding. -/
def State.meshTag (s : State) (r : MeshReq) : Bool :=
  match s.tag? r.isl r.slot r.tag with
  | some d => !d.done && d.held.isNone
  | none => false

/-- A change to the outstanding request that a packet serves. -/
def State.meshServe (p : MeshPacket) (f : MeshReq → Dma → Dma) (s : State) : State :=
  match p.req with
  | some r => if s.meshTag r then s.modTag r.isl r.slot r.tag (f r) else s
  | none => s

/-- A packet at the end of its way (R28, R32): packets of one class between one pair arrive in the order sent. A header
that cannot be corrected discards the packet, and the request it served waits for its timer. A flit with a wrong lane
parity is delivered with its poison marker set. Each raises an event that names the sender; a router has no source number,
so its event comes from the Housekeeper (DEDUCED, log entry 25). -/
def State.meshArrive (p : MeshPacket) (s : State) : State :=
  if (packetRoute p).isNone || p.seq != s.meshSeen p then s
  else
    let s := s.modMesh (fun m => { m with flows := NMap.set m.flows (packetFlow p) (p.seq + 1) })
    if p.header == .uncorrectable then
      (s.meshServe p (fun _ d => { d with lost := true })).emit 0 5 2 noTenant 3 [p.src]
    else if p.flits.all flitOk then s
    else (s.meshServe p (fun r d => { d with meshBad := d.meshBad ++ packetBad p r.off })).emit p.dst 5 1 noTenant 3 [p.src]

def execMeshPacketArrive (p : MeshPacket) (s : State) : Answer := .next (s.meshArrive p)

end Sys2Proof.Machine
end

