-- ==== Sys2Proof/Machine/Time.lean ====
section
/-! DEFINITION. Time, the mesh and the clocks: the tick of the GTC, island views and their repair (R33–R39), loss of
the reference (R40), forward steps (R375), the thermal factor (R447), lost requests (R32), stalled Stream Passages (R41),
and the clock registers (Tables 2-4 to 2-7). -/

namespace Sys2Proof.Machine

open Sys2Proof

/-- The main domain is powered. -/
def State.mainOn (s : State) : Bool := s.plat.power == .d0 || s.plat.power == .d3hot

/-- One count of the GTC: what a step does when no command waits (R34; log entry 3). -/
def tick (s : State) : State :=
  if s.clk.valid && s.mainOn then s.modClk (fun c => { c with gtc := (c.gtc + 1) % 2 ^ 64 }) else s

/-! ### Steps of the GTC (R375) -/

def State.forwardStep (d : Nat) (s : State) : State :=
  ((s.modClk (fun c => { c with gtc := (c.gtc + d) % 2 ^ 64, steps := wrap1 16 c.steps, stepDue := none })).modLink
    (fun l => { l with stepped := l.stepped + d })).emit 0 7 5 noTenant 1 [0]

/-- A task of a Level T room is running. -/
def State.levelTRuns (s : State) : Bool := s.tasks.live.any (fun t => s.levelT t.2.room)

/-- A due step: at once, or deferred while a Level T task runs. -/
def State.stepDue (d : Nat) (s : State) : State :=
  if d = 0 then s
  else if s.levelTRuns then s.modClk (fun c => { c with stepDue := some d })
  else s.forwardStep d

def State.stepApply (s : State) : State :=
  match s.clk.stepDue with
  | some d => if s.levelTRuns then s else s.forwardStep d
  | none => s

/-! ### Island views (R33, R39) -/

/-- Islands with a time cell of their own that follow the master. -/
def hasCell (src : Nat) : Bool := isDco src || src == 0x90

/-- A count within ±4 ns of the master (R35), as 64-bit counts. -/
def State.nearMaster (s : State) (x : Nat) : Bool :=
  decide ((signed 64 (x + 2 ^ 64 - s.clk.gtc % 2 ^ 64)).natAbs ≤ 4)

/-- A full value that disagrees with the view replaces the time cell's count, and the view is that count plus GTC_OFFS
(R33). The tree carries the master's own count, so the view it gives is within ±4 ns of the master (R35). -/
def State.fullValue (src value : Nat) (s : State) : State :=
  let new := (value + (s.clkIsl src).offs) % 2 ^ 64
  if !s.clk.valid || !hasCell src || !s.nearMaster new then s
  else
    if new = s.view src then s
    else
      let s := s.modClkIsl src (fun c => { c with lag := (value : Int) - s.clk.gtc })
      (s.modClk (fun c => { c with resyncs := sat1 16 c.resyncs })).emit src 7 1 noTenant 1 [src]

/-- The Housekeeper measures an island's error, recalibrates GTC_OFFS beyond 4 ns, and reports the island to RAS beyond
16 ns or where the recalibration leaves it above 4 ns (R39). The error measured is where the view stands against the
master. A GTC_OFFS that would leave 0–255 keeps its low 8 bits, and GTC_ERR reads the low 8 bits of the error (DESIGN
CHOICE, log entry 24). -/
def State.measure (src : Nat) (err after : Int) (s : State) : State :=
  if !s.clk.valid || !hasCell src then s
  else if err.natAbs ≤ 4 then s.modClkIsl src (fun c => { c with err := err, lag := err - c.offs })
  else
    let s := s.modClkIsl src (fun c =>
      let offs := wrapN 8 ((c.offs : Int) - (err - after))
      { c with err := after, offs := offs, lag := after - offs })
    let s := s.emit 0 7 2 noTenant 1 [src]
    if 16 < err.natAbs || 4 < after.natAbs then s.suspect src 4 else s

/-! ### The board reference (R40, R376) -/

def State.refLoss (s : State) : State :=
  if s.clk.refLost then s
  else (s.modClk (fun c => { c with refLost := true, align := if c.align = 0 then 0 else 3 })).emit 0 7 3 noTenant 3 [0]

def State.refBack (s : State) : State :=
  if s.clk.refLost then (s.modClk (fun c => { c with refLost := false })).emit 0 7 4 noTenant 1 [0] else s

/-! ### The thermal factor (R298, R447–R450) -/

/-- Sustained board power (Tables 20-8 and 20-9). -/
def State.ratingW (s : State) : Nat := if s.ident.board = 2 then 350 else 500
def offPwr : Nat := 0x20
/-- LIMIT_W in force. -/
def State.limitW (s : State) : Nat :=
  let v := fld (s.reg offPwr (packW [(32, 12, s.ratingW)])) 32 12
  if 150 ≤ v ∧ v ≤ s.ratingW then v else s.ratingW

/-- The junction reaches THARD_C while tasks of TIMED rooms run: their timing breaks (R298). -/
def State.hardLimit (s : State) : State :=
  if fld (s.rwt offReproCfg) 48 8 ≤ s.plat.sensors.tjC then
    (s.living.rooms.map (·.1)).foldl (fun s m =>
      if (s.room m).timed == 1 && s.roomRunning m != 0 then s.timingBreak m 2 else s) s
  else s

/-- The sensors read: the thermal ceiling and the hard limits act on them, and each Cellar controller shows its own stack,
HBM stack 0 for controllers 0 and 1 and stack 1 for 2 and 3 (R13, R316). -/
def State.thermal (r : Sensors) (s : State) : State :=
  if !s.mainOn then s
  else
    let hot := decide (95 ≤ r.tjC) || decide (95 ≤ r.hbm0C) || decide (95 ≤ r.hbm1C) || decide (s.limitW < r.powerW)
    let k := s.plat.k
    let k' := if hot then max (k - 1) 8 else if r.cool then min (k + 1) 32 else k
    let s := s.modPlat (fun p =>
      { p with sensors := r, peakW := max p.peakW r.powerW, k := k'
               throttles := if k == 32 && k' == 31 then sat1 16 p.throttles else p.throttles })
    let s := (List.range 4).foldl (fun s c => s.modCctl c (fun x =>
      let t := if c < 2 then r.hbm0C else r.hbm1C
      { x with tempC := t, rate2x := decide (85 < t) })) s
    (s.hardLimit.syncCeil).checkBound

/-! ### Lost requests and Stream Passages (R32, R41) -/

/-- Engines that serve a task. -/
def State.servesTask (s : State) (u tid : Nat) : Bool := (isRce u || isEle u) && (s.tasksOn u).contains tid

/-- The job that an RCE works for. -/
def State.runsJob (s : State) (u : Nat) (x : Submit) : Bool :=
  match (s.rceRt (u - 0x50)).run with | some r => r.job == x.ord | none => false

/-- A lost request of a task has been outstanding for 10 µs (R32). -/
def State.reqTimeout (n k unit tag : Nat) (s : State) : State :=
  let tid := (s.slot n k).task
  if (s.task? tid).isNone then s
  else if unit = 0x10 + n then
    match s.tag? n k tag with
    | some d => if d.done || d.held.isSome then s
      else ((s.finishTag n k tag false).endJobs (fun x => x.isl == n && x.slot == k && x.tag == tag && d.cls == 1)).slotFault n k 0x7F 0
    | none => s
  else if s.servesTask unit tid then (if isRce unit then s.endJobs (s.runsJob unit) else s).slotFault n k 0x7F 0
  else s

/-- A room fault of R98. -/
def State.roomFault (m cause : Nat) (s : State) : State :=
  let t := s.roomTenant m
  ((s.modRoom m (fun r => { r with st := .faulted, cause := cause })).setFault t 1).emit 0 2 4 t 3 [m, cause]

/-- Endpoints of Stream Passages: 4 × island + index, then from 256 on 2 × ELE + index. -/
def epEle (j e : Nat) : Nat := 256 + 2 * j + e
def epSource (e : Nat) : Nat := if e < 256 then 0x10 + e / 4 else 0x60 + (e - 256) / 2

/-- Room of a passage. -/
def State.passageRoom (s : State) (p : PassageCfg) : Option Nat :=
  if p.src < 256 then s.roomOf (p.src / 4)
  else if p.sink < 256 then s.roomOf (p.sink / 4)
  else (s.roomsOn (epSource p.src)).head?

/-- A task's transfer over a passage is outstanding, or waits to be sent: a request at its source, or the ELE there. -/
def State.sendsOn (s : State) (p : PassageCfg) (tid : Nat) (t : Task) : Bool :=
  t.slots.any (fun (n, k) => (s.slot n k).tags.any (fun e =>
      e.2.cls == 3 && e.2.write && !e.2.done && (4 * n + e.2.far % 4) == p.src))
    || (decide (256 ≤ p.src) && (s.tasksOn (epSource p.src)).contains tid)

/-- A task waits for an RCE or an ELE: a job block or a request of a job, or a layer. -/
def State.wants (s : State) (u tid : Nat) : Bool :=
  if isRce u then
    s.eng.rceIn.any (fun x => x.eng == u - 0x50 && x.task == tid)
      || s.eng.reqs.any (fun q => q.rce == u - 0x50 && s.eng.jobs.any (fun j => j.from_.ord == q.job && j.from_.task == tid))
  else isEle u && s.eng.eleIn.any (fun x => x.eng == u - 0x60 && x.task == tid)

/-- Whose tasks a stalled passage ends (R41): those that send over it or wait to, and those that wait for an engine that such a
task holds. -/
def State.waitsOn (s : State) (p : PassageCfg) (tid : Nat) (t : Task) : Bool :=
  s.sendsOn p tid t
    || ((List.range 16).map (· + 0x50) ++ (List.range 4).map (· + 0x60)).any (fun u => s.wants u tid
        && (s.tasksOn u).any (fun h => match s.task? h with | some x => s.sendsOn p h x | none => false))

/-- A handshake of a passage has been outstanding for 1 ms (R41). The tasks that end leave their handshakes on the lanes, and wait
for them no longer. -/
def State.passageStall (key : Nat) (s : State) : State :=
  match NMap.find? s.living.passages key with
  | none => s
  | some p =>
    match s.passageRoom p with
    | none => s
    | some m =>
      let ts := s.tasks.live.filter (fun e => e.2.room == m && s.waitsOn p e.1 e.2)
      if (s.room m).stalled.contains key || (NMap.getD s.streams key []).isEmpty then s
      else
        let s := (s.modRoom m (fun r => { r with stalled := insN key r.stalled })).emit (epSource p.src) 5 3
          (s.roomTenant m) 3 [epSource p.src]
        let s := (ts.foldl (fun s e => s.stopTask e.1 0x7F 0) s).endReqs p.src true (fun tid => ts.all (fun e => e.1 != tid))
        if (s.room m).st == .serving then s.roomFault m 1 else s

/-! ### Registers (Tables 2-4 to 2-7) -/

/-- Fixed frequency of the PCIe and queue manager island, by link rate (Table 2-1). -/
def State.pcieMhz (s : State) : Nat := if s.plat.speed = 6 then 1000 else if s.plat.speed = 5 then 500 else 250

/-- TOP_CLK_STAT of a DCO or fixed island (Table 2-7). LOCK of a DCO island is 0 until the GTC is VALID (DESIGN CHOICE, log entry
79). -/
def State.readClkStat (s : State) (src : Nat) : Word :=
  let c := s.clkIsl src
  let offs := (32, 8, c.offs)
  if src = 0 ∨ src = 0x90 then
    let f := if src = 0 then 500 else s.pcieMhz
    packW [(0, 12, f), (12, 1, b2n !s.clk.refLost), (16, 12, f), if src = 0 then (32, 8, 0) else offs]
  else
    packW [(0, 12, s.freqMhz src), (12, 1, b2n (s.clk.valid && !s.clk.refLost)), (13, 3, (s.unit src).cstep),
           (16, 12, s.ceilEff src), offs, (40, 8, wrapN 8 c.err), (48, 1, b2n (s.pacedOn src))]

/-- A clock or time register, by BAR0 offset. -/
def State.readClk (s : State) (off : Nat) : Word :=
  if off = 0x100 then BitVec.ofNat 64 (s.view 0x90)
  else if off = 0x108 then
    packW [(0, 1, b2n s.clk.valid), (1, 1, b2n s.clk.refLost), (2, 3, s.clk.align), (8, 24, wrapN 24 s.clk.slewPpb),
           (32, 16, s.clk.steps), (48, 16, s.clk.resyncs)]
  else
    let src := (off - 0x1000) / 16
    if off % 16 = 8 then (if isDco src || src == 0 || src == 0x90 then s.readClkStat src else 0)
    else if isDco src then s.rwt off
    else 0

/-! ### Commands -/

def execRequestTimeout (isl : IslN) (slot : SlotN) (unit tag : Nat) (s : State) : Answer :=
  .next (s.reqTimeout isl slot unit tag)
def execPassageStall (passage : Nat) (s : State) : Answer := .next (s.passageStall passage)
def execGtcFullValue (src value : Nat) (s : State) : Answer := .next (s.fullValue src value)
def execGtcErrMeasure (src : Nat) (err after : Int) (s : State) : Answer := .next (s.measure src err after)
def execRefLost (s : State) : Answer := .next s.refLoss
def execRefRestored (s : State) : Answer := .next s.refBack
def execThermalStep (r : Sensors) (s : State) : Answer := .next (s.thermal r)
def execGtcStepApply (s : State) : Answer := .next s.stepApply

end Sys2Proof.Machine
end

