-- ==== Sys2Proof/Machine/Cells.lean ====
section
/-! DEFINITION. Cells, yards and spans (R347, R365–R384): heartbeats and the discipline of the GTC, port maps, PTP, the
chip ID, spans, and the start and end of tasks with what they mean for clocks, Level T rooms and spans. -/

namespace Sys2Proof.Machine

open Sys2Proof

/-! ### Heartbeats (R347, R373) -/

/-- A port in PROBATION or UP sends a heartbeat 10 µs after the one before. -/
def State.heartbeatSend (p : Nat) (s : State) : State :=
  if !(s.port p).live then s
  else
    let s := if (s.port p).hbSent = 0 then s else s.reach ((s.port p).hbSent + 10000)
    let l := s.port p
    let now := s.view (0x70 + p)
    (s.modPort p (fun l => { l with hbSent := now })).send (.heartbeat p l.epoch s.cell.chip now l.hbSeen)

/-- The three cases of R373 for an offset of the target from this device's GTC. -/
def State.discipline (th : Int) (s : State) : State :=
  if 1000 < th then ((s.modCell (fun c => { c with thetas := [] })).modClk (fun c => { c with slewPpb := 0 })).stepDue th.toNat
  else if th < -1000 then s.modClk (fun c => { c with slewPpb := -100000 })
  else s.modClk (fun c => { c with slewPpb := max (-100000) (min 100000 (th * 1000)) })

/-- A heartbeat of the parent: θ and the path delay from the four GTC values. -/
def State.parentBeat (t1 t2 t3 t4 : Nat) (s : State) : State :=
  let th : Int := (((t2 : Int) - t1) + ((t3 : Int) - t4)) / 2
  let d : Int := (((t4 : Int) - t1) - ((t3 : Int) - t2)) / 2
  let s := s.modCell (fun c => { c with thetas := (th :: c.thetas).take 8, delay := d.toNat })
  let now := s.thetaHat
  (s.discipline now).alignEval

/-- A heartbeat frame arrives. -/
def State.heartbeatIn (p : Nat) (h : LHdr) (epoch chip gtc echo : Nat) (s : State) : State :=
  let l := s.port p
  if !l.live then s
  else if h.epoch != l.epoch % 256 || epoch != l.epoch then s.staleFrame p
  else if chip != l.peer then s
  else
    let s := s.takeHdr p h
    let now := s.view (0x70 + p)
    let t1 := (s.port p).hbSent
    let ok := echo != 0 && t1 != 0
    let s := s.modPort p (fun l =>
      { l with hbSeen := now, rtt := if ok then (((now : Int) - t1) - ((gtc : Int) - echo)).toNat else l.rtt })
    if ok && s.cellMode != 0 && s.cell.pport == some p then s.parentBeat t1 echo gtc now else s

/-! ### Port maps (R367) -/

def State.portMapIn (chip ver : Nat) (ports : List Nat) (s : State) : State :=
  let m := chip % 16
  if chip / 16 != s.cell.chip / 16 || chip == s.cell.chip then s
  else
    let newer := match NMap.find? s.cell.maps m with | some q => decide (q.ver < ver) | none => true
    if newer then
      (s.modCell (fun c => { c with maps := NMap.set c.maps m { ver := ver, ports := ports }, applied := wrap1 16 c.applied })).recompute
    else s

/-- A member reports its ALIGN. -/
def State.alignIn (chip level : Nat) (s : State) : State :=
  if chip / 16 == s.cell.chip / 16 && chip % 16 == s.cell.leader && chip != s.cell.chip then
    (s.modCell (fun c => { c with leaderLevel := level })).alignEval
  else s

/-! ### PTP (R374) -/

def State.ptpSync (ptp : Nat) (s : State) : State :=
  if s.cellMode != 2 then s
  else
    let run := min (s.cell.ptpRun + 1) 8
    let locks := run = 8 && !s.cell.ptpLock
    let s := s.modCell (fun c =>
      { c with ptpRun := run, ptpLock := c.ptpLock || run == 8, ptpOffs := (s.view 0 : Int) - ptp })
    let s := if locks then s.emit 0 7 7 noTenant 1 [0] else s
    let s := if s.isLeader && s.cell.ptpLock then s.discipline (-s.cell.ptpOffs) else s
    s.alignEval

def State.ptpLost (s : State) : State :=
  if s.cell.ptpLock then
    ((s.modCell (fun c => { c with ptpLock := false, ptpRun := 0, ptpLosses := sat1 16 c.ptpLosses })).emit 0 7 6 noTenant 2
      [0]).alignEval
  else s.modCell (fun c => { c with ptpRun := 0 })

/-! ### The chip ID (R365) -/

/-- The empty configuration; TOP_CLK_* keep their values through a warm reset (Table 5-7) and do not count. -/
def ConfigSet.isEmpty (c : ConfigSet) : Bool :=
  { c with dirty := false, rwt := c.rwt.filter (fun e => e.1 < 0x1000 || 0x2000 ≤ e.1) } == ConfigSet.empty

def State.topChip (v : Word) (s : State) : State :=
  if s.living.isEmpty && s.attic.isEmpty && (List.range 8).all (fun p => (s.port p).st == .down) then
    (s.modCell (fun c => { c with chip := fld v 0 15 })).recompute
  else s

/-! ### Spans (R377–R380) -/

def State.spanCfg (s : State) (m : Nat) : Word := s.rwt (offSpanCfg m)
def State.spanDevs (s : State) (m : Nat) : Nat := fld (s.spanCfg m) 16 4 + 1
/-- Chip ID and room at a position. -/
def State.spanDev (s : State) (m k : Nat) : Nat × Nat :=
  let w := s.rwt (offSpanDev m k)
  (fld w 0 15, fld w 16 6)
def State.spanHead (s : State) (m : Nat) : Bool := s.spanRoom m && s.spanPos m == 0

/-- What this device answers to a check, and compares answers with. -/
def State.spanOwn (s : State) (m : Nat) : SpanAns :=
  { spanId := fld (s.spanCfg m) 0 16, ndev := s.spanDevs m, devs := (List.range (s.spanDevs m)).map (s.spanDev m)
    level := (match s.roomCfg? m with | some r => r.level | none => 0), parity := s.living.parity m }

/-- The head checks every member. -/
def State.spanAskAll (m : Nat) (s : State) : State :=
  if !s.spanHead m then s
  else
    let s := s.modSpan m (fun r => { r with st := 1, answered := [] })
    ((List.range (s.spanDevs m)).drop 1).foldl (fun s k =>
      s.sendMsg (s.spanDev m k).1 (.spanAsk m (s.spanDev m k).2 k)) s

def State.spanMismatch (m pos : Nat) (s : State) : State :=
  (s.modSpan m (fun r => { r with st := 3, mpos := pos })).emit 0xA0 1 5 (s.roomTenant m) 2 [m]

/-- An answer reaches the head. -/
def State.spanAnswer (m pos : Nat) (a : SpanAns) (s : State) : State :=
  if !s.spanHead m || (s.spanRt m).st != 1 || pos = 0 || decide (s.spanDevs m ≤ pos) then s
  else if a != s.spanOwn m then s.spanMismatch m pos
  else
    let seen := insN pos (s.spanRt m).answered
    s.modSpan m (fun r => { r with answered := seen, st := if seen.length + 1 = s.spanDevs m then 2 else 1 })

/-- A check without an answer fails; a span that is not READY is checked again. -/
def State.spanTimer (m : Nat) (s : State) : State :=
  if !s.spanHead m || (s.spanRt m).st = 2 then s
  else if (s.spanRt m).st = 1 then
    let missing := ((List.range (s.spanDevs m)).drop 1).find? (fun k => !(s.spanRt m).answered.contains k)
    s.spanMismatch m (missing.getD 0)
  else s.spanAskAll m

/-- The resident graph with given digests (R379). -/
def State.spanGraph (s : State) (m : Nat) (x : SpanStartMsg) : Option (Nat × Nat × PEntry) :=
  match s.resident? (s.roomTenant m) m x.graph with
  | some e => if e.2.2.gd == x.gd && e.2.2.wd == x.wd then some e else none
  | none => none

/-- Slots assigned for a start message; a graph that is not resident is reported to the head. -/
def State.spanBegin (m chip : Nat) (x : SpanStartMsg) (s : State) : State :=
  match s.spanGraph m x with
  | none => s.sendMsg chip (.spanEnd x.ref (some (0x11, s.whyAbsent (s.roomTenant m) m x.graph)) 0 0)
  | some (w, i, g) =>
    let tid := s.tasks.next
    let (s, slots) := s.takeSlots tid m g.first g x.desc
    let e : QEntry := { raw := x.desc, accGtc := x.start, ord := 0, twin := none }
    let t := { Task.new x.queue m (s.roomTenant m) e x.start slots false 0 w i g.stateBytes with
      noRecord := true, span := some (chip, x.ref) }
    s.modTasks (fun u => { live := NMap.set u.live tid t, next := tid + 1 })

/-- Start messages served in the order they came, as far as slots are free. -/
def State.spanServe (m : Nat) : Nat → State → State
  | 0, s => s
  | n + 1, s =>
    match (s.spanRt m).waits with
    | [] => s
    | (chip, x) :: rest =>
      let ready : Bool := match s.spanGraph m x with
        | some (_, _, g) => (s.room m).st == .serving && s.roomFor m g.first g
        | none => true
      if ready then State.spanServe m n ((s.modSpan m (fun r => { r with waits := rest })).spanBegin m chip x) else s

/-- What follows from a room's task starting or ending: the thermal ceiling, and a return to TIMED that waited. -/
def State.afterTask (m : Nat) (s : State) : State := (s.settleTimed m).syncCeilAt (some m)

def State.spanSettle (m : Nat) (s : State) : State := (s.spanServe m (s.spanRt m).waits.length).afterTask m

/-- A room that starts tasks again serves the start messages that waited (R83, R84, R91, R380). -/
def State.spanResume (s : State) (m : Nat) : State := if (s.spanRt m).waits.isEmpty then s else s.spanSettle m

def State.spanResumeAll (s : State) : State := (NMap.keys s.cell.spans).foldl State.spanResume s

def State.spanStartIn (m chip : Nat) (x : SpanStartMsg) (s : State) : State :=
  if s.spanMember m then (s.modSpan m (fun r => { r with waits := r.waits ++ [(chip, x)] })).spanSettle m else s

/-- The member's part of a task is stopped; no record (R380). -/
def State.spanPartStop (m : Nat) (p : Nat → Bool) (s : State) : State :=
  (s.tasks.live.filter (fun t => t.2.room == m && (match t.2.span with | some (_, ref) => p ref | none => false))).foldl
    (fun s t => (((s.modTask t.1 (fun t => { t with spanStop := true })).stopTask t.1 0x31 0)).memberGone t.1) s

def State.spanStopIn (m ref : Nat) (s : State) : State :=
  ((s.modSpan m (fun r => { r with waits := r.waits.filter (fun w => w.2.ref != ref) })).spanPartStop m (· == ref)).spanSettle m

def State.headLost (m : Nat) (s : State) : State :=
  if s.spanMember m then ((s.modSpan m (fun r => { r with waits := [] })).spanPartStop m (fun _ => true)) else s

/-- A member's part of a task of this head is over (R379, R380). -/
def State.spanEndIn (ref : Nat) (st : Option (Nat × Nat)) (hits retries : Nat) (s : State) : State :=
  let s := s.modTask ref (fun t => { t with refreshHits := t.refreshHits + hits, linkRetries := t.linkRetries + retries })
  match st with
  | some (status, detail) => if (match s.task? ref with | some t => s.spanHead t.room | none => false) then s.endTask ref status detail else s
  | none => s

/-- The head tells every member of a task's start. -/
def State.tellStarts (old : Nat) (m : Nat) (s : State) : State :=
  if !s.spanHead m || s.tasks.next == old then s
  else match s.task? old with
    | none => s
    | some t =>
      match s.taskGraph t with
      | none => s
      | some g =>
        ((List.range (s.spanDevs m)).drop 1).foldl (fun s k =>
          s.sendMsg (s.spanDev m k).1 (.spanStart (s.spanDev m k).2
            { ref := old, graph := g.graph, gd := g.gd, wd := g.wd, start := t.start, queue := t.queue, desc := t.ent.raw })) s

/-- The head tells every member that a task has ended (R379). -/
def State.tellStops (tid : Nat) (s : State) : State :=
  match s.task? tid with
  | some t =>
    if s.spanHead t.room && !t.spanStop then
      ((List.range (s.spanDevs t.room)).drop 1).foldl (fun s k =>
        s.sendMsg (s.spanDev t.room k).1 (.spanStop (s.spanDev t.room k).2 tid)) (s.modTask tid (fun t => { t with spanStop := true }))
    else s
  | none => s

/-! ### Starts and ends of tasks -/

def State.startTask (m : Nat) (s : State) : State :=
  let old := s.tasks.next
  ((s.taskStart m).tellStarts old m).afterTask m

/-- Room of the task of a slot. -/
def State.slotRoom (s : State) (n k : Nat) : Option Nat := (s.task? (s.slot n k).task).map (·.room)

/-- The end of a lead slot, or of a stopping slot, with what follows. -/
def State.endSlot (n k : Nat) (f : State → State) (s : State) : State :=
  let tid := (s.slot n k).task
  match s.slotRoom n k with
  | none => f s
  | some m =>
    let lead := s.isLead n k
    let s := if lead && ((s.slot n k).st == .ending || (s.slot n k).st == .stopping) then s.tellStops tid else s
    let s := (f s).memberGone tid
    if (s.task? tid).isNone then s.spanSettle m else s

/-! ### Registers (Table 17-3) -/

def State.readCell (s : State) (off : Nat) : Word :=
  let c := s.cell
  if off = 0x200 then packW [(0, 15, c.chip)]
  else if off = 0x208 then s.rwt offCellCfg
  else if off = 0x210 then
    packW [(0, 4, c.leader), (4, 4, c.parent), (8, 3, c.pport.getD 7), (16, 16, c.reach), (32, 16, c.applied)]
  else if off = 0x218 then
    let th := max (-32768) (min 32767 s.thetaHat)
    packW [(0, 16, wrapN 16 th), (16, 16, c.delay), (32, 1, b2n c.ptpLock), (40, 16, c.ptpLosses)]
  else if off = 0x220 then BitVec.ofInt 64 c.ptpOffs
  else 0

/-- LINK_SPAN_m_CFG and its state. -/
def State.readSpan (s : State) (off : Nat) : Word :=
  let m := (off - 0x1A0000) / 0x100
  let o := off % 0x100
  if o = 0 then s.spanCfg m ||| packW [(26, 2, (s.spanRt m).st), (28, 4, (s.spanRt m).mpos)]
  else s.rwt off

/-! ### Commands -/

def execHeartbeatSend (port : Port) (s : State) : Answer := .next (s.heartbeatSend port)
def execHeartbeat (port : Port) (h : LHdr) (epoch chip gtc echo : Nat) (s : State) : Answer :=
  .next (s.heartbeatIn port h epoch chip gtc echo)
def execPortMap (chip ver : Nat) (ports : List Nat) (s : State) : Answer := .next (s.portMapIn chip ver ports)
def execPortMapTimer (s : State) : Answer := .next s.sendMaps
def execPtpSync (ptp : Nat) (s : State) : Answer := .next (s.ptpSync ptp)
def execPtpLoss (s : State) : Answer := .next s.ptpLost
def execTopChipWrite (v : Word) (s : State) : Answer := .next (s.topChip v)
def execSpanCheck (room : Room) (pos : Nat) (ans : SpanAns) (s : State) : Answer := .next (s.spanAnswer room pos ans)
def execSpanCheckTimer (room : Room) (s : State) : Answer := .next (s.spanTimer room)
def execSpanStart (room : Room) (st : SpanStartMsg) (s : State) : Answer :=
  .next (s.spanStartIn room (s.spanDev room 0).1 st)
def execSpanStop (room : Room) (ref : Nat) (s : State) : Answer := .next (s.spanStopIn room ref)
def execHeadUnreachable (room : Room) (s : State) : Answer := .next (s.headLost room)
def execTaskStart (room : Room) (s : State) : Answer := .next (s.startTask room)
def execTaskEnd (isl : IslN) (slot : SlotN) (s : State) : Answer := .next (s.endSlot isl slot (fun s => s.taskEnd isl slot))
def execStopComplete (isl : IslN) (slot : SlotN) (s : State) : Answer :=
  .next (s.endSlot isl slot (fun s => s.stopComplete isl slot))

end Sys2Proof.Machine
end

