-- ==== Sys2Proof/Machine/Layout.lean ====
section
/-! DEFINITION. Layout images (R42–R68): header, frames and section bodies, the merge of a full or delta image, the
checks of Table 3-15 with the place of the failing field, lane assignment, the RWT registers, and the settings that
no Hatch applies. -/

namespace Sys2Proof.Machine

open Sys2Proof

/-! ### RWT registers (Table 22-2 to Table 22-11) -/

/-- The RWT bits of the register at a BAR0 offset; none where the offset names no RWT register (R466). -/
def rwtMask (off : Nat) : Option Word :=
  if off = offCellCfg then some (maskW [(0, 18), (24, 8)])
  else if off = offPcieCfg then some (maskW [(0, 5), (8, 6)])
  else if off = offFuseCtrl then some (maskW [(0, 4), (8, 6)])
  else if off = offFuseAuth then some (maskW [(3, 61)])
  else if off = offQmgrCfg then some (maskW [(0, 40)])
  else if off = offReproCfg then some (maskW [(0, 44), (48, 8)])
  else if off = offTwinCfg then some (maskW [(0, 64)])
  else if 0x1000 ≤ off ∧ off < 0x2000 then
    if off % 16 == 0 && isDco ((off - 0x1000) / 16) then some (maskW [(0, 13), (16, 10)]) else none
  else if 0xA2000 ≤ off ∧ off < 0xA2200 then if off % 8 == 0 then some (maskW [(0, 8)]) else none
  else if 0x100000 ≤ off ∧ off < 0x180000 then if off % 0x10000 == 0x10 then some (maskW [(0, 28)]) else none
  else if 0x180000 ≤ off ∧ off < 0x182000 then
    if off % 8 == 0 then some (maskW [(0, 11), (12, 6), (32, 11), (44, 6)]) else none
  else if 0x1A0000 ≤ off ∧ off < 0x1A4000 then
    let o := off % 0x100
    if o = 0 then some (maskW [(0, 25)]) else if o % 8 == 0 && decide (o ≤ 0x80) then some (maskW [(0, 15), (16, 6)]) else none
  else if 0x400000 ≤ off ∧ off < 0x800000 then if off % 0x10000 == 0x150 then some (maskW [(0, 3)]) else none
  else none

/-- A value put into the RWT part of a set; a value equal to the reset value leaves the list. -/
def State.rwtPut (s : State) (c : ConfigSet) (off : Nat) (v : Word) : ConfigSet :=
  { c with rwt := if v = s.rwtReset off then NMap.del c.rwt off else NMap.set c.rwt off v }

/-- Every register that either of two sets lists. -/
def rwtKeys (a b : ConfigSet) : List Nat := insAll (NMap.keys b.rwt) (NMap.keys a.rwt)

/-- RWT registers in which two sets differ. -/
def State.rwtDiff (s : State) (a b : ConfigSet) : List Nat :=
  (rwtKeys a b).filter (fun o => s.rwtOf a o != s.rwtOf b o)

/-! ### Sections (R44, R45, Table 3-2) -/

/-- A section of an image: TYPE, KEY, offset of its frame, BODY_LEN, and its index. -/
structure Sec where
  typ : Nat
  key : Nat
  off : Nat
  len : Nat
  idx : Nat
  deriving DecidableEq, Repr

/-- A failed check: result code, stage, SECTION and OFFSET. -/
structure LFail where
  res : Nat
  stage : Nat
  sec : Nat
  off : Nat
  deriving DecidableEq, Repr

/-- KEY lies within Table 3-2. -/
def keyOk (typ key : Nat) : Bool :=
  if typ = 1 ∨ typ = 2 ∨ typ = 6 ∨ typ = 10 then decide (key < 64)
  else if typ = 3 then decide (key < 264)
  else if typ = 4 then decide (key < 4096)
  else if typ = 5 then decide (key < 256)
  else if typ = 7 then decide (key < 8)
  else if typ = 8 then key == 0
  else decide (key < 64) || key == 0x100

/-- BODY_LEN of Table 3-2; for CLOCK the length its COUNT implies. -/
def bodyLen (typ key count : Nat) : Nat :=
  if typ = 1 ∨ typ = 5 then 32
  else if typ = 2 then 8
  else if typ = 8 then 8 + cdiv (4 * count) 8 * 8
  else if typ = 9 then (if key = 0x100 then 16 else 8)
  else 16

/-- Reserved fields of a body: offset, bytes, and the bits of each byte that are reserved. -/
def reservedOf (typ key hops count : Nat) : List (Nat × Nat × Nat) :=
  if typ = 1 then [(0x03, 1, 0xFE), (0x04, 4, 0xFF), (0x12, 1, 0xF0), (0x13, 1, 0xFF), (0x15, 3, 0xFF), (0x1C, 4, 0xFF)]
  else if typ = 2 then [(0x03, 5, 0xFF)]
  else if typ = 3 then
    [(0x06, 2, 0xFF)] ++ (List.range 8).filterMap (fun i =>
      if 4 * (i + 1) ≤ hops then none else some (8 + i, 1, 256 - 4 ^ (hops - 4 * i)))
  else if typ = 4 then [(0x09, 1, 0xFF), (0x0D, 3, 0xFF)]
  else if typ = 5 then [(0x13, 1, 0xFF), (0x16, 2, 0xFF), (0x1C, 4, 0xFF)]
  else if typ = 6 then [(0x07, 1, 0xF0)]
  else if typ = 7 then [(0x03, 1, 0xFF), (0x0A, 6, 0xFF)]
  else if typ = 8 then [(0x04, 4, 0xFF)] ++ (if count % 2 = 1 then [(8 + 4 * count, 4, 0xFF)] else [])
  else if typ = 9 then (if key = 0x100 then [(0x04, 1, 0xFC), (0x06, 10, 0xFF)] else [(0x03, 5, 0xFF)])
  else [(0x0B, 1, 0xF8), (0x0C, 4, 0xFF)]

/-- The first reserved field of a body that is not zero, by its offset; unused ROUTE bits belong to the field ROUTE. -/
def reservedBad (typ key : Nat) (b : Bytes) : Option Nat :=
  match (reservedOf typ key (leAt b 4 1) (leAt b 2 2)).find? (fun f =>
      (slice b f.1 f.2.1).any (fun x => (x.toNat &&& f.2.2) != 0)) with
  | some f => some (if typ = 3 ∧ 8 ≤ f.1 then 8 else f.1)
  | none => none

/-- One frame of the walk of stage 5: the offset of its first failing field, or none. -/
def frameBad (img : Bytes) (delta : Bool) (last : Nat) (prev : Option (Nat × Nat)) (off : Nat) : Option Nat :=
  let typ := leAt img off 2
  let key := leAt img (off + 2) 2
  let len := leAt img (off + 4) 4
  if typ = 0 ∨ 10 < typ then some off
  else if !keyOk typ key then some (off + 2)
  else
    let order := match prev with
      | some (t, k) => if typ < t then some off else if typ = t ∧ key ≤ k then some (off + 2) else none
      | none => none
    match order with
    | some o => some o
    | none =>
      if len = 0 then (if delta then none else some (off + 4))
      else if len < 8 ∨ last < off + 8 + len ∨ len ≠ bodyLen typ key (leAt img (off + 10) 2) then some (off + 4)
      else (reservedBad typ key (slice img (off + 8) len)).map (off + 8 + ·)

/-- The walk of stage 5 from `off`: the sections, or index and offset of the first failure. -/
def walk (img : Bytes) (delta : Bool) (last : Nat) : Nat → Nat → Nat → Option (Nat × Nat) → List Sec →
    Except (Nat × Nat) (List Sec)
  | 0, _, _, _, acc => .ok acc.reverse
  | fuel + 1, off, idx, prev, acc =>
    if last ≤ off then .ok acc.reverse
    else match frameBad img delta last prev off with
      | some o => .error (idx, o)
      | none =>
        let x : Sec := { typ := leAt img off 2, key := leAt img (off + 2) 2, off := off, len := leAt img (off + 4) 4, idx := idx }
        walk img delta last fuel (off + 8 + x.len) (idx + 1) (some (x.typ, x.key)) (x :: acc)

/-! ### Bodies (Tables 3-3 to 3-12) -/

/-- An endpoint as the passages of this model number it: 4 × island + endpoint on a T-island, 256 + 2 × ELE + endpoint on
an ELE; a value that names neither lies above. -/
def epOf (v : Nat) : Nat :=
  let src := v % 4096
  let e := v / 4096
  if isT src then (if e < 4 then 4 * (src - 0x10) + e else 0x10000 + v)
  else if isEle src then (if e < 2 then 256 + 2 * (src - 0x60) + e else 0x10000 + v)
  else 0x10000 + v

def epOk (e : Nat) : Bool := decide (e < 264)
def epIsEle (e : Nat) : Bool := decide (256 ≤ e) && decide (e < 264)

/-- Host switch of an ELE (R30). -/
def eleSwitch (j : Nat) : Nat := [24, 31, 32, 39].getD j 0

/-- The switch of an endpoint. -/
def epSwitch (e : Nat) : Nat := if e < 256 then e / 4 else eleSwitch ((e - 256) / 2)

def decodeRoom (b : Bytes) : RoomCfg :=
  { tenant := leAt b 0 1, level := leAt b 1 1, dispatcher := leAt b 2 1, restart := leAt b 3 1 % 2 == 1
    islands := BitVec.ofNat 64 (leAt b 8 8), rces := BitVec.ofNat 64 (leAt b 0x10 2), eles := BitVec.ofNat 64 (leAt b 0x12 1)
    slots := leAt b 0x14 1, numericKey := leAt b 0x18 2, rasKey := leAt b 0x1A 2 }

def decodePassage (b : Bytes) : PassageCfg :=
  { src := epOf (leAt b 0 2), sink := epOf (leAt b 2 2), hops := leAt b 4 1, width := leAt b 5 1,
    route := BitVec.ofNat 64 (leAt b 8 8) }

def decodeQMap (b : Bytes) : QMapCfg :=
  { firstQ := leAt b 0 4, count := leAt b 4 4, room := leAt b 8 1, cring := leAt b 0xA 2, crspan := leAt b 0xC 1 }

def decodeWindow (b : Bytes) : WindowCfg :=
  { base := leAt b 0 8, size := leAt b 8 8, tenant := leAt b 0x10 1, kind := leAt b 0x11 1, access := leAt b 0x12 1,
    peer := leAt b 0x14 2, leaseUs := leAt b 0x18 4 }

def decodeNumeric (b : Bytes) : NumericCfg :=
  { family := leAt b 0 1, mode := leAt b 1 1, sfu := leAt b 2 1, ftab := leAt b 3 1, outconv := leAt b 4 1, padc := leAt b 5 1,
    rcv := leAt b 6 1, traps := leAt b 7 1, expectPw := BitVec.ofNat 64 (leAt b 8 8) }

def decodeLinkPol (b : Bytes) : LinkPolCfg :=
  { mode := leAt b 0 1, lanes := leAt b 1 1, protect := leAt b 2 1, retryUs := leAt b 4 2, rate := leAt b 6 2, peer := leAt b 8 2 }

def decodeTenant (b : Bytes) : TenantCfg :=
  { qbase := leAt b 0 4, qcount := leAt b 4 4, crbase := leAt b 8 2, crcount := leAt b 0xA 1, flags := leAt b 0xB 1 }

def decodeRasRoom (b : Bytes) : RasRoomCfg := { margin := leAt b 0 1, maxSteps := leAt b 1 1, withhold := leAt b 2 1 }

def decodeRasChip (b : Bytes) : RasChipCfg :=
  { sweepS := leAt b 0 2, scrubH := leAt b 2 2, cflags := leAt b 4 1, refresh := leAt b 5 1 }

/-- A CLOCK section: seed, COUNT, and the entries in order. -/
structure ClockSec where
  seed : Nat
  count : Nat
  entries : List (Nat × Nat)
  deriving DecidableEq, Repr

def decodeClock (b : Bytes) : ClockSec :=
  { seed := leAt b 0 2, count := leAt b 2 2
    entries := (List.range (min (leAt b 2 2) 96)).map (fun i => (leAt b (8 + 4 * i) 2, leAt b (10 + 4 * i) 2)) }

def ClockSec.empty : ClockSec := { seed := 0, count := 0, entries := [] }

/-- Ceilings and PHASE of every DCO island as a CLOCK section sets them (R21, R59); SPREAD stays as it is. -/
def State.applyClock (s : State) (k : ClockSec) (c : ConfigSet) : ConfigSet :=
  dcoSources.foldl (fun c src =>
    let ceil := match k.entries.find? (fun e => e.1 == src) with
      | some e => e.2
      | none => ceilDefault s.ident.grade src
    let v := s.rwtOf c (offClkCfg src)
    s.rwtPut c (offClkCfg src) (packW [(0, 12, ceil), (12, 1, fld v 12 1), (16, 10, (k.seed + 397 * src) % 1024)])) c

/-- An instance set, or removed where the section has no body. -/
def setOrDel {α : Type} (m : NMap α) (k : Nat) (len : Nat) (v : α) : NMap α :=
  if len = 0 then NMap.del m k else NMap.set m k v

/-- One section applied to a set (R62). -/
def State.applySec (s : State) (img : Bytes) (c : ConfigSet) (x : Sec) : ConfigSet :=
  let b := slice img (x.off + 8) x.len
  if x.typ = 1 then { c with rooms := setOrDel c.rooms x.key x.len (decodeRoom b) }
  else if x.typ = 2 then { c with islands := setOrDel c.islands x.key x.len { pinKib := leAt b 0 2, stackKib := leAt b 2 1 } }
  else if x.typ = 3 then { c with passages := setOrDel c.passages x.key x.len (decodePassage b) }
  else if x.typ = 4 then { c with qmaps := setOrDel c.qmaps x.key x.len (decodeQMap b) }
  else if x.typ = 5 then { c with windows := setOrDel c.windows x.key x.len (decodeWindow b) }
  else if x.typ = 6 then { c with numerics := setOrDel c.numerics x.key x.len (decodeNumeric b) }
  else if x.typ = 7 then { c with linkpols := setOrDel c.linkpols x.key x.len (decodeLinkPol b) }
  else if x.typ = 8 then s.applyClock (if x.len = 0 then .empty else decodeClock b) c
  else if x.typ = 9 then
    if x.key = 0x100 then { c with rasChip := if x.len = 0 then none else some (decodeRasChip b) }
    else { c with rasRooms := setOrDel c.rasRooms x.key x.len (decodeRasRoom b) }
  else { c with tenants := setOrDel c.tenants x.key x.len (decodeTenant b) }

/-- The set that a full image starts from: the empty configuration, with every RWT field that no section defines at its
Living value, ceilings at their defaults and PHASE from seed 0 (R46, R66). -/
def State.fullBase (s : State) : ConfigSet :=
  s.applyClock .empty { ConfigSet.empty with rwt := s.living.rwt }

/-- The merged result of a load (R62, R64, R66). -/
def State.mergeImage (s : State) (img : Bytes) (delta : Bool) (slot : Nat) (secs : List Sec) : ConfigSet :=
  let c := secs.foldl (s.applySec img) (if delta then s.attic else s.fullBase)
  { c with targetPw := BitVec.ofNat 64 (leAt img 0x10 8), stepMask := leAt img 0x0E 2
           ident := BitVec.ofNat 128 (leAt img 0x18 16), slot := slot
           dirty := if delta then c.dirty else false }

/-! ### Checks on a configuration set (stages 6 and 8–11) -/

/-- A failed check of a set: result code, TYPE, KEY, and offset of the field in its body. -/
structure CFail where
  res : Nat
  stage : Nat
  typ : Nat
  key : Nat
  off : Nat
  deriving DecidableEq, Repr

/-- The offset of the first field whose check fails. -/
def fieldBad (l : List (Bool × Nat)) : Option Nat := (l.find? (fun c => c.1)).map (·.2)

/-- The first instance of a type, in ascending KEY, with a failing field. -/
def badInst {α : Type} (res stage typ : Nat) (m : NMap α) (f : Nat → α → Option Nat) : Option CFail :=
  m.findSome? (fun e => (f e.1 e.2).map (fun o => { res := res, stage := stage, typ := typ, key := e.1, off := o }))

def outside (lo hi v : Nat) : Bool := decide (v < lo) || decide (hi < v)

/-- Where a move of a route leads from a switch; none off the array (Table 3-5). -/
def routeMove (n d : Nat) : Option Nat :=
  if d = 0 then (if 8 ≤ n then some (n - 8) else none)
  else if d = 1 then (if n % 8 < 7 then some (n + 1) else none)
  else if d = 2 then (if n < 56 then some (n + 8) else none)
  else if 0 < n % 8 then some (n - 1) else none

/-- Links of a route from a switch: switch × 4 + direction of each, and where it ends. -/
def routeLinks (route : Word) : Nat → Nat → Nat → Option (List Nat × Nat)
  | 0, _, n => some ([], n)
  | h + 1, i, n =>
    match routeMove n (fld route (2 * i) 2) with
    | none => none
    | some m => (routeLinks route h (i + 1) m).map (fun r => ((4 * n + fld route (2 * i) 2) :: r.1, r.2))

/-- Links a passage crosses, ELE links included (256 + 2 × ELE into the switch, one more out of it); none for a route that
leaves the array or ends elsewhere (R51). -/
def PassageCfg.links (p : PassageCfg) : Option (List Nat) :=
  match routeLinks p.route p.hops 0 (epSwitch p.src) with
  | some (l, n) =>
    if n = epSwitch p.sink then
      some ((if epIsEle p.src then [256 + (p.src - 256) / 2 * 2] else []) ++ l ++
        (if epIsEle p.sink then [256 + (p.sink - 256) / 2 * 2 + 1] else []))
    else none
  | none => none

/-- Lanes given so far, by link, after one more passage that crosses the links listed, each named once; none where too
few are free (R52: the lowest lanes that no earlier passage holds). -/
def takeLanes (held : NMap (List Nat)) (w : Nat) : List Nat → Option (NMap (List Nat))
  | [] => some held
  | l :: r =>
    let used := NMap.getD held l []
    let free := ((List.range (if l < 256 then 4 else 2)).filter (fun x => !used.contains x)).take w
    if free.length < w then none else takeLanes (NMap.set held l (used ++ free)) w r

/-- The first passage, in ascending KEY, that finds too few free lanes. -/
def lanesFail (held : NMap (List Nat)) : NMap PassageCfg → Option Nat
  | [] => none
  | (k, p) :: r =>
    match p.links with
    | none => lanesFail held r
    | some l => match takeLanes held p.width l.eraseDups with
      | none => some k
      | some h => lanesFail h r

/-- Stage 6 on a ROOM. -/
def badRoom (_ : Nat) (r : RoomCfg) : Option Nat :=
  fieldBad [(outside 0 63 r.tenant, 0x00), (outside 0 2 r.level || (r.level == 0 && r.rces != 0), 0x01),
    (outside 0 63 r.dispatcher, 0x02), (r.islands == 0, 0x08), (outside 1 16 r.slots, 0x14)]

def badIsland (_ : Nat) (i : IslandCfg) : Option Nat :=
  fieldBad [(i.pinKib % 64 != 0, 0x00), (outside 1 64 i.stackKib, 0x02)]

def badPassage (_ : Nat) (p : PassageCfg) : Option Nat :=
  fieldBad [(!epOk p.src, 0x00), (!epOk p.sink, 0x02), (outside 0 32 p.hops, 0x04),
    (outside 1 (if epIsEle p.src || epIsEle p.sink then 2 else 4) p.width, 0x05), (p.links.isNone, 0x08)]

def badQMap (_ : Nat) (q : QMapCfg) : Option Nat :=
  fieldBad [(outside 0 131071 q.firstQ, 0x00), (q.count == 0, 0x04), (outside 0 63 q.room, 0x08), (outside 0 8191 q.cring, 0x0A),
    (outside 1 128 q.crspan, 0x0C)]

def badWindow (_ : Nat) (w : WindowCfg) : Option Nat :=
  fieldBad [(w.base % 4096 != 0, 0x00), (w.size % 4096 != 0 || w.size == 0, 0x08), (outside 0 63 w.tenant, 0x10),
    (outside 0 3 w.kind, 0x11), (outside 0 (if w.kind = 2 ∨ w.kind = 3 then 3 else 0) w.access, 0x12),
    (if w.kind = 2 then decide (0x7FFF < w.peer) && w.peer != 0xFFFF else w.peer != 0, 0x14),
    (if w.kind = 2 then w.leaseUs != 0 && outside 10 100000 w.leaseUs else w.leaseUs != 0, 0x18)]

/-- Stage 6 on a NUMERIC section; R56 apart, which has a code of its own. -/
def badNumeric (_ : Nat) (n : NumericCfg) : Option Nat :=
  fieldBad [(outside 1 3 n.family, 0x00), (outside 0 2 n.mode, 0x01), (outside 0 1 n.sfu, 0x02), (outside 1 2 n.ftab, 0x03),
    (outside 0 3 n.outconv || (n.mode == 2 && n.outconv != 1), 0x04), (outside 0 1 n.padc, 0x05), (n.rcv != 1, 0x06)]

/-- NUMERIC sections in ascending KEY, each in field order, with FTAB against STEP_MASK (R56). -/
def numericFail (c : ConfigSet) : Option CFail :=
  c.numerics.findSome? (fun e =>
    let bad := badNumeric e.1 e.2
    let early := match bad with | some o => decide (o ≤ 3) | none => false
    if e.2.ftab == 2 && c.stepMask != 4 && !early then some { res := 0x10, stage := 6, typ := 6, key := e.1, off := 3 }
    else bad.map (fun o => { res := 0x0B, stage := 6, typ := 6, key := e.1, off := o }))

def badLinkPol (c : ConfigSet) (k : Nat) (p : LinkPolCfg) : Option Nat :=
  fieldBad [(outside 0 3 p.mode || p.mode == (if k < 4 then 2 else 1)
      || (p.mode == 3 && c.linkpols.any (fun e => decide (e.1 < k) && e.2.mode == 3)), 0x00),
    (!(p.lanes == 4 || p.lanes == 8 || p.lanes == 16), 0x01), (outside 0 1 p.protect, 0x02),
    (p.retryUs != 0 && decide (p.retryUs < 100), 0x04), (if p.mode = 3 then decide (0x7FFF < p.peer) else p.peer != 0, 0x08)]

/-- Entries of a CLOCK section from the i-th (R59). -/
def badEntries (grade : Nat) : Nat → Option Nat → List (Nat × Nat) → Option Nat
  | _, _, [] => none
  | i, prev, (src, mhz) :: r =>
    if !isDco src || (match prev with | some p => decide (src ≤ p) | none => false) then some (8 + 4 * i)
    else if !ceilOk grade src mhz then some (10 + 4 * i)
    else badEntries grade (i + 1) (some src) r

def badClock (grade : Nat) (k : ClockSec) : Option Nat :=
  match fieldBad [(outside 0 1023 k.seed, 0x00), (outside 0 96 k.count, 0x02)] with
  | some o => some o
  | none => badEntries grade 0 none k.entries

def badRasRoom (_ : Nat) (r : RasRoomCfg) : Option Nat :=
  fieldBad [(outside 0 1 r.margin, 0x00), (outside 0 4 r.maxSteps, 0x01), (outside 0 1 r.withhold, 0x02)]

def badRasChip (r : RasChipCfg) : Option Nat :=
  fieldBad [(r.sweepS != 0 && outside 60 600 r.sweepS, 0x00), (r.scrubH != 0 && outside 1 168 r.scrubH, 0x02),
    (outside 0 1 r.refresh, 0x05)]

def badTenant (_ : Nat) (t : TenantCfg) : Option Nat := fieldBad [(outside 0 128 t.crcount, 0x0A)]

/-- Stage 6 on a set, with the CLOCK section of the image where it has one. -/
def ConfigSet.stage6 (grade : Nat) (c : ConfigSet) (k : Option ClockSec) : Option CFail :=
  (badInst 0x0B 6 1 c.rooms badRoom).or ((badInst 0x0B 6 2 c.islands badIsland).or
    ((badInst 0x0B 6 3 c.passages badPassage).or ((badInst 0x0B 6 4 c.qmaps badQMap).or
      ((badInst 0x0B 6 5 c.windows badWindow).or ((numericFail c).or ((badInst 0x0B 6 7 c.linkpols (badLinkPol c)).or
        (((k.bind (badClock grade)).map (fun o => { res := 0x0B, stage := 6, typ := 8, key := 0, off := o })).or
          ((badInst 0x0B 6 9 c.rasRooms badRasRoom).or
            (((c.rasChip.bind badRasChip).map (fun o => { res := 0x0B, stage := 6, typ := 9, key := 0x100, off := o })).or
              (badInst 0x0B 6 10 c.tenants badTenant))))))))))

/-- A tenant's section has ENABLED set. -/
def ConfigSet.tenOn (c : ConfigSet) (t : Nat) : Bool :=
  match NMap.find? c.tenants t with | some x => nbit x.flags 0 | none => false

/-- Rooms that hold an endpoint. -/
def ConfigSet.roomsOfEp (c : ConfigSet) (e : Nat) : List Nat :=
  (c.rooms.filter (fun r => if e < 256 then bitOf r.2.islands (e / 4) else bitOf r.2.eles ((e - 256) / 2))).map (·.1)

/-- Stage 8: every reference resolves. -/
def ConfigSet.stage8 (c : ConfigSet) : Option CFail :=
  (badInst 0x0E 8 1 c.rooms (fun _ r => fieldBad [(!c.tenOn r.tenant, 0x00), (!bitOf r.islands r.dispatcher, 0x02),
      ((NMap.find? c.numerics r.numericKey).isNone, 0x18), ((NMap.find? c.rasRooms r.rasKey).isNone, 0x1A)])).or
    ((badInst 0x0E 8 3 c.passages (fun _ p => fieldBad [((c.roomsOfEp p.src).isEmpty, 0x00),
        (!(c.roomsOfEp p.src).any (c.roomsOfEp p.sink).contains, 0x02)])).or
      ((badInst 0x0E 8 4 c.qmaps (fun _ q => fieldBad [((NMap.find? c.rooms q.room).isNone, 0x08)])).or
        (badInst 0x0E 8 5 c.windows (fun _ w => fieldBad [(!c.tenOn w.tenant, 0x10)]))))

/-- Two ranges, each by base and size, have a number in common. -/
def overlap (a n b m : Nat) : Bool := decide (0 < n) && decide (0 < m) && decide (a < b + m) && decide (b < a + n)

/-- The first range lies inside the second. -/
def within (a n b m : Nat) : Bool := decide (b ≤ a) && decide (a + n ≤ b + m)

/-- R48 for the engines that a room names, by the bits of its field: a fifth room on an engine, or an engine of a Level T
room that another room names; found at the later of the rooms. -/
def engineBad (rooms : NMap RoomCfg) (fieldOf : RoomCfg → Word) (k : Nat) (r : RoomCfg) : Bool :=
  (bitsOf 16 (fieldOf r)).any (fun e =>
    let prior := rooms.filter (fun x => decide (x.1 < k) && bitOf (fieldOf x.2) e)
    (r.level == 2 && !prior.isEmpty) || prior.any (fun x => x.2.level == 2) || decide (4 ≤ prior.length))

/-- Another room names one of the engines that a room names, by the bits of its field. -/
def engineShared (rooms : NMap RoomCfg) (fieldOf : RoomCfg → Word) (k : Nat) (r : RoomCfg) : Bool :=
  rooms.any (fun x => x.1 != k && (fieldOf x.2 &&& fieldOf r) != 0)

/-- Stage 9: exclusivity and overlap (R47, R48, R51, R53–R55, R312), and units that are RETIRED (R406). A clash of two
instances is found at the later one. A range or an overlap is named at its base: QBASE or CRBASE, FIRST_Q or CRING (DESIGN
CHOICE, log entry 80). -/
def ConfigSet.stage9 (dead : Nat → Bool) (c : ConfigSet) : Option CFail :=
  (badInst 0x0D 9 1 c.rooms (fun k r => fieldBad
      [(c.rooms.any (fun x => decide (x.1 < k) && (x.2.islands &&& r.islands) != 0) || r.isls.any (fun n => dead (0x10 + n)), 0x08),
       (engineBad c.rooms (·.rces) k r || r.rceList.any (fun n => dead (0x50 + n)), 0x10),
       (engineBad c.rooms (·.eles) k r || r.eleList.any (fun n => dead (0x60 + n)), 0x12)])).or
    ((badInst 0x0D 9 3 c.passages (fun k p => fieldBad
        [(c.passages.any (fun x => decide (x.1 < k) && x.2.src == p.src), 0x00),
         (c.passages.any (fun x => decide (x.1 < k) && x.2.sink == p.sink), 0x02)])).or
      ((badInst 0x0D 9 4 c.qmaps (fun k q =>
          let ten := (NMap.find? c.rooms q.room).bind (fun r => NMap.find? c.tenants r.tenant)
          match ten with
          | none => none
          | some t => fieldBad
            [(!within q.firstQ q.count t.qbase t.qcount
                || c.qmaps.any (fun x => decide (x.1 < k) && overlap x.2.firstQ x.2.count q.firstQ q.count), 0x00),
             (!within q.cring q.crspan t.crbase t.crcount, 0x0A)])).or
        ((badInst 0x0D 9 5 c.windows (fun k w =>
            if w.kind < 2 then fieldBad
              [(c.windows.any (fun x => decide (x.1 < k) && decide (x.2.kind < 2) && overlap x.2.base x.2.size w.base w.size), 0x00),
               (decide (devBase < w.base + w.size), 0x08)]
            else
              let hosts := c.windows.filter (fun x => decide (x.2.kind < 2) && x.2.tenant == w.tenant
                && within w.base w.size x.2.base x.2.size)
              fieldBad [(hosts.isEmpty, 0x00), (decide (devBase < w.base + w.size), 0x08),
                (w.kind == 2 && nbit w.access 1 && hosts.any (fun x => x.2.kind == 1), 0x12)])).or
          (badInst 0x0D 9 10 c.tenants (fun k t =>
            let prior := c.tenants.filter (fun x => decide (x.1 < k) && nbit x.2.flags 0)
            let on := nbit t.flags 0
            fieldBad
              [(decide (131072 < t.qbase + t.qcount) || (on && prior.any (fun x => overlap x.2.qbase x.2.qcount t.qbase t.qcount)), 0x00),
               (decide (8192 < t.crbase + t.crcount) || (on && prior.any (fun x => overlap x.2.crbase x.2.crcount t.crbase t.crcount)), 0x08)])))))

/-- Stage 10: the Shelf budget of R50, named at PIN_KIB, then the lanes of R52, named at WIDTH (DESIGN CHOICE, log
entry 80). -/
def ConfigSet.stage10 (c : ConfigSet) : Option CFail :=
  (badInst 0x12 10 2 c.islands (fun _ i => fieldBad [(decide (1920 < i.pinKib + 16 * i.stackKib), 0x00)])).or
    ((lanesFail [] c.passages).map (fun k => { res := 0x0F, stage := 10, typ := 3, key := k, off := 5 }))

/-- Stage 11: the parity words of R57, named at the room's NUMERIC_KEY (DESIGN CHOICE, log entry 80). -/
def ConfigSet.stage11 (c : ConfigSet) : Option CFail :=
  badInst 0x11 11 1 c.rooms (fun k r =>
    if r.level = 0 then none
    else
      let n := NMap.getD c.numerics r.numericKey .default
      let want := if n.expectPw = 0 then c.targetPw else n.expectPw
      fieldBad [(want != 0 && want != c.parity k, 0x18)])

def State.stages8to11 (s : State) (c : ConfigSet) : Option CFail :=
  c.stage8.or ((c.stage9 (fun u => (s.unit u).health == .retired)).or (c.stage10.or c.stage11))

/-! ### A load (R65–R68, Table 3-15) -/

/-- The bytes of the image up to LENGTH, and the offset of the first that could not be fetched without error or
poison. With SRC = 0 and PF0's Bus Master Enable clear, no byte can be fetched (R65). -/
def State.imageBytes (s : State) (img : Bytes) (fault : Option Nat) (len : Nat) : Bytes × Option Nat :=
  if s.txn.loader.cellar then
    let a := s.txn.loader.addr
    let top := if devBase < a + len then some (devBase - a) else none
    let bad := (s.cellar.store.poisonIn lineB a len).map (fun u => u - a)
    (fit len (s.cellarRead a (min len (devBase - a))), match top, bad with | some x, some y => some (min x y) | some x, none => some x | none, y => y)
  else
    let img := if s.plat.bme then img else []
    let short := if img.length < len then some img.length else none
    let f := match fault, short with | some x, some y => some (min x y) | some x, none => some x | none, y => y
    (fit len img, f.bind (fun o => if o < len then some o else none))

/-- The owner-key slot whose hash a key has, provisioned and not revoked (R61). -/
def State.keySlot? (s : State) (xy : Bytes) : Option Nat :=
  let h := unbe (sha384 xy)
  s.plat.keys.findIdx? (fun k => k.provisioned && !k.revoked && k.hash == h)

/-- Stages 2 and 3: the header. -/
def State.headerFail (s : State) (h : Bytes) (fault : Option Nat) : Option LFail :=
  let bad := fun (res off : Nat) => some { res := res, stage := 2, sec := 0xFFFF, off := off : LFail }
  match fault with
  | some o => bad 0x02 o
  | none =>
    let len := leAt h 8 4
    if slice h 0 4 != [0x48, 0x4C, 0x41, 0x59] then bad 0x03 0
    else if leAt h 4 2 ≠ 3 then bad 0x04 4
    else if 1 < leAt h 6 2 then bad 0x0A 6
    else if len % 8 ≠ 0 ∨ len < 472 ∨ 1048576 < len then bad 0x05 8
    else if leAt h 0x0E 2 &&& 0xFFF9 ≠ 0 then bad 0x0A 0x0E
    else if allZero (slice h 0x18 16) then bad 0x0A 0x18
    else if !allZero (slice h 0x3A 198) then bad 0x0A 0x3A
    else if !nbit (leAt h 0x0E 2) s.ident.step then some { res := 0x06, stage := 3, sec := 0xFFFF, off := 0x0E }
    else if !nbit (leAt h 0x38 2) 15 && leAt h 0x38 2 % 32768 != s.cell.chip then
      some { res := 0x07, stage := 3, sec := 0xFFFF, off := 0x38 }
    else none

/-- Stage 4: the rest of the image, the signature frame, the key and the signature; the slot where all hold. -/
def State.signature (s : State) (b : Bytes) (fault : Option Nat) : Except LFail Nat :=
  let len := b.length
  let sig := len - 208
  let idx := (leAt b 0x0C 2 + 65535) % 65536
  let bad := fun (res off : Nat) => (Except.error { res := res, stage := 4, sec := idx, off := off } : Except LFail Nat)
  match fault with
  | some o => if o < sig then .error { res := 0x02, stage := 4, sec := 0xFFFF, off := o } else bad 0x02 o
  | none =>
    if leAt b sig 2 ≠ 0xFFFF then bad 0x0A sig
    else if leAt b (sig + 2) 2 ≠ 0 then bad 0x0A (sig + 2)
    else if leAt b (sig + 4) 4 ≠ 200 then bad 0x0A (sig + 4)
    else if leAt b (sig + 8) 2 ≠ 1 then bad 0x0A (sig + 8)
    else match s.keySlot? (slice b (sig + 0x10) 96) with
      | none => bad 0x08 (sig + 0x10)
      | some k =>
        let w := fun o => unbe (slice b (sig + 8 + o) 48)
        if ecdsaVerify (w 0x08) (w 0x38) (w 0x68) (w 0x98) (sha384 (b.take (sig + 8 + 0x68))) then .ok k
        else bad 0x09 (sig + 8 + 0x68)

/-- Where a failed check of the merged result lies (R67). -/
def locate (secs : List Sec) (f : CFail) : LFail :=
  match secs.find? (fun x => x.typ == f.typ && x.key == f.key && x.len != 0) with
  | some x => { res := f.res, stage := f.stage, sec := x.idx, off := x.off + 8 + f.off }
  | none => { res := f.res, stage := f.stage, sec := 0xFFFE, off := f.key + f.typ * 65536 }

/-- Stages 5 to 11 on the whole image: the set to write into the Attic. -/
def State.checkImage (s : State) (b : Bytes) (slot : Nat) : Except LFail ConfigSet :=
  let delta := nbit (leAt b 6 2) 0
  match walk b delta (b.length - 208) (b.length / 8) 0x100 0 none [] with
  | .error (i, o) => .error { res := 0x0A, stage := 5, sec := i, off := o }
  | .ok secs =>
    if leAt b 0x0C 2 ≠ secs.length + 1 then .error { res := 0x0A, stage := 5, sec := 0xFFFF, off := 0x0C }
    else
      let c := s.mergeImage b delta slot secs
      let clk := (secs.find? (fun x => x.typ == 8 && x.len != 0)).map (fun x => decodeClock (slice b (x.off + 8) x.len))
      match c.stage6 s.ident.grade clk with
      | some f => .error (locate secs f)
      | none =>
        let base : BitVec 128 := BitVec.ofNat 128 (leAt b 0x28 16)
        if base ≠ (if delta then s.attic.ident else 0) then .error { res := 0x0C, stage := 7, sec := 0xFFFF, off := 0x28 }
        else match s.stages8to11 c with
          | some f => .error (locate secs f)
          | none => .ok c

/-- Every stage from the second: the DELTA bit of the header, and the outcome. -/
def State.loadImage (s : State) (img : Bytes) (fault : Option Nat) : Bool × Except LFail ConfigSet :=
  let (h, hf) := s.imageBytes img fault 256
  match s.headerFail h hf with
  | some f => (hf.isNone && nbit (leAt h 6 2) 0, .error f)
  | none =>
    let (b, bf) := s.imageBytes img fault (leAt h 8 4)
    (nbit (leAt h 6 2) 0, match s.signature b bf with
      | .error f => .error f
      | .ok slot => s.checkImage b slot)

/-! ### Settings that no Hatch applies (Tables 3-16 and 4-1) -/

def ConfigSet.refresh (c : ConfigSet) : Nat := match c.rasChip with | some r => r.refresh | none => 0

/-- LANES of a port enabled in both sets, or REFRESH, differ (R68). -/
def layoutNonAtomic (a b : ConfigSet) : Bool :=
  (List.range 8).any (fun p => match NMap.find? a.linkpols p, NMap.find? b.linkpols p with
    | some x, some y => x.mode != 0 && y.mode != 0 && x.lanes != y.lanes
    | _, _ => false) || a.refresh != b.refresh

/-- A setting of Table 4-1 differs between the Attic and the Living set. -/
def State.nonAtomic (s : State) : Bool :=
  layoutNonAtomic s.attic s.living || s.rwtOf s.attic offPcieCfg != s.rwt offPcieCfg
    || s.rwtOf s.attic offFuseCtrl != s.rwt offFuseCtrl

end Sys2Proof.Machine
end

