-- ==== Sys2Proof/Machine/Txn.lean ====
section
/-! DEFINITION. Configuration transactions (R70–R80) and the Hatch up to the swap instant (R81–R89): scopes and tokens,
Attic writes and reads, layout loads, validation, Prepare, the votes of a cell-wide Hatch, and abort. A scope is a
room's number, or 64 for the chip. -/

namespace Sys2Proof.Machine

open Sys2Proof

/-! ### Scopes -/

def chipScope : Nat := 64

def State.txnAt (s : State) (sc : Nat) : Txn := if sc = chipScope then s.txn.chip else NMap.getD s.txn.rooms sc .reset

def State.modTxnAt (sc : Nat) (f : Txn → Txn) (s : State) : State :=
  s.modTxn (fun u => if sc = chipScope then { u with chip := f u.chip } else { u with rooms := NMap.upd u.rooms sc .reset f })

def State.modHatch (f : Hatch → Hatch) (s : State) : State := s.modTxn (fun u => { u with hatch := f u.hatch })
def State.modLoader (f : Loader → Loader) (s : State) : State := s.modTxn (fun u => { u with loader := f u.loader })

/-- Rooms whose transaction is not IDLE. -/
def State.roomTxns (s : State) : List Nat := (s.txn.rooms.filter (fun e => e.2.st != .idle)).map (·.1)

/-- RWT registers of a room scope: the Steward settings of its T-islands, and its Audit request for a tenant whose section
sets AUDIT (R71, R155, R396). -/
def State.scopeOffs (s : State) (m : Nat) : List Nat :=
  match s.roomCfg? m with
  | none => []
  | some r =>
    let aud := match NMap.find? s.living.tenants r.tenant with | some t => nbit t.flags 2 | none => false
    (if aud then [offRoomAudit m] else []) ++ r.isls.map offStewCfg

/-- The Attic fields of a scope returned to the Living set (R70). -/
def State.restoreAttic (sc : Nat) (s : State) : State :=
  if sc = chipScope then s.setAttic s.living
  else s.setAttic ((s.scopeOffs sc).foldl (fun c o => s.rwtPut c o (s.rwt o)) s.attic)

/-- The Attic fields of a scope put into the Living set, for the chip with the identity (R83). -/
def State.installAttic (sc : Nat) (s : State) : State :=
  if sc = chipScope then s.setLiving s.attic
  else s.setLiving ((s.scopeOffs sc).foldl (fun c o => s.rwtPut c o (s.rwtOf s.attic o)) s.living)

/-- The Attic equals the Living set in every field of the scope (R79 step 1). -/
def State.scopeSame (s : State) (sc : Nat) : Bool :=
  if sc = chipScope then
    { s.attic with rwt := [], slot := 0, dirty := false } == { s.living with rwt := [], slot := 0, dirty := false }
      && (s.rwtDiff s.attic s.living).isEmpty
  else (s.scopeOffs sc).all (fun o => s.rwtOf s.attic o == s.rwt o)

/-! ### Tokens (R72, R73) -/

def State.tokensHeld (s : State) : List Nat :=
  (if s.txn.chip.st != .idle then [s.txn.chip.token] else []) ++ (s.roomTxns.map (fun m => (s.txnAt m).token))

/-- The counter after its next accepted OPEN: 0 and every token held are skipped. -/
def nextToken (held : List Nat) (t : Nat) : Nat :=
  (((List.range 256).map (fun i => (t + 1 + i) % 256)).find? (fun v => v != 0 && !held.contains v)).getD 0

/-- A transaction opened. -/
def State.openScope (sc : Nat) (s : State) : State :=
  let tok := nextToken s.tokensHeld s.txn.token
  let s := s.modTxn (fun u => { u with token := tok })
  let s := if sc = chipScope then s.setAttic s.living else s
  s.modTxnAt sc (fun t => { t with st := .opened, token := tok, writes := 0, lastGtc := s.clk.gtc, force := false, maint := false,
                                   cell := false, pendRollback := false, pendCommit := false })

def State.postTxn (sc r : Nat) (s : State) : State := s.modTxnAt sc (fun t => { t with result := r, detail := 0 })

/-! ### The layout loader's result (R66–R68) -/

/-- A load posts its result (R67). -/
def State.postLoad (f : LFail) (s : State) : State :=
  (s.modLoader (fun l => { l with busy := false, result := f.res, stage := f.stage, section_ := f.sec, offset := f.off })).emit
    0xA0 1 4 noTenant 0 [f.res, f.stage, f.sec, f.off]

/-- The load under way stops because its transaction has ended (R66). -/
def State.stopLoad (s : State) : State :=
  if s.txn.loader.busy then s.postLoad { res := 0x01, stage := 1, sec := 0xFFFF, off := 0 } else s

/-- A transaction ends without a swap: its Attic fields are restored (R70, R78). -/
def State.endTxn (sc result : Nat) (s : State) : State :=
  let s := if sc = chipScope then s.stopLoad else s
  (((s.restoreAttic sc).modTxnAt sc (fun t =>
    { t with st := .idle, result := result, detail := 0, pendRollback := false, pendCommit := false })).modHatch
      (fun h => { h with queue := h.queue.filter (· != sc) }))

/-- A commit fails and its transaction stays open; the idle timer runs again (R79). -/
def State.failTxn (sc result detail : Nat) (fail : Word) (s : State) : State :=
  s.modTxnAt sc (fun t =>
    { t with st := .opened, result := result, detail := detail, lastGtc := s.clk.gtc,
             fail := (if result = 0x83 then fail else t.fail) })

/-! ### Opening and ending on request -/

/-- What a transaction command of a tenant acts on: its own room's scope. Otherwise DENIED, which its window reports for
that room (R75). -/
def State.withScope (src : Src) (s : State) (f : Nat → State → State) : State :=
  match src with
  | .pf0 => f chipScope s
  | .tenant fn m =>
    if !s.tenActive fn then s
    else if (s.roomCfg? m).isSome && s.roomTenant m == fn.val then f m (s.modTen fn (fun t => { t with txDenied := none }))
    else s.modTen fn (fun t => { t with txDenied := some m })

def State.openChip (fence : Bool) (s : State) : State :=
  let rooms := s.roomTxns
  if s.txn.chip.st != .idle then s.postTxn chipScope 0x86
  else if rooms.isEmpty then s.openScope chipScope
  else if fence && rooms.all (fun m => (s.txnAt m).st == .opened) then
    (rooms.foldl (fun s m => s.endTxn m 0x88) s).openScope chipScope
  else s.postTxn chipScope 0x86

def State.openRoom (m : Nat) (s : State) : State :=
  let may := match NMap.find? s.living.tenants (s.roomTenant m) with | some t => nbit t.flags 1 | none => false
  if !may then s.postTxn m 0x87
  else if s.txn.chip.st != .idle || (s.txnAt m).st != .idle then s.postTxn m 0x86
  else s.openScope m

def State.openTxn (src : Src) (fence : Bool) (s : State) : State :=
  s.withScope src (fun sc s => if sc = chipScope then s.openChip fence else s.openRoom sc)

/-- The token names the open transaction of the scope (R73). -/
def State.tokenOk (s : State) (sc token : Nat) : Bool := (s.txnAt sc).st != .idle && (s.txnAt sc).token == token

def State.rollback (src : Src) (token : Nat) (s : State) : State :=
  s.withScope src (fun sc s =>
    if !s.tokenOk sc token then s.postTxn sc 0x85
    else match (s.txnAt sc).st with
      | .opened => s.endTxn sc 0x80
      | .loading => s.modTxnAt sc (fun t => { t with pendRollback := true })
      | _ => s)

def State.keepalive (src : Src) (token : Nat) (s : State) : State :=
  s.withScope src (fun sc s =>
    if !s.tokenOk sc token then s.postTxn sc 0x85
    else if (s.txnAt sc).st == .opened then s.modTxnAt sc (fun t => { t with lastGtc := s.clk.gtc }) else s)

/-- CFG_TXN_IDLE_LIMIT, ns. -/
def State.idleLimit (s : State) : Nat :=
  let v := fld (s.reg 0x10010 100000) 0 24
  (if 1000 ≤ v ∧ v ≤ 10000000 then v else 100000) * 1000

def State.idleTimeout (sc : Nat) (s : State) : State :=
  if (s.txnAt sc).st == .opened then (s.reach ((s.txnAt sc).lastGtc + s.idleLimit)).endTxn sc 0x81 else s

/-! ### Attic writes and reads (R74–R76) -/

/-- A value lands in the RWT bits of a register in the Attic. A write to a clock setting makes the Attic differ from what an
image gave (R64). -/
def State.atticWrite (sc off : Nat) (mask v : Word) (s : State) : State :=
  let c := s.rwtPut s.attic off ((s.rwtOf s.attic off &&& ~~~mask) ||| (v &&& mask))
  (s.setAttic { c with dirty := c.dirty || (decide (0x1000 ≤ off) && decide (off < 0x2000)) }).modTxnAt sc (fun t =>
    { t with writes := sat1 16 t.writes, lastGtc := s.clk.gtc })

def State.rwtWrite (off : Nat) (v : Word) (s : State) : State :=
  match rwtMask off with
  | none => s
  | some mask =>
    if s.txn.chip.st == .opened then s.atticWrite chipScope off mask v
    else s.modTxn (fun u => { u with discard := sat1 32 u.discard, discardOff := off })

/-- TXW_WADDR of a function's page. -/
def State.txwAddr (s : State) (fn : Nat) : Word := s.b2 fn 0x5010

def State.txwWrite (fn : Nat) (v : Word) (s : State) : State :=
  if !s.tenActive fn then s
  else
    let w := s.txwAddr fn
    let off := fld w 0 25
    match s.roomTxns.find? (fun m => s.roomTenant m == fn && (s.txnAt m).token == fld w 32 8 && (s.txnAt m).st == .opened), rwtMask off with
    | some m, some mask =>
      if (s.scopeOffs m).contains off then s.atticWrite m off mask v
      else s.modTen fn (fun t => { t with txDiscards := sat1 16 t.txDiscards })
    | _, _ => s.modTen fn (fun t => { t with txDiscards := sat1 16 t.txDiscards })

/-- The Attic value of an RWT register (R76). -/
def State.atticValue (s : State) (off : Nat) : Word :=
  match rwtMask off with | some mask => s.rwtOf s.attic off &&& mask | none => 0

/-- What a read of CFG_ATTIC_PEEK_DATA or of TXW_WDATA returns. -/
def State.peek (s : State) (src : Src) : Word :=
  match src with
  | .pf0 => s.atticValue (fld (s.reg 0x10020 0) 0 25)
  | .tenant fn _ =>
    let w := s.txwAddr fn
    let off := fld w 0 25
    if s.tenActive fn && bitOf w 25
        && s.living.rooms.any (fun e => e.2.tenant == fn.val && (s.scopeOffs e.1).contains off) then s.atticValue off
    else 0

/-! ### Layout loads (R65–R68) -/

/-- CFG_LAYOUT_CTRL.GO (R65). While BUSY the GO is discarded; TOKEN and SRC land all the same (DESIGN CHOICE, log entry 80). -/
def State.layoutGo (token : Nat) (cellar : Bool) (s : State) : State :=
  let s := s.setReg 0x10208 (packW [(0, 8, token), (8, 1, b2n cellar)])
  let refuse := fun (r : Nat) (s : State) => s.postLoad { res := r, stage := 1, sec := 0xFFFF, off := 0 }
  if s.txn.loader.busy then s
  else if s.ras.drain ≠ 0 then refuse 0x13 s
  else if s.tokenOk chipScope token && s.txn.chip.st == .opened then
    (s.modLoader (fun l => { l with busy := true, cellar := cellar, addr := (s.reg 0x10200 0).toNat / 8 * 8 })).modTxnAt chipScope
      (fun t => { t with st := .loading })
  else
    let s := if s.txn.chip.st != .idle && s.txn.chip.token != token then s.postTxn chipScope 0x85 else s
    refuse 0x01 s

/-- The state of the chip transaction once a load has posted (R66, R79). -/
def State.afterLoad (s : State) : State :=
  if s.txn.chip.pendRollback then s.endTxn chipScope 0x80
  else s.modTxnAt chipScope (fun t =>
    { t with st := if t.st == .loading then .opened else t.st, lastGtc := s.clk.gtc, pendCommit := false })

/-- A load ends: its set is in the Attic, or its failure is posted (R66, R67). SECTION is 0 after a success (DESIGN CHOICE, log
entry 80). -/
def State.layoutLoadDone (img : Bytes) (fault : Option Nat) (s : State) : State :=
  if !s.txn.loader.busy then s
  else
    let (delta, r) := s.loadImage img fault
    let s := s.modLoader (fun l => { l with delta := delta })
    (match r with
      | .error f => s.postLoad f
      | .ok c => (s.setAttic c).postLoad { res := 0, stage := 0, sec := 0, off := 0 }).afterLoad

/-! ### Validation (R79 step 2) -/

/-- CFG_TXN_FAIL of a field that a layout section set. -/
def layoutFail (f : CFail) : Word := packW [(25, 1, 1), (32, 16, f.typ), (48, 16, f.key)]

/-- The authorisation block's checks (R442); the DETAIL of the first that fails. -/
def State.fuseFail (s : State) (ctrl : Word) (x : FuseAuth) : Option Nat :=
  let b := fit 256 x.block
  let op := fld ctrl 0 4
  let arg := fld ctrl 8 6
  let key := fun k => s.plat.keys.getD k { provisioned := false, revoked := true, hash := 0 }
  let live := fun k => (key k).provisioned && !(key k).revoked
  let w := fun o => unbe (slice b o 48)
  if !x.fetched then some 0x02
  else if slice b 0 4 != [0x48, 0x46, 0x55, 0x53] || leAt b 4 1 != op || leAt b 5 1 != arg || leAt b 6 2 != 0
      || BitVec.ofNat 64 (leAt b 8 8) != s.plat.nonce || (op != 1 && !allZero (slice b 0x10 48)) then some 0x0B
  else if (s.keySlot? (slice b 0x40 96)).isNone then some 0x08
  else if !ecdsaVerify (w 0x40) (w 0x70) (w 0xA0) (w 0xD0) (sha384 (b.take 0xA0)) then some 0x09
  else
    let ok : Bool :=
      if op = 1 then decide (arg < 4) && !(key arg).provisioned && !(key arg).revoked
      else if op = 2 then decide (arg < 4) && live arg && (List.range 4).any (fun k => k != arg && live k)
      else if op = 3 then decide (s.plat.svnFuse < arg) && s.plat.imgs.all (fun i => decide (arg ≤ i.svn))
      else false
    if ok then none else some 0x0B

/-- Fields of one yard entry that R369 refuses. -/
def State.yardBad (s : State) (cell : Nat) (e : Nat) : Bool :=
  let map := s.rwtOf s.attic offCellCfg
  let exitBad := fun (m p : Nat) => !(decide (m < 16) && bitOf map m)
    || (m == s.ownMember && (NMap.getD s.attic.linkpols (4 + p) linkPolOff).mode != 2)
  nbit e 0 && cell != s.cell.chip / 16 &&
    (outside 1 6 (nfld e 1 3) || exitBad (nfld e 4 4) (nfld e 8 2) || (nbit e 10 && exitBad (nfld e 12 4) (nfld e 16 2)))

/-- The register-level checks on one register of the Attic: the offset to report, and the DETAIL (R24, R366, R369, R377,
R442, R470). -/
def State.regFail (s : State) (auth : Option FuseAuth) (off : Nat) : Option (Nat × Nat) :=
  let v := s.rwtOf s.attic off
  let bad := fun (p : Bool) => if p then some (off, 0x0B) else none
  if off = offCellCfg then
    let cell := fld v 16 2
    bad (((cell == 1 || cell == 2 || s.attic.linkpols.any (fun e => e.2.mode == 1)) && !bitOf v s.ownMember) || cell == 3)
  else if off = offPcieCfg then bad (fld v 0 2 == 3 || fld v 2 2 == 3 || outside 30 36 (fld v 8 6))
  else if off = offFuseCtrl then
    if fld v 0 4 = 0 ∨ v = s.rwt offFuseCtrl then none
    else match auth with
      | some x => (s.fuseFail v x).map (fun d => (off, d))
      | none => none
  else if 0x1000 ≤ off ∧ off < 0x2000 then bad (!ceilOk s.ident.grade ((off - 0x1000) / 16) (fld v 0 12))
  else if off = offQmgrCfg then bad (fld v 0 16 == 0 || outside 1 10000 (fld v 16 16) || fld v 32 8 == 0)
  else if off = offReproCfg then
    bad (outside 1000 100000 (fld v 0 20) || outside 400 4000 (fld v 20 12) || outside 200 4000 (fld v 32 12) || outside 96 104 (fld v 48 8))
  else if 0x100000 ≤ off ∧ off < 0x180000 then
    bad (outside 100 60000 (fld v 0 16) || outside 1 255 (fld v 16 8) || outside 1 15 (fld v 24 4))
  else if 0x180000 ≤ off ∧ off < 0x182000 then
    let k := (off - 0x180000) / 8
    bad (s.yardBad (2 * k) (fld v 0 32) || s.yardBad (2 * k + 1) (fld v 32 32))
  else if 0x1A0000 ≤ off ∧ off < 0x1A4000 ∧ off % 0x100 = 0 then
    let m := (off - 0x1A0000) / 0x100
    if !bitOf v 24 then none
    else if outside 2 16 (fld v 16 4 + 1) then some (off, 0x0B)
    else
      let shared := match NMap.find? s.attic.rooms m with
        | some r => r.level == 2 && (engineShared s.attic.rooms (·.rces) m r || engineShared s.attic.rooms (·.eles) m r)
        | none => false
      let d := s.rwtOf s.attic (offSpanDev m (fld v 20 4))
      if shared then some (off, 0x0B)
      else if fld d 0 15 != s.cell.chip || fld d 16 6 != m then some (offSpanDev m (fld v 20 4), 0x0B)
      else none
  else none

/-- Validation of the whole Attic: DETAIL and CFG_TXN_FAIL of the first failure (R79 step 2). Without the authorisation
block, which is fetched once, R442 is not judged again. -/
def State.validate (s : State) (auth : Option FuseAuth) : Option (Nat × Word) :=
  match s.attic.stage6 s.ident.grade none with
  | some f => some (f.res, layoutFail f)
  | none =>
    match (insN offCellCfg (NMap.keys s.attic.rwt)).findSome? (s.regFail auth) with
    | some (o, d) => some (d, BitVec.ofNat 64 o)
    | none => (s.stages8to11 s.attic).map (fun f => (f.res, layoutFail f))

/-! ### Affected rooms (R81) -/

/-- The swap changes something that the room is, or uses in either set. -/
def State.roomAffected (s : State) (m : Nat) : Bool :=
  let l := s.living
  let a := s.attic
  let keys := s.rwtDiff a l
  let clk := fun (u : Nat) => keys.contains (offClkCfg u)
  NMap.find? l.rooms m != NMap.find? a.rooms m
    || keys.any (fun o => o == offRoomAudit m || (decide (offSpanCfg m ≤ o) && decide (o ≤ offSpanCfg m + 0x80)))
    || [l, a].any (fun c => match NMap.find? c.rooms m with
      | none => false
      | some r =>
        NMap.find? l.tenants r.tenant != NMap.find? a.tenants r.tenant
          || (l.windows ++ a.windows).any (fun e => e.2.tenant == r.tenant && NMap.find? l.windows e.1 != NMap.find? a.windows e.1)
          || r.isls.any (fun n => NMap.find? l.islands n != NMap.find? a.islands n || keys.contains (offStewCfg n) || clk (0x10 + n))
          || r.rceList.any (fun n => clk (0x50 + n)) || r.eleList.any (fun n => clk (0x60 + n))
          || (l.passages ++ a.passages).any (fun e => NMap.find? l.passages e.1 != NMap.find? a.passages e.1
              && (c.roomsOfEp e.2.src).contains m && (c.roomsOfEp e.2.sink).contains m)
          || (l.qmaps ++ a.qmaps).any (fun e => e.2.room == m && NMap.find? l.qmaps e.1 != NMap.find? a.qmaps e.1)
          || NMap.find? l.numerics r.numericKey != NMap.find? a.numerics r.numericKey
          || NMap.find? l.rasRooms r.rasKey != NMap.find? a.rasRooms r.rasKey)

def State.affected (s : State) (sc : Nat) : Word :=
  if sc = chipScope then wordOf 64 s.roomAffected else wordOf 64 (fun m => m == sc && s.roomAffected m)

/-! ### Prepare, and its end (R82–R85) -/

/-- A quiesce, D3hot or a Hatch holds the room's task starts (R82, R90, R445). -/
def State.startsHeld (s : State) (m : Nat) : Bool :=
  s.txn.quiesce || s.plat.power == .d3hot
    || (bitOf s.txn.hatch.rooms m && (s.txn.hatch.st == .prepare || s.txn.hatch.st == .armed || s.txn.hatch.st == .inDoubt))

/-- State that a room takes when nothing of it is reset, cleared or faulted (Table 5-2). -/
def State.freeState (s : State) (m : Nat) : RoomSt :=
  if !s.tenActive (s.roomTenant m) then .dormant else if s.startsHeld m then .held else .serving

/-- A room that nothing holds any more starts tasks again. -/
def State.resumeRoom (m : Nat) (s : State) : State :=
  if s.startsHeld m then s
  else (s.modRoom m (fun r => if r.st == .held then { r with st := .serving } else r)).spanResume m

def State.holdRoom (m : Nat) (s : State) : State :=
  s.modRoom m (fun r => if r.st == .serving then { r with st := .held } else r)

def State.hatchRooms (s : State) : List Nat := bitsOf 64 s.txn.hatch.rooms

/-- Live tasks of affected rooms. -/
def State.hatchTasks (s : State) : List (Nat × Task) := s.tasks.live.filter (fun t => bitOf s.txn.hatch.rooms t.2.room)

/-- Every affected resource is ready: no task of an affected room is left, and no reset of one runs. -/
def State.hatchClear (s : State) : Bool := s.hatchTasks.isEmpty && s.hatchRooms.all (fun m => (s.room m).st != .resetting)

def State.scopeTenant (s : State) (sc : Nat) : Nat := if sc = chipScope then noTenant else s.roomTenant sc

/-- The islands and engines that are not ready: those that tasks of affected rooms still occupy, and those of affected
rooms under a reset (R82, R84, R87). -/
def State.blockers (s : State) : Word × Word :=
  let ts := s.hatchTasks
  let resetting := s.hatchRooms.filter (fun m => (s.room m).st == .resetting)
  let under := fun (has : RoomCfg → Bool) => resetting.any (fun m => match s.roomCfg? m with | some r => has r | none => false)
  let isl := wordOf 64 (fun n => under (fun r => bitOf r.islands n) || ts.any (fun t => t.2.slots.any (fun x => x.1 == n)))
  let onEng := fun (m : Nat) => ts.any (fun t => t.2.room == m)
  let rce := wordOf 16 (fun n => under (fun r => bitOf r.rces n) || (match (s.rceRt n).run with
    | some r => s.eng.jobs.any (fun j => j.from_.ord == r.job && onEng j.from_.room)
    | none => false))
  let ele := wordOf 4 (fun n => under (fun r => bitOf r.eles n)
    || (match (s.eleRt n).layer with | some l => onEng l.room | none => false))
  (isl, rce ||| packW [(16, 4, ele.toNat)])

/-- The Hatch in progress aborts: the sets stay as they are and the rooms resume (R84). -/
def State.abortHatch (result failed : Nat) (s : State) : State :=
  let (bi, be) := s.blockers
  let sc := s.txn.hatch.cur
  let rooms := s.hatchRooms
  let s := s.modHatch (fun h => { h with st := .idle, result := result, blockIsl := bi, forcing := false, voted := false
                                         blockEng := be ||| packW [(32, 16, failed)] })
  let s := rooms.foldl (fun s m => s.resumeRoom m) s
  (s.failTxn sc result 0 0).emit 0xA0 1 2 (s.scopeTenant sc) 2 [0xA0]

/-- The swap instant is set and broadcast (R83). -/
def State.armAt (t : Nat) (s : State) : State := s.modHatch (fun h => { h with st := .armed, t := t })

/-! ### Votes of a cell-wide Hatch (R88, R382) -/

def State.hatchCell (s : State) : Word := s.reg 0x10128 0x3200000000
def State.hatchMembers (s : State) : Nat := fld s.hatchCell 0 16
def State.hatchTag (s : State) : Nat := fld s.hatchCell 16 16
def State.hatchLead (s : State) : Nat := let v := fld s.hatchCell 32 10; (if 10 ≤ v ∧ v ≤ 1000 then v else 50) * 1000

/-- The member that coordinates. -/
def State.coordinator (s : State) : Nat := ((bitsOf 16 s.hatchCell).head?).getD 0
def State.coordinates (s : State) : Bool := s.coordinator == s.ownMember

def State.memberChip (s : State) (m : Nat) : Nat := s.cell.chip / 16 * 16 + m

/-- Members of a set other than this device. -/
def State.othersIn (s : State) (members : Nat) : List Nat := (bitsOf 16 (BitVec.ofNat 64 members)).filter (· != s.ownMember)

/-- The members of the cell-wide Hatch other than this one. -/
def State.otherMembers (s : State) : List Nat := s.othersIn s.hatchMembers

/-- A message sent on each of this device's UP cell ports (R382). -/
def State.flood (m : LMsg) (s : State) : State :=
  ((List.range 4).filter (fun p => (s.linkPol p).mode == 1 && (s.port p).st == .up)).foldl (fun s p =>
    s.offer p { seq := 0, vc := 12, nblk := 1, poison := 0, ctr := 0, replays := 0, dst := (s.port p).peer, cost := 0,
                task := none, via := none, what := .msg (s.msgHdr (s.port p).peer 0) m }) s

/-- The Hatch in progress is the cell-wide Hatch of a TAG. -/
def State.cellHatch (s : State) (tag : Nat) : Bool :=
  (s.txn.hatch.st == .prepare || s.txn.hatch.st == .inDoubt) && (s.txnAt s.txn.hatch.cur).cell && s.hatchTag == tag

/-- The failed members of a Hatch that this member knows to be aborted. -/
def State.knownAbort (s : State) (tag : Nat) : Option Nat :=
  match NMap.find? s.txn.hatch.seen tag with | some (0, failed) => some failed | _ => none

/-- ABORT learnt (R88, R89): the member posts CELL_ABORT with the members that failed; one that has posted it already, having
failed itself, shows them all. -/
def State.learnAbort (tag failed : Nat) (s : State) : State :=
  let again := (s.knownAbort tag).isSome && s.hatchTag == tag && s.txn.hatch.result == 0x89
  let s := s.modHatch (fun h => { h with seen := NMap.set h.seen tag (0, failed) })
  if s.cellHatch tag then s.abortHatch 0x89 failed
  else if again then s.modHatch (fun h => { h with blockEng := setFld h.blockEng 32 16 failed })
  else s

/-- The coordinator decides to abort: it records the decision and sends ABORT with the members that failed (R88). -/
def State.decideAbort (r : HatchRec) (s : State) : State :=
  let members := if r.members = 0 then s.hatchMembers else r.members
  let s := s.modHatch (fun h => { h with rec_ := some { r with decision := some 0 } })
  ((s.othersIn members).foldl (fun s m => s.sendMsg (s.memberChip m) (.abort r.tag r.failed)) s).learnAbort r.tag r.failed

/-- The coordinator's record takes a vote, and decides once it can. -/
def State.recordVote (member : Nat) (ready : Bool) (tag : Nat) (s : State) : State :=
  let fresh : HatchRec := { tag := tag, members := if s.hatchTag = tag then s.hatchMembers else 0, ready := 0, failed := 0,
                            decision := none, since := s.clk.gtc }
  let rec? := match s.txn.hatch.rec_ with
    | none => some fresh
    | some r => if r.tag = tag then some r else if r.decision.isSome then some fresh else none
  match rec? with
  | none => s
  | some r =>
    match r.decision with
    | some 0 => if member = s.ownMember then s.learnAbort tag r.failed else s
    | some _ => s
    | none =>
      let bit := 2 ^ (member % 16)
      let r := { r with members := if s.hatchTag = tag then s.hatchMembers else r.members
                        ready := if ready then r.ready ||| bit else r.ready, failed := if ready then r.failed else r.failed ||| bit }
      if !ready then s.decideAbort r
      else if r.members ≠ 0 ∧ r.members &&& r.ready = r.members then
        let t := s.clk.gtc + s.hatchLead
        let s := s.modHatch (fun h => { h with rec_ := some { r with decision := some t }, seen := NMap.set h.seen tag (t, 0) })
        (s.flood (.swap tag t)).armAt t
      else s.modHatch (fun h => { h with rec_ := some r })

/-- This member votes. -/
def State.vote (ready : Bool) (s : State) : State :=
  let s := if ready then s.modHatch (fun h => { h with voted := true }) else s
  if s.coordinates then s.recordVote s.ownMember ready s.hatchTag
  else s.sendMsg (s.memberChip s.coordinator) (.vote s.ownMember ready s.hatchTag)

/-- This member fails and votes abort (R88): it posts CELL_ABORT at once. -/
def State.voteAbort (s : State) : State :=
  let s := s.vote false
  if s.cellHatch s.hatchTag then s.learnAbort s.hatchTag (2 ^ s.ownMember) else s

/-- Alignment lets this member vote ready (R382). -/
def State.mayVote (s : State) : Bool :=
  (s.isLeader && s.ownMember == s.lowestMember) || s.clk.align == 1 || s.clk.align == 2

/-- Prepare is complete: a member of a cell-wide Hatch votes; otherwise the swap instant is set (R83, R88). -/
def State.prepared (s : State) : State :=
  if (s.txnAt s.txn.hatch.cur).cell then
    if s.mayVote then s.vote true else s.voteAbort
  else s.armAt (s.clk.gtc + 1000)

def State.hatchReady (s : State) : State :=
  if s.txn.hatch.st == .prepare && !s.txn.hatch.forcing && !s.txn.hatch.voted && s.hatchClear then s.prepared else s

def State.hatchForceStopped (s : State) : State :=
  if s.txn.hatch.st == .prepare && s.txn.hatch.forcing && !s.txn.hatch.voted && s.hatchClear then s.prepared else s

/-! ### Commit (R79, R86) -/

/-- No task is in flight and no Hatch is in progress on a quiesced device (R90). -/
def State.quiesced (s : State) : Bool := s.txn.quiesce && s.tasks.live.isEmpty && s.txn.hatch.st == .idle

/-- Steps 1 to 4 of R79: result, DETAIL and CFG_TXN_FAIL of a commit that stays open, or none for one that passes. -/
def State.judge (s : State) (sc : Nat) (auth : Option FuseAuth) : Option (Nat × Nat × Word) :=
  let t := s.txnAt sc
  if s.ras.drain ≠ 0 then some (0x8B, 0, 0)
  else match s.validate auth with
    | some (d, f) => some (0x83, d, f)
    | none =>
      if t.cell && !bitOf s.hatchCell s.ownMember then some (0x83, 0x0B, 0x10128)
      else if t.cell && (bitsOf 16 s.hatchCell).any (fun m => !bitOf (s.rwtOf s.attic offCellCfg) m) then some (0x89, 0, 0)
      else if sc = chipScope && s.nonAtomic && !t.maint then some (0x82, 0, 0)
      else if t.maint && !s.quiesced then some (0x8A, 0, 0)
      else none

/-- A commit that judge refuses. -/
def State.refuseCommit (sc : Nat) (x : Nat × Nat × Word) (s : State) : State :=
  let cell := (s.txnAt sc).cell
  let s := s.failTxn sc x.1 x.2.1 x.2.2
  if cell && bitOf s.hatchCell s.ownMember then s.vote false else s

def State.commit (src : Src) (token : Nat) (force maint cell : Bool) (s : State) : State :=
  s.withScope src (fun sc s =>
    if !s.tokenOk sc token then s.postTxn sc 0x85
    else
      let go := fun (wait : Bool) =>
        let n := s.txn.commits
        let s := (s.modTxn (fun u => { u with commits := n + 1 })).modTxnAt sc (fun t =>
          { t with st := .validating, force := force, maint := maint && sc == chipScope, cell := cell && sc == chipScope
                   pendCommit := wait, lastGtc := s.clk.gtc, ord := n })
        if cell && sc == chipScope && s.coordinates
            && (match s.txn.hatch.rec_ with | none => true | some r => r.decision.isSome && r.tag != s.hatchTag) then
          s.modHatch (fun h => { h with rec_ := some { tag := s.hatchTag, members := s.hatchMembers, ready := 0, failed := 0,
                                                       decision := none, since := s.clk.gtc } })
        else s
      match (s.txnAt sc).st with
      | .opened => go false
      | .loading => if (s.txnAt sc).pendRollback then s else go true
      | _ => s)

/-- The Hatch queue in the R37 order of the COMMIT writes. -/
def State.enqueue (sc : Nat) (s : State) : State :=
  let (a, b) := s.txn.hatch.queue.partition (fun x => decide ((s.txnAt x).ord ≤ (s.txnAt sc).ord))
  (s.modTxnAt sc (fun t => { t with st := .hatching })).modHatch (fun h => { h with queue := a ++ sc :: b })

def State.validationDone (sc : Nat) (auth : FuseAuth) (s : State) : State :=
  if (s.txnAt sc).st != .validating || (sc == chipScope && s.txn.loader.busy) then s
  else if s.ras.drain = 0 && s.scopeSame sc then
    ((s.setLiving (if sc = chipScope then { s.living with dirty := s.attic.dirty } else s.living)).endTxn sc 0x00)
  else match s.judge sc (some auth) with
    | some x => s.refuseCommit sc x
    | none => (s.modTxn (fun u => { u with fuseHash := unbe (slice (fit 256 auth.block) 0x10 48) })).enqueue sc

/-- The commit at the head of the Hatch queue validates again and enters Prepare (R82, R86). A member that has already
learnt the ABORT of its cell-wide Hatch posts it here (R88). -/
def State.hatchPrepare (s : State) : State :=
  if s.txn.hatch.st != .idle then s
  else match s.txn.hatch.queue with
    | [] => s
    | sc :: rest =>
      let s := s.modHatch (fun h => { h with queue := rest })
      match s.judge sc none with
      | some x => s.refuseCommit sc x
      | none =>
        let rooms := s.affected sc
        let s := s.modHatch (fun h => { h with st := .prepare, cur := sc, rooms := rooms, since := s.clk.gtc, forcing := false,
                                               preempted := 0, late := false, clearing := 0, voted := false })
        let s := s.hatchRooms.foldl (fun s m => s.holdRoom m) s
        match (if (s.txnAt sc).cell then s.knownAbort s.hatchTag else none) with
        | some failed => s.abortHatch 0x89 failed
        | none => if rooms = 0 then s.prepared else s

/-- CFG_HATCH_DEADLINE, ns. -/
def State.hatchLimit (s : State) : Nat :=
  let v := fld (s.reg 0x10100 2000) 0 20
  (if 10 ≤ v ∧ v ≤ 1000000 then v else 2000) * 1000

/-- A running task told to stop at its next Grid row boundary and to go back to the head of its queue (R85). A part of a
span's task has no queue here: it ends as by a reset. A task that ends already, or that a kill or a reset is stopping, goes
on to end as it would (R103). -/
def State.preempt (tid : Nat) (t : Task) (s : State) : State :=
  if !s.runs t then s
  else
    let s := if t.span.isSome then s.stopTask tid 0x31 0
      else (s.modTask tid (fun t => { t with requeue := true })).stopTask tid 0x30 0
    (s.tellStops tid).modHatch (fun h => { h with preempted := sat1 16 h.preempted })

/-- The Prepare deadline of the Hatch in progress: at the coordinator of a cell-wide Hatch it runs from the first commit. -/
def State.prepareEnd (s : State) : Nat :=
  let own := s.txn.hatch.since + s.hatchLimit
  if (s.txnAt s.txn.hatch.cur).cell && s.coordinates then
    match s.txn.hatch.rec_ with
    | some r => if r.tag = s.hatchTag then r.since + s.hatchLimit else own
    | none => own
  else own

/-- The record of a cell-wide Hatch that has no decision yet. -/
def State.openRecord (s : State) : Option HatchRec :=
  match s.txn.hatch.rec_ with | some r => if r.decision.isNone then some r else none | none => none

/-- The deadline passes at the coordinator before every member has voted: those that have not voted ready have failed
(R88). -/
def State.votesLate (s : State) : State :=
  let r := s.openRecord.getD { tag := s.hatchTag, members := s.hatchMembers, ready := 0, failed := 0, decision := none,
                               since := s.txn.hatch.since }
  let members := if r.members = 0 then s.hatchMembers else r.members
  s.decideAbort { r with failed := r.failed ||| members &&& (65535 - r.ready % 65536) }

/-- The deadline passes during Prepare (R84, R85, R88). -/
def State.prepareLate (s : State) : State :=
  let h := s.txn.hatch
  let t := s.txnAt h.cur
  if t.cell && s.coordinates then s.votesLate
  else if h.voted || h.forcing then s
  else if t.force then s.hatchTasks.foldl (fun s x => s.preempt x.1 x.2) (s.modHatch (fun h => { h with forcing := true }))
  else if t.cell then s.voteAbort
  else s.abortHatch 0x84 0

/-- Tasks that a quiesce with QFORCE has not yet told to stop. -/
def State.quiesceTasks (s : State) : List (Nat × Task) :=
  if s.txn.quiesce && s.txn.qforce then s.tasks.live.filter (fun t => s.runs t.2) else []

/-- The deadline of a quiesce with QFORCE passes: the tasks still running are told to stop, and count for no Hatch (R90). -/
def State.quiesceLate (s : State) : State :=
  let keep := s.txn.hatch.preempted
  (s.quiesceTasks.foldl (fun s x => s.preempt x.1 x.2) s).modHatch (fun h => { h with preempted := keep })

/-- What CFG_HATCH_DEADLINE runs for. -/
inductive Deadline where
  | prepare | votes | quiesce
  deriving DecidableEq, Repr

/-- The deadlines that run, each with its instant: of Prepare, of vote collection at a coordinator that is not itself in the
Prepare of that Hatch, and of a quiesce with QFORCE. -/
def State.deadlines (s : State) : List (Nat × Deadline) :=
  (if s.txn.hatch.st == .prepare then [(s.prepareEnd, .prepare)] else [])
    ++ (match s.openRecord with
      | some r => if s.txn.hatch.st == .prepare && s.cellHatch r.tag then [] else [(r.since + s.hatchLimit, .votes)]
      | none => [])
    ++ (if s.quiesceTasks.isEmpty then [] else [(s.txn.quiesceAt + s.hatchLimit, .quiesce)])

/-- HATCH_DEADLINE: the earliest deadline that runs passes. -/
def State.hatchDeadline (s : State) : State :=
  match firstBy (fun a b => decide (a.1 < b.1)) s.deadlines with
  | none => s
  | some (g, .prepare) => (s.reach g).prepareLate
  | some (g, .votes) => (s.reach g).votesLate
  | some (g, .quiesce) => (s.reach g).quiesceLate

/-! ### Commands -/

def execRwtWrite (off : Nat) (v : Word) (s : State) : Answer := .next (s.rwtWrite off v)
def execAtticPeek (src : Src) (s : State) : Answer := .next (s.modOut (fun o => { o with rd := s.peek src }))
def execOpenTxn (src : Src) (fence : Bool) (s : State) : Answer := .next (s.openTxn src fence)
def execCommit (src : Src) (token : Nat) (force maint cell : Bool) (s : State) : Answer := .next (s.commit src token force maint cell)
def execRollback (src : Src) (token : Nat) (s : State) : Answer := .next (s.rollback src token)
def execKeepalive (src : Src) (token : Nat) (s : State) : Answer := .next (s.keepalive src token)
def execTxwWdataWrite (fn : Fn) (v : Word) (s : State) : Answer := .next (s.txwWrite fn v)
def execIdleTimeout (scope : Nat) (s : State) : Answer := .next (s.idleTimeout scope)
def execValidationDone (scope : Nat) (auth : FuseAuth) (s : State) : Answer := .next (s.validationDone scope auth)
def execLayoutGo (token : Nat) (cellar : Bool) (s : State) : Answer := .next (s.layoutGo token cellar)
def execLayoutLoadDone (img : Bytes) (fault : Option Nat) (s : State) : Answer := .next (s.layoutLoadDone img fault)
def execHatchPrepare (s : State) : Answer := .next s.hatchPrepare
def execHatchReady (s : State) : Answer := .next s.hatchReady
def execHatchDeadline (s : State) : Answer := .next s.hatchDeadline
def execHatchForceStopped (s : State) : Answer := .next s.hatchForceStopped

end Sys2Proof.Machine
end

