-- ==== Sys2Proof/Machine/Resets.lean ====
section
/-! DEFINITION. Tenants, rooms and resets (R92–R108): task kill, island, room and tenant resets with what they end, clear
and keep (Table 5-6), function level reset, tenants that become active or inactive, the room fault of a stalled
dispatcher, and the TEN registers. -/

namespace Sys2Proof.Machine

open Sys2Proof

/-! ### What a reset ends and clears -/

/-- A task ended by a kill or a reset: it stops, and a span's members are told (R103, R145). One that FORCE is stopping does
not go back to its queue: it ends with ROOM_RESET. -/
def State.halt (tid : Nat) (s : State) : State :=
  ((s.modTask tid (fun t => if t.requeue then { t with requeue := false, status := some (0x31, 0) } else t)).stopTask tid 0x31 0).tellStops
    tid

def State.haltAll (ts : List (Nat × Task)) (s : State) : State := ts.foldl (fun s t => s.halt t.1) s

def State.roomTasks (s : State) (m : Nat) : List (Nat × Task) := s.tasks.live.filter (fun t => t.2.room == m)

/-- Waiting descriptors of a queue that end with ROOM_RESET, those that `p` names. -/
def State.endWaiting (q : Nat) (p : QEntry → Bool) (s : State) : State :=
  let ws := (s.queue q).waiting
  let s := s.modQueue q (fun r => { r with waiting := ws.filter (fun e => !p e) })
  ((ws.filter p).foldl (fun s e => s.postRec ((s.queueRing q).getD 0) (s.descRec q e.raw 0x31 0 0)) s).ringAsk q

def State.flushRoom (m : Nat) (s : State) : State := (s.roomQueues m).foldl (fun s q => s.endWaiting q (fun _ => true)) s

/-- Bytes of a store below a limit. -/
def Store.below (st : Store) (lim : Nat) : Store :=
  { mem := st.mem.filter (fun c => decide (c.1 < lim)), poison := st.poison.filter (fun u => decide (u < lim)) }

/-- An island's Steward state, crates, predictor and return stack, and its Shelf from `keep` up, cleared; its registers take
their reset values, ISL_n_FAULT_FRAME apart (Tables 5-6 and 5-7). ISL_n_STEW_CFG is part of the Living configuration, which
Table 5-6 preserves (log entry 35). -/
def State.wipeIsl (keep : Nat) (s : State) (n : Nat) : State :=
  s.modIsl n (fun i => { Isl.reset with shelf := i.shelf.below keep, frame := i.frame, frames := i.frames })

/-- An island cleared with its pinned region kept. -/
def State.clearIsl (s : State) (n : Nat) : State := s.wipeIsl (s.pin n) n

/-- Stream Passages of a set whose endpoints both belong to a room (R51): a passage of another room that shares an ELE is not
among them. -/
def ConfigSet.roomPassages (c : ConfigSet) (m : Nat) : List Nat :=
  (c.passages.filter (fun e => (c.roomsOfEp e.2.src).contains m && (c.roomsOfEp e.2.sink).contains m)).map (·.1)

/-- The lanes of a room's Stream Passages freed (R41, Table 5-6). -/
def State.freeLanes (m : Nat) (s : State) : State :=
  (s.living.roomPassages m).foldl (fun s k => s.freePassage k) (s.modRoom m (fun r => { r with stalled := [] }))

/-- A room's open transaction is rolled back; the Hatch of its own commit aborts (R78, R87). -/
def State.endRoomTxn (m : Nat) (s : State) : State :=
  if (s.txnAt m).st == .idle then s
  else
    let s := if s.txn.hatch.cur == m && (s.txn.hatch.st == .prepare || s.txn.hatch.st == .inDoubt) then s.abortHatch 0x31 0 else s
    s.endTxn m 0x31

/-! ### Task kill (R101, R103, R108) -/

/-- A kill names a descriptor: all of its queue's, or those with the user tag. -/
def killTakes (tag : Option Word) (raw : Bytes) : Bool := match tag with | some t => unle (dTag raw) == t.toNat | none => true

/-- Tasks of a queue that a kill names. -/
def State.killNamed (s : State) (q : Nat) (tag : Option Word) : List (Nat × Task) :=
  s.tasks.live.filter (fun t => t.2.queue == q && t.2.span.isNone && killTakes tag t.2.ent.raw)

/-- Those of them that the kill ends: neither ending, as when they have begun to write back their state block, nor stopped by
an earlier kill or reset; one that FORCE is stopping is ended too. -/
def State.killable (s : State) (q : Nat) (tag : Option Word) : List (Nat × Task) :=
  (s.killNamed q tag).filter (fun t => s.runs t.2 || t.2.requeue)

/-- A kill: how many tasks and descriptors it ends, and the state with their end begun. -/
def State.kill (q : Nat) (tag : Option Word) (s : State) : Nat × State :=
  let ts := s.killable q tag
  let n := ts.length + ((s.queue q).waiting.filter (fun e => killTakes tag e.raw)).length
  (sat 16 n, (s.endWaiting q (fun e => killTakes tag e.raw)).haltAll ts)

/-- TRW_KILL of an active tenant's page: a queue outside the tenant's range ends nothing and counts under R96. -/
def State.tenantKill (fn queue : Nat) (matchTag : Bool) (s : State) : State :=
  let s := s.setB2 fn 0x6018 (packW [(0, 17, queue), (20, 1, b2n matchTag)])
  if s.ownsQueue fn queue then
    let (n, s) := s.kill queue (if matchTag then some (s.b2 fn 0x6010) else none)
    s.modTen fn (fun t => { t with killed := n })
  else (s.queueViol fn queue).modTen fn (fun t => { t with killed := 0 })

/-- TEN_KILL, or TRW_KILL of a tenant's function. -/
def State.taskKill (fn queue : Nat) (matchTag : Bool) (s : State) : State :=
  if fn = 0 then
    let s := s.setReg 0x20028 (packW [(0, 17, queue), (20, 1, b2n matchTag)])
    let tag := if matchTag then some (s.reg 0x20020 0) else none
    let tids := (s.killNamed queue tag).map (·.1)
    let (n, s) := s.kill queue tag
    s.modTenU (fun t => { t with killed := n, killBusy := true, killTids := tids })
  else if !s.tenActive fn then s
  else s.tenantKill fn queue matchTag

/-- A kill through TEN_KILL is complete: no task that it named is left. -/
def State.killDone (fn : Nat) (s : State) : State :=
  if fn = 0 && s.ten.killTids.all (fun t => (s.task? t).isNone) then
    s.modTenU (fun t => { t with killBusy := false, killTids := [] })
  else s

/-! ### Island reset -/

def State.islTasks (s : State) (n : Nat) : List (Nat × Task) := s.tasks.live.filter (fun t => t.2.slots.any (fun x => x.1 == n))

/-- TEN_ISL_RESET. -/
def State.islandReset (n : Nat) (s : State) : State :=
  ((s.setReg 0x20030 (packW [(0, 6, n)])).haltAll (s.islTasks n)).modTenU (fun t => { t with islBusy := insN n t.islBusy })

/-- The island lies in a room under a room or tenant reset, which its own reset is merged into (R104). -/
def State.islMerged (s : State) (n : Nat) : Bool :=
  match s.roomOf n with
  | some m => (s.room m).st == .resetting || (s.tenant (s.roomTenant m)).st == .resetting
  | none => false

def State.islandDone (n : Nat) (s : State) : State :=
  if s.ten.islBusy.contains n && (s.islTasks n).isEmpty && !s.islMerged n then
    (s.clearIsl n).modTenU (fun t => { t with islBusy := t.islBusy.filter (· != n) })
  else s

/-! ### Room reset -/

def State.roomResetGo (flush : Bool) (m : Nat) (s : State) : State :=
  let begin := fun (s : State) =>
    let s := ((s.modRoom m (fun r => { r with st := .resetting })).haltAll (s.roomTasks m)).endRoomTxn m
    let s := (s.living.roomPassages m).foldl (fun s k => s.freePassage k) s
    if flush then s.flushRoom m else s
  match (s.room m).st with
  | .serving | .held | .faulted => begin s
  | .resetting => let s := s.endRoomTxn m; if flush then s.flushRoom m else s
  | .clearing => (s.endRoomTxn m).modRoom m (fun r => { r with merged := true, flush := r.flush || flush })
  | .absent | .dormant => s

/-- A room reset on request: it waits for the swap of an armed Hatch that affects the room, and a tenant reset under way
takes it in, the room's open transaction apart (R78, R87, R104). -/
def State.roomReset (m : Nat) (flush : Bool) (s : State) : State :=
  if s.txn.hatch.st == .armed && bitOf s.txn.hatch.rooms m then
    s.modHatch (fun h => { h with heldRooms := h.heldRooms ++ [(m, flush)] })
  else if (s.tenant (s.roomTenant m)).st == .resetting then s.endRoomTxn m
  else s.roomResetGo flush m

/-- TRW_ROOM_RESET of an active tenant's page: ROOM lands, and a room that the tenant owns is reset. -/
def State.ownRoomReset (fn m : Nat) (flush : Bool) (s : State) : State :=
  let s := s.setB2 fn 0x6020 (packW [(0, 6, m)])
  if (s.roomCfg? m).isSome && s.roomTenant m == fn then s.roomReset m flush
  else s.addrViol 0x90 fn 0x6020

/-- TEN_ROOM_n_RESET, or TRW_ROOM_RESET of a tenant's function. -/
def State.roomResetBy (fn m : Nat) (flush : Bool) (s : State) : State :=
  if fn = 0 then s.roomReset m flush
  else if !s.tenActive fn then s
  else s.ownRoomReset fn m flush

/-- What every reset of a room clears, and its count (R102, R106). -/
def State.roomWiped (m : Nat) (s : State) : State :=
  let isls := s.roomIsls m
  let s := (isls.foldl State.clearIsl s).freeLanes m
  let s := s.modTenU (fun t => { t with islBusy := t.islBusy.filter (fun n => !isls.contains n) })
  (s.modRoom m (fun r => { r with resets := sat1 16 r.resets })).returnTimed m

/-- What completes with a reset of a room: its islands and lanes cleared, its count, its state; start messages that waited
are served. -/
def State.roomCleared (m : Nat) (s : State) : State :=
  let s := s.roomWiped m
  let st := s.freeState m
  (s.modRoom m (fun r => { r with st := st })).spanResume m

def State.roomDone (m : Nat) (s : State) : State :=
  if (s.room m).st == .resetting && (s.roomTasks m).isEmpty && (s.tenant (s.roomTenant m)).st != .resetting then
    let t := s.roomTenant m
    ((s.roomCleared m).setFault t 5).emit 0 2 5 t 0 [1, m]
  else s

/-! ### Tenant reset -/

def ConfigSet.roomsOf (c : ConfigSet) (t : Nat) : List Nat := (c.rooms.filter (fun e => e.2.tenant == t)).map (·.1)

/-- Windows of a tenant that a scrub zeroes: private and Pantry (R105). -/
def ConfigSet.scrubs (c : ConfigSet) (t : Nat) : List (Nat × Nat) :=
  (c.windows.filter (fun e => e.2.tenant == t && decide (e.2.kind < 2))).map (fun e => (e.2.base, e.2.size))

/-- Queue contexts and rings of a tenant's ranges emptied, with everything that waits in them. -/
def State.emptyQueues (t : Nat) (s : State) : State :=
  match s.tenantCfg? t with
  | none => s
  | some c => s.modQm (fun m =>
    { m with queues := m.queues.filter (fun e => !c.hasQueue e.1), rings := m.rings.filter (fun e => !c.hasRing e.1)
             hot := m.hot.filter (fun q => !c.hasQueue q) })

/-- A tenant reset begins (Table 5-6): its tasks end with no record, its waiting descriptors go, its rooms reset, its room
transactions roll back. A room under clearing stays so, with the reset merged into it (R104). -/
def State.tenantResetGo (scrub : Bool) (t : Nat) (s : State) : State :=
  let rooms := s.living.roomsOf t
  let ts := s.tasks.live.filter (fun x => x.2.tenant == t)
  let s := ts.foldl (fun s x => (s.modTask x.1 (fun k => { k with noRecord := true })).halt x.1) s
  let s := s.emptyQueues t
  let s := rooms.foldl (fun s m => (s.endRoomTxn m).modRoom m (fun r =>
    if r.st == .absent || r.st == .dormant || r.st == .clearing then r else { r with st := .resetting })) s
  s.modTen t (fun r =>
    let on := scrub || r.scrubOn
    { r with st := .resetting, scrubOn := on, scrub := if scrub then insScrub s.living t r.scrub else r.scrub })
where
  insScrub (c : ConfigSet) (t : Nat) (old : List (Nat × Nat)) : List (Nat × Nat) :=
    old ++ (c.scrubs t).filter (fun x => !old.contains x)

/-- A tenant reset on request: after T has been broadcast it waits for the swap, and runs against the new set (R107). -/
def State.tenantReset (t : Nat) (scrub : Bool) (s : State) : State :=
  if s.txn.hatch.st == .armed then
    s.modHatch (fun h => { h with heldTenants := h.heldTenants ++ [(t, scrub)] })
  else s.tenantResetGo scrub t

def State.tenantResetBy (fn t : Nat) (scrub : Bool) (s : State) : State :=
  if fn = 0 then (if s.tenActive t || (s.tenant t).st != .inactive then s.tenantReset t scrub else s)
  else if s.tenActive fn && fn == t then s.tenantReset t scrub
  else s

/-- State of a tenant when nothing of it is under way. -/
def State.idleTen (s : State) (t : Nat) : TenSt := if s.tenActive t then .active else .inactive

def State.scrubMiB (l : List (Nat × Nat)) : Nat := cdiv (l.foldl (fun n x => n + x.2) 0) 1048576

/-- A tenant reset completes (R102, R105, R106). -/
def State.tenantDone (t : Nat) (s : State) : State :=
  if (s.tenant t).st == .resetting && s.tasks.live.all (fun x => x.2.tenant != t) then
    let r := s.tenant t
    let wins := s.pantryOf t
    let s := (s.living.roomsOf t).foldl (fun s m =>
      match (s.room m).st with
      | .resetting => s.roomCleared m
      | .clearing => s.roomWiped m
      | _ => s) s
    let s := wins.foldl (fun s w => s.abortLoad w) s
    let s := if r.scrubOn then wins.foldl (fun s w => (NMap.keys (s.pwin w).entries).foldl (fun s i => s.evict w i 3) s) s else s
    let s := (s.emptyQueues t).modQm (fun m => { m with fns := NMap.del m.fns t })
    let own := (s.living.windows.filter (fun e => e.2.tenant == t)).map (·.1)
    let s := (s.setBar2 (NMap.del s.bar2 t)).modLink (fun l => { l with granted := l.granted.filter (fun g => !own.contains g.win) })
    let st := if r.scrub.isEmpty then s.idleTen t else .scrubbing
    let s := s.modTen t (fun _ => { TenRt.reset with st := st, resets := sat1 16 r.resets, scrub := r.scrub })
    (s.setFault t 5).emit 0 2 5 t 0 [2, t]
  else s

/-- The windows a scrub has zeroed hold a zeroed directory page: its entries are empty. -/
def State.emptyDirs (zeroed : List (Nat × Nat)) (s : State) : State :=
  (NMap.keys s.pantry).foldl (fun s w =>
    if zeroed.any (fun x => match s.pantryWin w with | some c => decide (x.1 ≤ c.base) && decide (c.base < x.1 + x.2) | none => false)
    then s.modPwin w (fun p => { p with entries := [] }) else s) s

def State.scrubDone (t : Nat) (s : State) : State :=
  if (s.tenant t).st == .scrubbing then
    let s := (s.tenant t).scrub.foldl (fun s x => s.modStore (fun st => st.wipe lineB x.1 x.2)) s
    let s := s.emptyDirs (s.tenant t).scrub
    let st := s.idleTen t
    (s.modTen t (fun r => { r with st := st, scrub := [], scrubOn := false })).setFault t 6
  else s

/-! ### Tenants that become active or inactive (R92, Table 5-2) -/

/-- A tenant becomes active. -/
def State.tenantOn (t : Nat) (s : State) : State :=
  let s := s.modTen t (fun r => if r.st == .inactive then { r with st := .active } else r)
  (s.living.roomsOf t).foldl (fun s m => if (s.room m).st == .dormant then
    let st := s.freeState m
    (s.modRoom m (fun r => { r with st := st })).spanResume m else s) s

/-- Changes of VF Enable or NumVFs: tenants that were active and are not are reset with SCRUB; others become active. -/
def State.syncTenants (was : Nat → Bool) (s : State) : State :=
  (List.range 64).foldl (fun s t =>
    if was t && !s.tenActive t then s.tenantReset t true
    else if !was t && s.tenActive t then s.tenantOn t
    else s) s

def State.setVfs (enable : Bool) (num : Nat) (s : State) : State :=
  let was := s.tenActive
  (s.modTenU (fun u => { u with vfEnable := enable, numVfs := if s.plat.recovery then u.numVfs else min num 63 })).syncTenants was

/-- A function level reset (R105). -/
def State.flr (fn : Nat) (s : State) : State :=
  if fn = 0 then
    let s := s.setVfs false s.ten.numVfs
    let s := if s.tenActive 0 then s.tenantReset 0 true else s
    if s.txn.chip.st == .idle || (s.txn.chip.st == .hatching && s.txn.hatch.cur == chipScope && s.txn.hatch.st == .armed) then s
    else
      let s := if s.txn.hatch.cur == chipScope && (s.txn.hatch.st == .prepare || s.txn.hatch.st == .inDoubt) then s.abortHatch 0x31 0 else s
      s.endTxn chipScope 0x31
  else if s.tenActive fn || (s.tenant fn).st != .inactive then s.tenantReset fn true
  else s

/-- The dispatcher of a room has made no dispatch for 1 ms while a descriptor of it could start (R98). -/
def State.dispatchStall (m : Nat) (s : State) : State :=
  if (s.room m).st == .serving && (match s.nextHead m with
    | some (_, e) => (s.resident? (s.roomTenant m) m (dGraph e.raw)).isSome
    | none => false) then s.roomFault m 2 else s

/-! ### Registers (Tables 5-8 and 5-9) -/

def RoomSt.num : RoomSt → Nat
  | .absent => 0 | .serving => 1 | .held => 2 | .faulted => 3 | .resetting => 4 | .clearing => 5 | .dormant => 6

def TenSt.num : TenSt → Nat
  | .inactive => 0 | .active => 1 | .resetting => 2 | .scrubbing => 3

/-- TEN registers by offset from TEN. -/
def State.readTen (s : State) (off : Nat) : Word :=
  if off = 0 then wordOf 64 s.tenActive
  else if off = 0x20 then s.reg 0x20020 0
  else if off = 0x28 then (s.reg 0x20028 0 &&& maskW [(0, 17), (20, 1)]) ||| packW [(32, 16, s.ten.killed), (48, 1, b2n s.ten.killBusy)]
  else if off = 0x30 then
    let n := fld (s.reg 0x20030 0) 0 6
    packW [(0, 6, n), (32, 1, b2n (s.ten.islBusy.contains n))]
  else if 0x1000 ≤ off ∧ off < 0x1800 then
    let t := s.tenant ((off - 0x1000) / 0x20)
    let o := off % 0x20
    if o = 0 then packW [(0, 3, t.st.num), (16, 16, t.resets), (32, 32, if t.st = .scrubbing then State.scrubMiB t.scrub else 0)]
    else if o = 8 then t.fault
    else if o = 0x10 then packW [(0, 16, t.violQ), (16, 16, t.violA), (32, 17, t.lastQ)]
    else 0
  else if 0x2000 ≤ off ∧ off < 0x2400 then
    let m := (off - 0x2000) / 0x10
    let r := s.room m
    if off % 0x10 = 0 then
      match s.roomCfg? m with
      | some c => packW [(0, 3, r.st.num), (8, 6, c.tenant), (16, 2, c.level), (24, 3, r.cause), (32, 16, r.resets)]
      | none => packW [(0, 3, r.st.num), (24, 3, r.cause), (32, 16, r.resets)]
    else 0
  else 0

/-- The tenant reset window by offset from its base. -/
def State.readTrw (s : State) (fn off : Nat) : Word :=
  if off = 0 then
    let m := fld (s.b2 fn 0x6020) 0 6
    let own := s.tenActive fn && (s.roomCfg? m).isSome && s.roomTenant m == fn
    packW [(0, 3, (s.tenant fn).st.num), (8, 3, if own then (s.room m).st.num else 0), (32, 16, (s.tenant fn).killed)]
  else if !s.tenActive fn then 0
  else if off = 8 then (s.tenant fn).fault
  else if off = 0x10 then s.b2 fn 0x6010
  else if off = 0x18 then s.b2 fn 0x6018
  else if off = 0x20 then s.b2 fn 0x6020
  else 0

/-! ### Commands -/

def execTaskKill (fn : Fn) (queue : Nat) (matchTag : Bool) (s : State) : Answer := .next (s.taskKill fn queue matchTag)
def execIslandReset (isl : IslN) (s : State) : Answer := .next (s.islandReset isl)
def execRoomReset (by_ : Fn) (room : Room) (flush : Bool) (s : State) : Answer := .next (s.roomResetBy by_ room flush)
def execTenantReset (by_ : Fn) (tenant : Fn) (scrub : Bool) (s : State) : Answer := .next (s.tenantResetBy by_ tenant scrub)
def execFlr (fn : Fn) (s : State) : Answer := .next (s.flr fn)
def execVfEnableChange (enable : Bool) (num : Nat) (s : State) : Answer := .next (s.setVfs enable num)
def execResetDone (scope : ResetScope) (s : State) : Answer :=
  .next (match scope with
    | .kill fn => s.killDone fn
    | .island n => s.islandDone n
    | .room m => s.roomDone m
    | .tenant t => s.tenantDone t)
def execScrubDone (tenant : Fn) (s : State) : Answer := .next (s.scrubDone tenant)
def execDispatchStall (room : Room) (s : State) : Answer := .next (s.dispatchStall room)

end Sys2Proof.Machine
end

