-- ==== Sys2Proof/Machine/Hatch.lean ====
section
/-! DEFINITION. The swap of a Hatch (R69, R83, R85): what it ends and clears, the set it installs, what each change of a
setting does, and the clearing that follows; the outcomes of a cell-wide Hatch at a member (R88, R89, R382); and the
maintenance path (R90, R91). -/

namespace Sys2Proof.Machine

open Sys2Proof

/-! ### What changes hands (R69) -/

/-- Tenant of a T-island in a set. -/
def ConfigSet.islOwner (c : ConfigSet) (n : Nat) : Option Nat := (c.rooms.find? (fun e => e.2.islands.getLsbD n)).map (·.2.tenant)

/-- A T-island leaves its tenant. -/
def islMoves (old new : ConfigSet) (n : Nat) : Bool := (old.islOwner n).isSome && old.islOwner n != new.islOwner n

def ConfigSet.engOwners (c : ConfigSet) (fieldOf : RoomCfg → Word) (n : Nat) : List Nat :=
  (c.rooms.filter (fun e => bitOf (fieldOf e.2) n)).map (·.2.tenant)

/-- A shared engine goes to other tenants: none that it served keeps it. -/
def engMoves (old new : ConfigSet) (fieldOf : RoomCfg → Word) (n : Nat) : Bool :=
  let a := old.engOwners fieldOf n
  !a.isEmpty && !(new.engOwners fieldOf n).any a.contains

/-- A room of the new set needs clearing: it uses a T-island, RCE or ELE whose tenant changes (R69 step 3). -/
def roomClears (old new : ConfigSet) (r : RoomCfg) : Bool :=
  r.isls.any (islMoves old new) || r.rceList.any (engMoves old new (·.rces)) || r.eleList.any (engMoves old new (·.eles))

/-- A room of the old set has a T-island that leaves its tenant. -/
def roomLosesIsl (old new : ConfigSet) (m : Nat) : Bool :=
  match NMap.find? old.rooms m with | some r => r.isls.any (islMoves old new) | none => false

/-- A Pantry window is removed: no longer a Pantry window, or another tenant's, or elsewhere. -/
def State.winGone (s : State) (new : ConfigSet) (w : Nat) : Bool :=
  match s.pantryWin w, (s.setLiving new).pantryWin w with
  | some a, some b => a.base != b.base || a.tenant != b.tenant
  | some _, none => true
  | none, _ => false

/-- The loads that stop and the graphs that leave one Pantry window (R69 steps 3 and 4, R330, R331). -/
def State.swapWindow (new : ConfigSet) (s : State) (w : Nat) : State :=
  let gone := s.winGone new w
  let size := match (s.setLiving new).pantryWin w with | some b => b.size | none => 0
  let roomHit := fun (m : Nat) => (NMap.find? new.rooms m).isNone || roomLosesIsl s.living new m
  let stops := gone || (match (s.pwin w).reqRoom with | some m => roomHit m | none => false)
    || (match (s.pwin w).req with
      | some r => (match r.newEntry with | some e => decide (size < e.imageOff + e.length) | none => false)
      | none => false)
  let s := if stops then s.abortLoad w else s
  let s := (s.pwin w).entries.foldl (fun s e =>
    if gone || decide (size < e.2.imageOff + e.2.length) then s.evict w e.1 1
    else if roomLosesIsl s.living new e.2.room then s.evict w e.1 2
    else s) s
  if gone then s.setPantry (NMap.del s.pantry w) else s

/-- Tenants that are active now and not in the new set. -/
def State.leaving (s : State) (new : ConfigSet) : List Nat :=
  (List.range 64).filter (fun t => s.tenActive t && !(s.setLiving new).tenActive t)

/-- Step 1 of R69: descriptors that wait in queues which the new set unmaps or gives to another tenant. -/
def State.swapQueues (new : ConfigSet) (s : State) : State :=
  let n := s.setLiving new
  let out := s.leaving new
  let s := s.qm.queues.foldl (fun s e =>
    let q := e.1
    match s.queueOwner q with
    | some t =>
      if !out.contains t && ((n.queueRoom q).isNone || n.queueOwner q != some t) then s.endWaiting q (fun _ => true) else s
    | none => s) s
  out.foldl (fun s t => s.tenantResetGo true t) s

/-- Queue and ring contexts whose tenant changes, and leases on windows that are no longer exported by their tenant. -/
def State.dropContexts (new : ConfigSet) (s : State) : State :=
  let n := s.setLiving new
  let keepQ := fun (q : Nat) => s.queueOwner q == n.queueOwner q
  let s := s.modQm (fun m =>
    { m with queues := m.queues.filter (fun e => keepQ e.1), hot := m.hot.filter keepQ
             rings := m.rings.filter (fun e => s.ringOwner e.1 == n.ringOwner e.1) })
  s.modLink (fun l => { l with granted := l.granted.filter (fun g =>
    match NMap.find? s.living.windows g.win, NMap.find? new.windows g.win with
    | some a, some b => b.kind == 2 && a.tenant == b.tenant
    | _, _ => false) })

/-- Lanes of changed or removed passages freed at the swap. -/
def State.swapLanes (new : ConfigSet) (s : State) : State :=
  let ks := (s.living.passages.filter (fun e => NMap.find? new.passages e.1 != some e.2)).map (·.1)
  let s := ks.foldl (fun s k => s.freePassage k) s
  s.modTenU (fun u => { u with rooms := NMap.mapV u.rooms (fun _ r =>
    { r with stalled := r.stalled.filter (fun k => !ks.contains k) }) })

/-- Stalled lanes of affected rooms that are FAULTED freed at the swap (Table 5-2). -/
def State.freeFaulted (s : State) : State :=
  s.hatchRooms.foldl (fun s m => if (s.room m).st == .faulted then s.freeLanes m else s) s

/-- Everything that a chip swap ends, with the old set still in force. -/
def State.beforeSwap (new : ConfigSet) (s : State) : State :=
  let s := s.swapQueues new
  let s := (NMap.keys s.pantry).foldl (State.swapWindow new) s
  (s.swapLanes new).dropContexts new

/-! ### Rooms after the swap (Table 5-2) -/

/-- State of a room once the new set is in force; `clears` says that it needs clearing. -/
def State.roomAfter (s : State) (m : Nat) (clears : Bool) : RoomSt :=
  if (s.roomCfg? m).isNone then .absent
  else if !s.tenActive (s.roomTenant m) then (if (s.room m).st == .resetting && !clears then .resetting else .dormant)
  else
    let go : RoomSt := if clears then .clearing else if s.startsHeld m then .held else .serving
    match (s.room m).st with
    | .absent | .dormant | .held => go
    | .faulted => if bitOf s.txn.hatch.rooms m then go else .faulted
    | .resetting => if clears then .clearing else .resetting
    | .serving => if clears then .clearing else .serving
    | .clearing => .clearing

/-- A room whose Audit request the swap changed (R396). -/
def auditAsked (keys : List Nat) (m : Nat) : Bool := keys.contains (offRoomAudit m)

/-- Level T as the swap leaves it (Table 14-6). -/
def State.swapLevel (old : ConfigSet) (keys : List Nat) (m : Nat) (s : State) : State :=
  let was := match NMap.find? old.rooms m with | some r => r.level == 2 | none => false
  let now := s.levelT m
  if now && !was then s.modRoom m (fun r => { r with timed := 1, rearm := false, tepoch := wrap1 16 r.tepoch })
  else if was && !now then s.modRoom m (fun r => { r with timed := 0, rearm := false })
  else if now then
    let s := if keys.contains offReproCfg then s.modRoom m (fun r => { r with tepoch := wrap1 16 r.tepoch }) else s
    if bitOf s.txn.hatch.rooms m then s.returnTimed m else s
  else s

/-- One room at the swap. -/
def State.swapRoom (old : ConfigSet) (keys : List Nat) (s : State) (m : Nat) : State :=
  let clears := match s.roomCfg? m with | some r => roomClears old s.living r | none => false
  let audit := (s.roomCfg? m).isSome && auditAsked keys m
  let st := s.roomAfter m (clears || audit)
  let s := s.modRoom m (fun r =>
    if st == .absent then { r with st := st, merged := false, flush := false, stalled := [] } else { r with st := st })
  let s := if audit then s.startRoomAudit m (fld (s.rwt (offRoomAudit m)) 0 8) else s
  let s := if clears && st == .clearing then s.modHatch (fun h => { h with clearing := h.clearing ||| packW [(m, 1, 1)] }) else s
  s.swapLevel old keys m

/-- Rooms that one of two sets or the room table lists. -/
def State.allRooms (s : State) (old : ConfigSet) : List Nat :=
  insAll (NMap.keys old.rooms) (insAll (NMap.keys s.living.rooms) [])

/-! ### What a changed setting does -/

/-- Retunes that the new ceilings and phases start (R24). -/
def State.swapClocks (keys : List Nat) (old : ConfigSet) (s : State) : State :=
  let phase := dcoSources.filter (fun u => keys.contains (offClkCfg u)
    && fld (s.rwtOf old (offClkCfg u)) 16 10 != fld (s.rwt (offClkCfg u)) 16 10 && s.ceilNow u == s.ceilEff u)
  phase.foldl (fun s u => s.retuneTo u (s.ceilNow u)) s.syncCeil

/-- Pairing ends where the twin port's policy, ROOMS or a twinned room's parity word changes (R310). -/
def State.swapTwin (old : ConfigSet) (s : State) : State :=
  let pol := fun (c : ConfigSet) (p : Nat) => NMap.getD c.linkpols p linkPolOff
  let port := (List.range 8).any (fun p => ((pol old p).mode == 3 || (pol s.living p).mode == 3) && pol old p != pol s.living p)
  let roomsOld := s.rwtOf old offTwinCfg
  let word := (bitsOf 64 (roomsOld ||| s.twinRooms)).any (fun m => old.parity m != s.living.parity m)
  if port || roomsOld != s.twinRooms || word then s.unpair else s

/-- The span of a room is installed or changed, and checked (R378), or is off. -/
def State.swapSpan (keys : List Nat) (s : State) (m : Nat) : State :=
  if !keys.any (fun o => decide (offSpanCfg m ≤ o) && decide (o ≤ offSpanCfg m + 0x80)) then s
  else if !bitOf (s.spanCfg m) 24 then s.modSpan m (fun _ => .reset)
  else if s.spanHead m then s.spanAskAll m
  else s.modSpan m (fun r => { r with st := 0, mpos := 0, answered := [] })

/-- The alignment state of a changed MODE (Table 17-2). -/
def State.swapAlign (old : ConfigSet) (s : State) : State :=
  let was := fld (s.rwtOf old offCellCfg) 16 2
  let s := if was = s.cellMode then s
    else if s.cellMode = 0 then s.modClk (fun c => { c with align := 0, slewPpb := 0 })
    else s.modClk (fun c => { c with align := if c.align = 0 then 3 else c.align })
  s.recompute

/-- A port whose policy the swap changed (Table 16-4, R91). -/
def State.swapPort (old : ConfigSet) (s : State) (p : Nat) : State :=
  let a := NMap.getD old.linkpols p linkPolOff
  let b := s.linkPol p
  if a = b then s
  else if (s.port p).st == .quarantined then (s.modPort p (fun l => { l with st := .down, backoff := 100 })).portChanged
  else if b.mode = 0 then (if a.mode = 0 then s else s.goDown p 7)
  else if a.mode ≠ 0 ∧ a.lanes ≠ b.lanes then s.rekey p
  else s

/-- PCIe parameters and fuse policy written to storage; they wait for the warm reset (R91, R440, R443). -/
def State.swapStored (old : ConfigSet) (s : State) : State :=
  let pcie := s.rwt offPcieCfg
  let fuse := s.rwt offFuseCtrl
  let fuseNew := s.rwtOf old offFuseCtrl != fuse
  let pcieNew := s.rwtOf old offPcieCfg != pcie
  let s := if fuseNew then s.modPlat (fun p =>
    { p with fusePending := if fld fuse 0 4 = 0 then none else some (fld fuse 0 4, fld fuse 8 6, s.txn.fuseHash) }) else s
  let s := if pcieNew then
    let drop := fun (c : ConfigSet) => { c with rwt := NMap.del c.rwt offPcieCfg }
    ((s.modPlat (fun p => { p with pcieCfg := pcie })).setLiving (drop s.living)).setAttic (drop s.attic)
    else s
  if fuseNew || pcieNew then s.modTxn (fun u => { u with resetPending := true }) else s

/-- What follows from the settings of a chip swap, once the set is in force. -/
def State.afterSwap (old : ConfigSet) (was : Nat → Bool) (keys : List Nat) (s : State) : State :=
  let s := (List.range 64).foldl (fun s t => if !was t && s.tenActive t then s.tenantOn t else s) s
  let s := s.modPlat (fun p => { p with gated := p.gated.filter (fun u => (s.roomsOn u).isEmpty) })
  let s := (List.range 8).foldl (State.swapPort old) s
  let s := s.swapAlign old
  let s := (s.swapClocks keys old).swapTwin old
  let s := (List.range 64).foldl (State.swapSpan keys) s
  (s.swapStored old).checkBound

/-! ### The swap (R83) -/

/-- Resets that waited for the swap (R87, R107). -/
def State.runHeld (s : State) : State :=
  let rooms := s.txn.hatch.heldRooms
  let tens := s.txn.hatch.heldTenants
  let s := s.modHatch (fun h => { h with heldRooms := [], heldTenants := [] })
  let s := tens.foldl (fun s x => s.tenantReset x.1 x.2) s
  rooms.foldl (fun s x => s.roomReset x.1 x.2) s

/-- The transaction and the Hatch end the swap. -/
def State.endSwap (late : Bool) (s : State) : State :=
  let sc := s.txn.hatch.cur
  let r := if s.txn.hatch.preempted > 0 then 0x30 else 0x00
  let busy := s.txn.hatch.clearing != 0 || s.txn.hatch.clearIsl != 0
  let ten := s.scopeTenant sc
  let s := (s.endTxn sc r).modHatch (fun h =>
    { h with st := if busy then .clearing else .idle, result := r, late := late, forcing := false, voted := false })
  let s := s.emit 0xA0 1 1 ten 0 [0xA0]
  let s := if late then s.emit 0xA0 1 3 ten 2 [0xA0] else s
  s.runHeld

def State.swap (late : Bool) (s : State) : State :=
  let sc := s.txn.hatch.cur
  let chip := sc == chipScope
  let old := s.living
  let was := s.tenActive
  let keys := if chip then s.rwtDiff s.attic old else (s.scopeOffs sc).filter (fun o => s.rwtOf s.attic o != s.rwt o)
  let moved := if chip then wordOf 64 (islMoves old s.attic) else 0
  let s := s.freeFaulted
  let s := if chip then s.beforeSwap s.attic else s
  let s := (s.installAttic sc).modHatch (fun h => { h with st := .idle, clearing := 0, clearIsl := moved })
  let s := (s.allRooms old).foldl (State.swapRoom old keys) s
  let s := if chip then s.afterSwap old was keys else s.syncCeil
  (s.endSwap late).spanResumeAll

/-- HATCH_SWAP: the GTC reaches T. -/
def State.hatchSwap (s : State) : State :=
  if s.txn.hatch.st == .armed then (s.reach s.txn.hatch.t).swap false else s

/-! ### Clearing (R69 step 3, R104) -/

/-- A T-island cleared for its new tenant. -/
def State.clearForTenant (s : State) (n : Nat) : State :=
  s.modIsl n (fun i => { i with shelf := .empty, crates := [], pred := [], rstack := [] })

/-- A room reset that was merged into the clearing completes with it, and its FLUSH is applied (R104). -/
def State.mergedReset (m : Nat) (s : State) : State :=
  if (s.room m).merged then
    let flush := (s.room m).flush
    let t := s.roomTenant m
    let s := (s.modRoom m (fun r => { r with merged := false, flush := false })).roomWiped m
    let s := if flush then s.flushRoom m else s
    (s.setFault t 5).emit 0 2 5 t 0 [1, m]
  else s

/-- A room is no longer under clearing or test: a room reset that was merged completes, and the room takes its state. -/
def State.clearingEnds (m : Nat) (s : State) : State :=
  if (s.room m).st != .clearing || bitOf s.txn.hatch.clearing m || !(s.roomAudit m).todo.isEmpty then s
  else
    let s := s.mergedReset m
    let st := s.freeState m
    (s.modRoom m (fun r => { r with st := st })).spanResume m

def State.clearingDone (failed : Word) (s : State) : State :=
  if s.txn.hatch.st != .clearing then s
  else
    let isls := bitsOf 64 s.txn.hatch.clearIsl
    let rooms := bitsOf 64 s.txn.hatch.clearing
    let s := (isls.foldl State.clearForTenant s).modHatch (fun h => { h with st := .idle, clearing := 0, clearIsl := 0 })
    rooms.foldl (fun s m =>
      if bitOf failed m && (s.room m).st == .clearing then (s.mergedReset m).roomFault m 3
      else s.clearingEnds m) s

/-! ### Outcomes at a member of a cell-wide Hatch (R88, R89, R382) -/

/-- SWAP(T) reaches a member: the first copy is relayed, and the member swaps at T, or at once where T has passed. -/
def State.swapMsg (tag t : Nat) (s : State) : State :=
  if (NMap.find? s.txn.hatch.seen tag).isSome then s
  else
    let s := (s.modHatch (fun h => { h with seen := NMap.set h.seen tag (t, 0) })).flood (.swap tag t)
    if s.cellHatch tag && s.txn.hatch.voted then
      if s.txn.hatch.st == .inDoubt || decide (t ≤ s.clk.gtc) then (s.armAt t).swap true else s.armAt t
    else s

/-- ABORT reaches a member, from the coordinator or as an answer, with the members that failed. -/
def State.abortMsg (tag failed : Nat) (s : State) : State :=
  if (NMap.find? s.txn.hatch.seen tag).isSome && (s.knownAbort tag).isNone then s else s.learnAbort tag failed

/-- IN_DOUBT: the member has voted ready and knows no outcome. -/
def State.inDoubt (s : State) : State :=
  if s.cellHatch s.hatchTag && s.txn.hatch.st == .prepare && s.txn.hatch.voted && !s.coordinates then
    s.modHatch (fun h => { h with st := .inDoubt })
  else s

/-- One round of queries, and what the member learns from it. -/
def State.doubtQuery (d : Doubt) (s : State) : State :=
  if s.txn.hatch.st != .inDoubt then s
  else
    let tag := s.hatchTag
    let s := s.otherMembers.foldl (fun s m => s.sendMsg (s.memberChip m) (.query tag s.ownMember)) s
    match d with
    | .none => s
    | .swap t => s.swapMsg tag t
    | .abort failed => s.abortMsg tag failed
    | .noRecord => s.learnAbort tag 0

/-! ### Maintenance (R90, R91) -/

def State.quiesce (qforce : Bool) (s : State) : State :=
  let at_ := if s.txn.quiesce then s.txn.quiesceAt else s.clk.gtc
  let s := s.modTxn (fun u => { u with quiesce := true, qforce := qforce, quiesceAt := at_ })
  (List.range 64).foldl (fun s m => s.holdRoom m) s

def State.quiesceRelease (s : State) : State :=
  if s.txn.resetPending then s
  else
    let s := s.modTxn (fun u => { u with quiesce := false, qforce := false })
    (List.range 64).foldl (fun s m => s.resumeRoom m) s

/-! ### Commands -/

def execHatchSwap (s : State) : Answer := .next s.hatchSwap
def execHatchClearingDone (failed : Word) (s : State) : Answer := .next (s.clearingDone failed)
def execHatchSwapMsg (tag t : Nat) (s : State) : Answer := .next (s.swapMsg tag t)
def execHatchAbortMsg (tag failed : Nat) (s : State) : Answer := .next (s.abortMsg tag failed)
def execInDoubt (s : State) : Answer := .next s.inDoubt
def execInDoubtQuery (answer : Doubt) (s : State) : Answer := .next (s.doubtQuery answer)
def execQuiesce (qforce : Bool) (s : State) : Answer := .next (s.quiesce qforce)
def execQuiesceRelease (s : State) : Answer := .next s.quiesceRelease
def execAuditTestDone (room : Option Room) (failed : Option Nat) (s : State) : Answer :=
  .next (match room with
    | some m => (s.auditDone (some m) failed).clearingEnds m
    | none => s.auditDone none failed)

end Sys2Proof.Machine
end

