-- ==== Sys2Proof/Machine/Messages.lean ====
section
/-! DEFINITION. Management messages (R382, Table 16-3): what each kind does at its destination, and what an in-doubt
member's query is answered with (R89). -/

namespace Sys2Proof.Machine

open Sys2Proof

/-- What this device reports of the cell-wide Hatch of a TAG: the outcome it knows; at the coordinator of a Hatch still
open, nothing yet; otherwise no record. -/
def State.doubtAnswer (s : State) (tag : Nat) : Doubt :=
  let known := fun (t : Nat) (failed : Nat) => if t = 0 then Doubt.abort failed else Doubt.swap t
  let learnt := match NMap.find? s.txn.hatch.seen tag with | some (t, failed) => known t failed | none => .noRecord
  match s.txn.hatch.rec_ with
  | some r =>
    if r.tag = tag then (match r.decision with | some t => known t r.failed | none => .none)
    else learnt
  | none => learnt

/-- An answer to a query: an outcome ends the doubt. -/
def State.doubtLearn (tag : Nat) (d : Doubt) (s : State) : State :=
  if s.txn.hatch.st == .inDoubt && s.hatchTag == tag then
    match d with
    | .swap t => s.swapMsg tag t
    | .abort failed => s.abortMsg tag failed
    | .none | .noRecord => s
  else s

/-- A vote reaches the coordinator. -/
def State.voteIn (member : Nat) (ready : Bool) (tag : Nat) (s : State) : State :=
  if s.coordinates then s.recordVote member ready tag else s

/-- A member of a span answers the head's check (R378). -/
def State.spanAsked (src head m pos : Nat) (s : State) : State :=
  if bitOf (s.spanCfg m) 24 then s.sendMsg src (.spanCheck head pos (s.spanOwn m)) else s

/-- Lease traffic, by opcode. -/
def State.leaseMsg (p : Nat) (t : THdr) (opc : Nat) (wins : List Nat) (us : Nat) (s : State) : State :=
  let w := wins.headD 0
  match opc with
  | 0x10 => s.serveLease p t w
  | 0x11 => s.onGrant t t.src w us
  | 0x12 => s.serveRenew t wins
  | 0x13 => s.onLeaseAck t wins
  | 0x14 => s.serveRelease t w
  | _ => s

/-- A message at its destination. -/
def State.message (p : Nat) (t : THdr) (m : LMsg) (s : State) : State :=
  match m with
  | .vote member ready tag => s.voteIn member ready tag
  | .swap tag at_ => s.swapMsg tag at_
  | .abort tag failed => s.abortMsg tag failed
  | .query tag _ => s.sendMsg t.src (.answer tag (s.doubtAnswer tag))
  | .answer tag d => s.doubtLearn tag d
  | .portMap chip ver ports => s.portMapIn chip ver ports
  | .spanAsk head room pos => s.spanAsked t.src head (room % 64) pos
  | .spanCheck head pos a => s.spanAnswer (head % 64) pos a
  | .spanStart room st => s.spanStartIn (room % 64) t.src st
  | .spanStop room ref => s.spanStopIn (room % 64) ref
  | .spanEnd ref st hits retries => s.spanEndIn ref st hits retries
  | .twinStart queue no outcome => s.twinStart queue no outcome
  | .twinCompare queue no c => s.twinCompare queue no c
  | .twinPair c => s.pairMsg c
  | .align chip level => s.alignIn chip level
  | .lease opc wins us => s.leaseMsg p t opc wins us

def execHatchVote (member : Nat) (ready : Bool) (tag : Nat) (s : State) : Answer := .next (s.voteIn member ready tag)
def execMsg (port : Port) (h : LHdr) (t : THdr) (m : LMsg) (s : State) : Answer :=
  .next (s.recvData port h (hdrTo t) (.msg t m) (fun s => s.message port t m))

end Sys2Proof.Machine
end

