-- ==== Sys2Proof/Machine/Audit.lean ====
section
/-! DEFINITION. The Inventory (R424–R428): the books of Table 19-4, their windows, an audit at an instant, and the
LEDG_INV registers. -/

namespace Sys2Proof.Machine

open Sys2Proof

/-- A book as its holders count it: quantity, index, the counts, and the window it lies in. -/
structure BookNow where
  q : Nat
  index : Nat
  pool : Nat
  held : Nat
  aux : Nat
  window : Option Nat
  deriving DecidableEq, Repr

/-- W of R428 for a round trip. -/
def wireCredits (rtt : Nat) : Nat := cdiv (7 * rtt) 2 + 9

/-- Tags of a host read: one for each 4,096 bytes not yet answered (R437). -/
def Dma.readTags (d : Dma) : Nat := if (d.cls == 0 || d.cls == 2) && !d.write && !d.done then cdiv d.len 4096 else 0

def Isl.stopping (i : Isl) : Nat := (i.slots.filter (fun e => e.2.st == .stopping)).length

/-- A stop has left tags outstanding on an island. -/
def Isl.drains (i : Isl) : Bool := i.slots.any (fun e => e.2.st == .stopping && e.2.tags.any (fun t => !t.2.done))

def State.linkBooks (s : State) : List BookNow :=
  ((List.range 8).flatMap (fun p => (List.range 16).flatMap (fun v =>
    let l := s.port p
    let w : Option Nat := if !l.live then some 5 else if s.isl.any (fun e => e.2.drains) then some 4 else none
    [{ q := 1, index := 16 * p + v, pool := NMap.getD l.pool v 0, held := NMap.getD l.credits v 0
       aux := NMap.getD l.excess v 0, window := none },
     { q := 2, index := 16 * p + v, pool := ownPool, held := NMap.getD l.rxUsed v 0 + NMap.getD l.rxOwed v 0
       aux := wireCredits l.rtt, window := w }])))

def State.islBooks (s : State) : List BookNow :=
  (List.range 64).flatMap (fun n =>
    let i := s.island n
    let busy := (i.slots.filter (fun e => e.2.st != .free)).length
    let full := match NMap.find? i.slots i.owner with | some x => x.full.length | none => 0
    let saved := (i.slots.map (fun e => e.2.saved.length)).sum
    [{ q := 3, index := n, pool := 16, held := busy, aux := i.stopping, window := none },
     { q := 4, index := n, pool := 16, held := full, aux := saved, window := if i.swapTo.isEmpty then none else some 6 },
     { q := 5, index := n, pool := (s.pages n).length, held := i.held.length
       aux := if s.clearsPages n then (s.pages n).length - i.held.length else 0
       window := if s.txn.hatch.st == .clearing then some 3 else if i.stopping != 0 || s.clearsPages n then some 4 else none }])

def State.otherBooks (s : State) : List BookNow :=
  let tags := fun (p : SlotSt → Bool) => (s.isl.map (fun e =>
    ((e.2.slots.filter (fun x => p x.2.st)).map (fun x => (x.2.tags.map (fun t => t.2.readTags)).sum)).sum)).sum
  let gone := min 1024 (tags (· == .stopping))
  [{ q := 6, index := 0, pool := 1024, held := min (1024 - gone) (tags (· != .stopping)), aux := gone
     window := if s.isl.any (fun e => e.2.drains) then some 4 else none }]
  ++ s.qm.queues.map (fun e =>
    { q := 7, index := e.1, pool := 32, held := e.2.waiting.length + e.2.running, aux := e.2.accepted % 2 ^ 18, window := none })
  ++ s.qm.rings.map (fun e =>
    { q := 8, index := e.1, pool := if e.2.enabled then e.2.size else 0, held := e.2.used + e.2.reserved, aux := e.2.reserved
      window := none })
  ++ [{ q := 9, index := 0, pool := 2 ^ s.ledg.log2, held := s.ledg.used, aux := (s.ledg.next + 2 ^ 32 - s.ledg.mirrorNext) % 2 ^ 32, window := none },
      { q := 10, index := 0, pool := 255, held := s.tokensHeld.length
        aux := b2n (s.txn.chip.st != .idle) + s.roomTxns.length, window := none }]

def State.booksNow (s : State) : List BookNow := s.linkBooks ++ s.islBooks ++ s.otherBooks

/-- Books of each quantity: every index below this exists. -/
def bookCount (q : Nat) : Nat := [0, 128, 128, 64, 64, 64, 1, 131072, 8192, 1, 1].getD q 0
def allBooks : Nat := ((List.range 11).map bookCount).sum

/-- Whether a book balances when its holders report `held` (Table 19-4). -/
def BookNow.balances (b : BookNow) (held : Nat) : Bool :=
  if b.q = 1 ∨ b.q = 2 ∨ b.q = 8 ∨ b.q = 9 then decide (held ≤ b.pool) else held == b.held && decide (held ≤ b.pool)

/-- STATE of a book (R426–R428). -/
def BookNow.state (s : State) (b : BookNow) (held : Nat) : Nat :=
  if !b.balances held then b.window.getD 1
  else if b.q == 2 && decide (held < b.pool) && (s.port (b.index / 16)).st == .up then 2
  else 0

def BookNow.judge (s : State) (wrong : List BookIn) (b : BookNow) : Book :=
  let held := match wrong.find? (fun w => w.q == b.q && w.index == b.index) with | some w => w.held | none => b.held
  { pool := b.pool, held := held, aux := b.aux, state := b.state s held }

/-- LEDG_INV_DATA of a book. -/
def Book.word (b : Book) : Word := packW [(0, 21, sat 21 b.pool), (21, 21, sat 21 b.held), (42, 18, sat 18 b.aux), (60, 4, b.state)]

/-- Queues and rings that nothing has used, and that an audit finds wrong: their holders count zero. -/
def State.idleBooks (s : State) (wrong : List BookIn) : List BookNow :=
  (wrong.filter (fun w => decide (w.index < bookCount w.q) && ((w.q == 7 && (NMap.find? s.qm.queues w.index).isNone)
      || (w.q == 8 && (NMap.find? s.qm.rings w.index).isNone)))).map
    (fun w => { q := w.q, index := w.index, pool := if w.q = 7 then 32 else 0, held := 0, aux := 0, window := none })

/-! ### An audit -/

/-- LEDG_INV_CTRL.GO (R425). -/
def State.auditSchedule (v : Word) (s : State) : State :=
  if !bitOf v 0 || s.inv.busy then s
  else
    let t := (s.reg 0x80108 0).toNat
    let now := s.clk.gtc
    let late := t = 0 || decide (t < now + 1000)
    s.modInv (fun i => { i with busy := true, lateT := late, at_ := if late then now + 2000 else t })

/-- The books are latched at T and judged (R425–R427). -/
def State.auditInstant (wrong : List BookIn) (s : State) : State :=
  if !s.inv.busy then s
  else
    let t := s.inv.at_
    let s := s.reach t
    let js := (s.booksNow ++ s.idleBooks wrong).map (fun b => (b.q, b.index, b.judge s wrong))
    let bad := js.filter (fun j => j.2.2.state == 1)
    let s := s.modInv (fun i =>
      { i with busy := false, checked := allBooks, imbalanced := bad.length
               windowed := (js.filter (fun j => decide (2 ≤ j.2.2.state))).length
               books := js.foldl (fun m j => NMap.set m (j.1 * 2 ^ 17 + j.2.1) j.2.2) [] })
    let s := s.setReg 0x80108 (BitVec.ofNat 64 t)
    let s := bad.foldl (fun s j => s.emit 0 11 2 noTenant 4 [t, j.1 + 16 * j.2.1, j.2.2.word.toNat]) s
    s.emit 0 11 1 noTenant 0 []

/-! ### Registers (Table 19-6) -/

/-- LEDG_INV_DATA of the book that LEDG_INV_SEL names, as the last audit judged it. -/
def State.invData (s : State) : Word :=
  let sel := s.reg 0x80118 0
  let q := fld sel 0 4
  let i := fld sel 4 17
  if s.inv.checked = 0 then 0
  else if bookCount q ≤ i then packW [(60, 4, 7)]
  else match NMap.find? s.inv.books (q * 2 ^ 17 + i) with
    | some b => b.word
    | none => packW [(0, 21, if q = 7 then 32 else 0)]

def execInventoryAudit (v : Word) (s : State) : Answer := .next (s.auditSchedule v)
def execAuditInstant (wrong : List BookIn) (s : State) : Answer := .next (s.auditInstant wrong)

end Sys2Proof.Machine
end

