-- ==== Sys2Proof/Machine/RangeCoder.lean ====
section
/-! DEFINITION. The range coder, the Tabulator and the Hatal Coded Frame (Range-Coding Engines and the Coded
Frame, R265–R282), as functions of bytes and numbers. -/

namespace Sys2Proof.Machine

/-! ### The Tabulator (R271–R274) -/

/-- Round to nearest of a fixed-point number. -/
def fxRound (x : Nat) : Nat := (2 * x + fxOne) / (2 * fxOne)

/-- 2^(n/6) in fixed point, times 2^18 when the exponent would be negative. -/
def fxPow6 (n : Nat) : Nat := 2 ^ (n / 6) * (if n % 6 = 0 then fxOne else fxExp (n % 6 * fxLn2 / 6))

/-- INV_j = round(2^18 / s_j), s_j = 2^((j − 24)/6) (Table 13-1). -/
def tabInv (j : Nat) : Nat := fxRound (fxPow6 (132 - j))

/-- s_j in units of 1/16. -/
def fxScale16 (j : Nat) : Nat := fxPow6 j

/-- HALF_j: min(127, ceil(4 s_j)) under FTAB 1, ceil(6 s_j) under FTAB 2. -/
def tabHalf (ftab j : Nat) : Nat := min 127 (cdiv ((if ftab = 2 then 6 else 4) * fxScale16 j) (16 * fxOne))

/-- T_F[i] = round(65,536 × G_F(i/64)); F is 0 Gaussian, 1 Laplace, 2 logistic. -/
def tabT (fam i : Nat) : Nat :=
  if 1024 ≤ i then 65536
  else
    let t := i * fxOne / 64
    let e := fxOne * fxOne / fxExp t
    let g := match fam with
      | 0 => fxOne - fxTail t
      | 1 => fxOne - e / 2
      | _ => fxOne * fxOne / (fxOne + e)
    fxRound (65536 * g)

/-- Cumulative at D sixteenths from the mean (R273). -/
def tabG (d : Int) (j fam : Nat) : Nat :=
  let x := d * (tabInv j : Int)
  let a := x.natAbs
  let i := a / 65536
  let q := a % 65536
  let g := if 1024 ≤ i then 65536 else
    let lo := tabT fam i
    lo + (tabT fam (i + 1) - lo) * q / 65536
  if 0 ≤ x then g else 65536 - g

/-- The distribution of one element: CDF C[0..N+1], symbol interval start and base. -/
structure ElemCdf where
  cdf : List Nat
  lo : Int
  base : Int
  deriving DecidableEq, Repr

def ElemCdf.n (c : ElemCdf) : Nat := c.cdf.length - 2

/-- Build of R273 for scale index j and fraction f. -/
def tabBuild (ftab fam j : Nat) (f : Int) : List Nat × Int :=
  let half := tabHalf ftab j
  let n := 2 * half + 1
  let lo : Int := -(half : Int)
  let g := fun (s : Nat) => tabG (16 * (lo + s) - 8 - f) j fam
  let g0 := g 0
  ((List.range (n + 1)).map (fun s => s + (g s - g0) * (65536 - (n + 1)) / 65536) ++ [65536], lo)

/-- The split of a mean into integer and fraction of sixteenths (R271). -/
def meanSplit (mu : Int) : Int × Int := let m := (mu + 8) / 16; (m, mu - 16 * m)

/-- The element of a parametric family. -/
def elemParam (ftab fam j : Nat) (mu : Int) : ElemCdf :=
  let (m, f) := meanSplit mu
  let (c, lo) := tabBuild ftab fam j f
  { cdf := c, lo := lo, base := m }

/-- Strictly increasing. -/
def strictInc : List Nat → Bool
  | a :: b :: r => decide (a < b) && strictInc (b :: r)
  | _ => true

/-- An explicit table (R274): none where it is invalid. `raw` starts at the table. -/
def elemTable (raw : Bytes) : Option ElemCdf :=
  let n := leAt raw 0 2
  let cs := (List.range n).map (fun i => leAt raw (4 + 2 * i) 2)
  if 1 ≤ n ∧ n ≤ 255 ∧ strictInc (0 :: cs) then
    some { cdf := 0 :: cs ++ [65536], lo := signed 16 (leAt raw 2 2), base := 0 }
  else none

/-! ### The encoder (R265–R270) -/

structure Enc where
  low : Nat
  range : Nat
  cache : Nat
  pend : Nat
  first : Bool
  /-- Bytes emitted, last first. -/
  out : Bytes
  escapes : Nat
  deriving DecidableEq, Repr

def Enc.init : Enc := { low := 0, range := 0xFFFFFFFF, cache := 0, pend := 1, first := true, out := [], escapes := 0 }

/-- Emit one byte, unless it is the first of the substream. -/
def Enc.emit (e : Enc) (b : Nat) : Enc :=
  if e.first then { e with first := false } else { e with out := BitVec.ofNat 8 b :: e.out }

/-- shift_low of R266. -/
def Enc.shiftLow (e : Enc) : Enc :=
  let e := if e.low < 0xFF000000 ∨ 0x100000000 ≤ e.low then
      let carry := e.low / 2 ^ 32
      let e1 := if e.pend = 0 then e else iter (fun e => e.emit (0xFF + carry)) (e.pend - 1) (e.emit (e.cache + carry))
      { e1 with pend := 0, cache := e.low / 2 ^ 24 % 256 }
    else e
  { e with pend := e.pend + 1, low := e.low % 2 ^ 24 * 256 }

def Enc.renorm1 (e : Enc) : Enc :=
  if e.range < 0x01000000 then { e with range := e.range * 256 % 2 ^ 32 }.shiftLow else e

def Enc.renorm (e : Enc) : Enc := iter Enc.renorm1 4 e

def Enc.symbol (e : Enc) (c : List Nat) (s : Nat) : Enc :=
  let r := e.range / 65536
  let cs := c.getD s 0
  { e with low := e.low + r * cs, range := r * (c.getD (s + 1) 0 - cs) }.renorm

def Enc.bit (e : Enc) (b : Bool) : Enc :=
  let r := e.range / 2
  { e with low := if b then e.low + r else e.low, range := r }.renorm

/-- `n` low bits of `w`, most significant first. -/
def Enc.bits (e : Enc) (w : Nat) : Nat → Enc
  | 0 => e
  | n + 1 => (e.bit (nbit w n)).bits w n

/-- One element's value (R269). -/
def Enc.elem (e : Enc) (c : ElemCdf) (y : Int) : Enc :=
  let u := y - c.base
  let n := c.n
  let hi := c.lo + n - 1
  if c.lo ≤ u ∧ u ≤ hi then e.symbol c.cdf (u - c.lo).toNat
  else
    let v := if hi < u then 2 * (u - hi - 1) else 2 * (c.lo - 1 - u) + 1
    let w := (v + 1).toNat
    let l := Nat.log2 w
    let e := e.symbol c.cdf n
    { ((iter (fun e => e.bit false) l e).bits w (l + 1)) with escapes := e.escapes + 1 }

/-- Without its trailing zero bytes, from a list with the last byte first. -/
def dropZeros : Bytes → Bytes
  | [] => []
  | b :: r => if b = 0 then dropZeros r else b :: r

/-- A substream: its bytes and its escapes (R265–R267). -/
def encodeSub (es : List (ElemCdf × Int)) : Bytes × Nat :=
  let e := es.foldl (fun e p => e.elem p.1 p.2) Enc.init
  let f := iter Enc.shiftLow 5 e
  (if es.isEmpty then [] else (dropZeros f.out).reverse, e.escapes)

/-! ### The decoder (R268, R270) -/

structure Dec where
  range : Nat
  code : Nat
  rest : Bytes
  escapes : Nat
  deriving DecidableEq, Repr

/-- The next byte; past the end, zero. -/
def Dec.next (d : Dec) : Nat × Bytes :=
  match d.rest with
  | [] => (0, [])
  | b :: r => (b.toNat, r)

def Dec.init (b : Bytes) : Dec :=
  { range := 0xFFFFFFFF, code := unbe (fit 4 b), rest := b.drop 4, escapes := 0 }

def Dec.renorm1 (d : Dec) : Dec :=
  if d.range < 0x01000000 then
    let (b, r) := d.next
    { d with range := d.range * 256 % 2 ^ 32, code := d.code * 256 % 2 ^ 32 + b, rest := r }
  else d

def Dec.renorm (d : Dec) : Dec := iter Dec.renorm1 4 d

/-- The largest s with C[s] ≤ v, s at most N. -/
def findSym (c : List Nat) (n v : Nat) : Nat :=
  ((List.range (n + 1)).filter (fun s => decide (c.getD s 0 ≤ v))).foldl max 0

def Dec.symbol (d : Dec) (c : ElemCdf) : Option (Nat × Dec) :=
  let r := d.range / 65536
  let v := min (d.code / r) 65535
  let s := findSym c.cdf c.n v
  let cs := c.cdf.getD s 0
  let code := d.code - r * cs
  let range := r * (c.cdf.getD (s + 1) 0 - cs)
  if range ≤ code then none else some (s, { d with range := range, code := code }.renorm)

def Dec.bit (d : Dec) : Bool × Dec :=
  let r := d.range / 2
  if r ≤ d.code then (true, { d with range := r, code := d.code - r }.renorm)
  else (false, { d with range := r }.renorm)

/-- Zero bits up to the first 1, at most 16. -/
def Dec.zerosLoop (d : Dec) : Nat → Nat → Option (Nat × Dec)
  | 0, _ => none
  | n + 1, z => let (b, d1) := d.bit; if b then some (z, d1) else d1.zerosLoop n (z + 1)

def Dec.bits (d : Dec) : Nat → Nat → Nat × Dec
  | 0, w => (w, d)
  | n + 1, w => let (b, d1) := d.bit; d1.bits n (2 * w + b2n b)

/-- One element (R269, R270). -/
def Dec.elem (d : Dec) (c : ElemCdf) : Option (Int × Dec) :=
  match d.symbol c with
  | none => none
  | some (s, d) =>
    if s ≠ c.n then some (c.base + c.lo + s, d)
    else
      match d.zerosLoop 17 0 with
      | none => none
      | some (z, d) =>
        let (w, d) := d.bits z 1
        let v := w - 1
        let u : Int := if v % 2 = 0 then c.lo + c.n - 1 + 1 + (v / 2 : Nat) else c.lo - 1 - (v / 2 : Nat)
        let y := c.base + u
        if -32768 ≤ y ∧ y ≤ 32767 then some (y, { d with escapes := d.escapes + 1 }) else none

/-- A substream's values as far as they decode, the escapes met, and whether all of them decode: if not, it is a STREAM
failure. -/
def decodeSubLoop : List ElemCdf → Dec → List Int → List Int × Nat × Bool
  | [], d, acc => (acc.reverse, d.escapes, true)
  | c :: r, d, acc =>
    match d.elem c with
    | none => (acc.reverse, d.escapes, false)
    | some (y, d) => decodeSubLoop r d (y :: acc)

def decodeSub (cs : List ElemCdf) (b : Bytes) : List Int × Nat × Bool := decodeSubLoop cs (Dec.init b) []

/-! ### The frame (R280, R281) -/

def crc16Bit (c : Nat) : Nat := if nbit c 15 then (c * 2 % 65536) ^^^ 0x8005 else c * 2 % 65536

/-- CRC-16, polynomial 0x8005, no reflection (R281). -/
def crc16 (b : Bytes) : Nat := b.foldl (fun c x => iter crc16Bit 8 (c ^^^ (x.toNat * 256))) 0

/-- The bytes that CHECK covers, for some elements in order (R281). -/
def agreeBytes (sig mu : List Nat) : Bytes := (sig.zip mu).flatMap (fun p => BitVec.ofNat 8 p.1 :: le 2 p.2)

/-- The agreement check over scale indices and means (R281). -/
def agreement (sig mu : List Nat) : Nat := crc16 (agreeBytes sig mu)

/-- An assembled frame (Table 13-4). -/
def hcfFrame (rcv fam ftab chk k : Nat) (subs : List Bytes) : Bytes :=
  let len := 16 + 4 * subs.length + (subs.map List.length).sum
  [0x48, 0x43, BitVec.ofNat 8 rcv, BitVec.ofNat 8 subs.length, BitVec.ofNat 8 (fam + 4 * ftab), 0] ++ le 2 chk ++
    le 4 k ++ le 4 len ++ subs.flatMap (fun s => le 4 s.length) ++ subs.flatten

/-- First and last-plus-one element of substream i (R277). -/
def subRange (k subs i : Nat) : Nat × Nat := (i * k / subs, (i + 1) * k / subs)

/-- Substream bytes by the size table, in order. -/
def cutSubs : List Nat → Bytes → List Bytes
  | [], _ => []
  | n :: r, b => b.take n :: cutSubs r (b.drop n)

/-- The FORMAT check of R282: the substreams, or none. -/
def hcfParse (rcv fam k cap : Nat) (b : Bytes) : Option (Nat × Nat × List Bytes) :=
  let subs := leAt b 3 1
  let flags := leAt b 4 1
  let len := leAt b 12 4
  let sizes := (List.range subs).map (fun i => leAt b (16 + 4 * i) 4)
  if slice b 0 2 = [0x48, 0x43] ∧ leAt b 2 1 = rcv ∧ 1 ≤ subs ∧ subs ≤ 16 ∧ flags / 16 = 0 ∧ leAt b 5 1 = 0
      ∧ flags % 4 = fam ∧ leAt b 8 4 = k ∧ len = 16 + 4 * subs + sizes.sum ∧ len ≤ cap then
    some (flags / 4 % 4, leAt b 6 2, cutSubs sizes (b.drop (16 + 4 * subs)))
  else none

end Sys2Proof.Machine
end

