-- ==== Sys2Proof/Machine/Rce.lean ====
section
/-! DEFINITION. The Range-Coding Engines (R48, R275–R286): job blocks and their checks, requests in event order, the
coding and decoding of substreams, the agreement checks, assembly, restarts, and the RCE registers. -/

namespace Sys2Proof.Machine

open Sys2Proof

/-! ### Job blocks (Table 13-2) -/

structure JobB where
  op : Nat
  fam : Nat
  subs : Nat
  rmask : Nat
  k : Nat
  cap : Nat
  y : Nat
  sig : Nat
  mu : Nat
  frame : Nat
  tables : Nat
  deriving DecidableEq, Repr

def JobB.of (b : Bytes) : JobB :=
  { op := leAt b 0 1, fam := leAt b 1 1, subs := leAt b 2 1, rmask := leAt b 4 2, k := leAt b 8 4, cap := leAt b 0xC 4,
    y := leAt b 0x10 4, sig := leAt b 0x14 4, mu := leAt b 0x18 4, frame := leAt b 0x1C 4, tables := leAt b 0x20 4 }

def Submit.job (x : Submit) : JobB := JobB.of x.block

/-- The field checks of BAD_FIELD, scale indices apart. -/
def fieldsOk (b : Bytes) (rces : Word) : Bool :=
  let j := JobB.of b
  (j.op == 1 || j.op == 2) && decide (j.fam ≤ 3) && (if j.op = 1 then decide (1 ≤ j.subs) && decide (j.subs ≤ 16) else j.subs == 0)
    && leAt b 3 1 == 0 && leAt b 6 2 == 0 && leAt b 0x24 4 == 0 && allZero (slice b 0x30 16)
    && j.rmask != 0 && (List.range 16).all (fun i => !nbit j.rmask i || bitOf rces i)
    && decide (1 ≤ j.k) && decide (j.k ≤ 2 ^ 20)

def JobB.table (j : JobB) : Bool := j.fam == 3

/-- Ranges that a job reads and writes, its tables apart. -/
def JobB.reads (j : JobB) : List (Nat × Nat) :=
  [(j.sig, j.k)] ++ (if j.table then [(j.tables, 1024)] else [(j.mu, 2 * j.k)])
    ++ (if j.op = 1 then [(j.y, 2 * j.k)] else [(j.frame, j.cap)])
def JobB.writes (j : JobB) : List (Nat × Nat) := [if j.op = 1 then (j.frame, j.cap) else (j.y, 2 * j.k)]

/-- The Shelf of the submitting island, as the job reads it. -/
def State.jobShelf (s : State) (x : Submit) : Store := (s.island x.isl).shelf

/-- Elements' scale indices, means (zero for TABLE) and latents. -/
def State.jobSig (s : State) (x : Submit) (lo hi : Nat) : List Nat :=
  ((s.jobShelf x).read (x.job.sig + lo) (hi - lo)).map (·.toNat)
def State.jobMu (s : State) (x : Submit) (lo hi : Nat) : List Nat :=
  if x.job.table then List.replicate (hi - lo) 0
  else let b := (s.jobShelf x).read (x.job.mu + 2 * lo) (2 * (hi - lo)); (List.range (hi - lo)).map (fun i => leAt b (2 * i) 2)
def State.jobY (s : State) (x : Submit) (lo hi : Nat) : List Int :=
  let b := (s.jobShelf x).read (x.job.y + 2 * lo) (2 * (hi - lo))
  (List.range (hi - lo)).map (fun i => signed 16 (leAt b (2 * i) 2))

/-- Address of table t; 0 when there is none (R274). -/
def State.tableAt (s : State) (x : Submit) (t : Nat) : Nat := leAt ((s.jobShelf x).read (x.job.tables + 4 * t) 4) 0 4 % 2 ^ 21

def State.tableRaw (s : State) (x : Submit) (t : Nat) : Bytes := (s.jobShelf x).read (s.tableAt x t) 514

/-- Bytes that a table takes. -/
def State.tableLen (s : State) (x : Submit) (t : Nat) : Nat := 4 + 2 * leAt (s.tableRaw x t) 0 2

/-- Tables that elements name. -/
def State.jobTables (s : State) (x : Submit) (lo hi : Nat) : List Nat :=
  if x.job.table then insAll (s.jobSig x lo hi) [] else []

/-- A result of Table 13-3 found when the tables are read: BAD_TABLE or BAD_ADDR. -/
def State.tableBad (s : State) (x : Submit) : Option Nat :=
  (s.jobTables x 0 x.job.k).findSome? (fun t =>
    let a := s.tableAt x t
    if a = 0 then some 3
    else if !s.canLoad x.isl x.slot a 4 || !s.canLoad x.isl x.slot a (s.tableLen x t) then some 2
    else if (elemTable (s.tableRaw x t)).isNone then some 3
    else none)

/-- The first poisoned word that ranges touch (R285). -/
def State.jobPoison (s : State) (x : Submit) (rs : List (Nat × Nat)) : Option Nat :=
  rs.findSome? (fun r => (s.jobShelf x).poisonIn wordB r.1 r.2)

/-- Directory entries and tables of elements, as ranges. -/
def State.tableRanges (s : State) (x : Submit) (lo hi : Nat) : List (Nat × Nat) :=
  (s.jobTables x lo hi).flatMap (fun t =>
    [(x.job.tables + 4 * t, 4)] ++ (if s.tableAt x t = 0 then [] else [(s.tableAt x t, s.tableLen x t)]))

/-! ### Jobs and requests (R275–R277) -/

def State.job? (s : State) (ord : Nat) : Option Job := s.eng.jobs.find? (fun j => j.from_.ord == ord)

def State.modJob (ord : Nat) (f : Job → Job) (s : State) : State :=
  s.modEng (fun e => { e with jobs := e.jobs.map (fun j => if j.from_.ord = ord then f j else j) })

/-- A request of the assembling RCE, with that engine's stamp and source number (R36, R37). -/
def State.ask (x : Submit) (sub rce : Nat) (s : State) : State :=
  s.modEng (fun e =>
    { e with reqs := e.reqs ++ [{ job := x.ord, sub := sub, rce := rce, stamp := s.view (0x50 + x.eng), src := 0x50 + x.eng, ord := e.ord }]
             ord := e.ord + 1 })

def CodeReq.before (a b : CodeReq) : Bool := evBefore (a.stamp, a.src, a.ord) (b.stamp, b.src, b.ord)

/-- The RCE that codes substream i (R277). -/
def JobB.coder (j : JobB) (i : Nat) : Nat :=
  let rs := (List.range 16).filter (nbit j.rmask)
  (rs[i % rs.length]?).getD 0

def State.askSubs (x : Submit) (n : Nat) (s : State) : State :=
  (List.range n).foldl (fun s i => s.ask x i (x.job.coder i)) s

/-- A job ends: STATUS and LEN written back where the task may store them, the tag complete (R275, R276). -/
def State.jobEnd (x : Submit) (result len : Nat) (s : State) : State :=
  let s := if s.canStore x.isl x.slot (x.addr + 0x28) 8 then
    s.modShelf x.isl (fun st => st.write wordB (x.addr + 0x28) (le 4 result ++ le 4 len)) else s
  let s := if result = 0 then s else s.modRce x.eng (fun r => { r with jobErr := sat1 16 r.jobErr })
  (s.modEng (fun e => { e with jobs := e.jobs.filter (fun j => j.from_.ord != x.ord)
                               reqs := e.reqs.filter (fun r => r.job != x.ord) })).finishTag x.isl x.slot x.tag false

/-- A job given up: its requests are withdrawn, and the DMA write that sent it is over. -/
def State.dropJob (x : Submit) (s : State) : State :=
  (s.endJobs (fun y => y.ord == x.ord)).finishTag x.isl x.slot x.tag false

/-- Poison that a job consumes ends its task (R285). -/
def State.jobPoisoned (x : Submit) (w : Nat) (s : State) : State := (s.dropJob x).poisoned x.isl x.slot x.epc w

/-- A job block reaches its assembling RCE. -/
def State.jobArrive (x : Submit) (s : State) : State :=
  let s := s.modEng (fun e => { e with rceIn := e.rceIn.filter (fun y => y.ord != x.ord) })
  let rces := match s.roomCfg? x.room with | some c => c.rces | none => 0
  let j := x.job
  match x.bad with
  | some w => s.jobPoisoned x w
  | none =>
    if !fieldsOk x.block rces then s.jobEnd x 1 0
    else if !(j.reads.all (fun r => s.canLoad x.isl x.slot r.1 r.2) && j.writes.all (fun r => s.canStore x.isl x.slot r.1 r.2)
        && s.canStore x.isl x.slot (x.addr + 0x28) 8) then s.jobEnd x 2 0
    else match s.jobPoison x [(j.sig, j.k)] with
      | some w => s.jobPoisoned x w
      | none =>
        if !j.table && (s.jobSig x 0 j.k).any (fun g => decide (63 < g)) then s.jobEnd x 1 0
        else match s.jobPoison x (s.tableRanges x 0 j.k) with
          | some w => s.jobPoisoned x w
          | none =>
            match s.tableBad x with
            | some r => s.jobEnd x r 0
            | none =>
              let n := if j.op = 1 then j.subs else 0
              let s := s.modEng (fun e => { e with jobs := e.jobs ++ [{ from_ := x, subs := List.replicate n none, places := [], len := 0 }] })
              if j.op = 1 then s.askSubs x n else s.ask x 17 x.eng

def State.jobSubmit (n k ord : Nat) (s : State) : State :=
  match s.eng.rceIn.find? (fun x => x.isl == n && x.slot == k && x.ord == ord) with
  | some x => s.jobArrive x
  | none => s

/-- An idle RCE takes its next request in the R37 order of arrival, unless a Sweep step or a suspicion holds it (R48, R277,
R398). -/
def State.takeReq (r : Nat) (s : State) : State :=
  if (s.rceRt r).run.isSome || (s.ras.sweepBusy && s.ras.sweepUnit == 0x50 + r) then s
  else match firstBy CodeReq.before (s.eng.reqs.filter (fun q => q.rce == r && s.mayServe (0x50 + r) q.stamp)) with
    | none => s
    | some q =>
      (s.modEng (fun e => { e with reqs := e.reqs.filter (fun p => p.ord != q.ord) })).modRce r (fun x => { x with run := some q })

/-- The request that an RCE runs, with its job. -/
def State.running (s : State) (r : Nat) : Option (CodeReq × Job) :=
  match (s.rceRt r).run with
  | some q => (s.job? q.job).map (fun j => (q, j))
  | none => none

/-! ### Coding (R265–R284) -/

/-- The distribution of an element. -/
def State.elemOf (s : State) (x : Submit) (ftab sig mu : Nat) : ElemCdf :=
  if x.job.table then (elemTable (s.tableRaw x sig)).getD { cdf := [0, 1, 65536], lo := 0, base := 0 }
  else elemParam ftab x.job.fam sig (signed 16 mu)

def State.elems (s : State) (x : Submit) (lo hi : Nat) : List ElemCdf :=
  let ftab := (s.numeric x.room).ftab
  ((s.jobSig x lo hi).zip (s.jobMu x lo hi)).map (fun p => s.elemOf x ftab p.1 p.2)

/-- The builds of a request and their cycles: one for each distinct (j, f), or table (R284). -/
def State.buildsOf (s : State) (x : Submit) (lo hi : Nat) : Nat × Nat :=
  let ftab := (s.numeric x.room).ftab
  if x.job.table then
    let ts := s.jobTables x lo hi
    (ts.length, (ts.map (fun t => 8 + cdiv (leAt (s.tableRaw x t) 0 2) 16)).sum)
  else
    let ks := insAll (((s.jobSig x lo hi).zip (s.jobMu x lo hi)).map
      (fun p => p.1 * 16 + ((meanSplit (signed 16 p.2)).2 + 8).toNat)) []
    (ks.length, (ks.map (fun c => 8 + cdiv (2 * tabHalf ftab (c / 16) + 1 + 2) 16)).sum)

/-- A substream request's counts: elements coded, escapes, builds of the elements met (R284, Table 13-5). -/
def RceRt.count (r : RceRt) (n esc : Nat) (b : Nat × Nat) : RceRt :=
  { r with run := none, cycles := (r.cycles + 32 + n + esc + b.2) % 2 ^ 64, symbols := (r.symbols + n) % 2 ^ 32
           escapes := (r.escapes + esc) % 2 ^ 32, builds := (r.builds + b.1) % 2 ^ 32
           buildCycles := (r.buildCycles + b.2) % 2 ^ 32 }

/-- A substream has ended; after the last one the assembling RCE has one further request. -/
def State.subDone (x : Submit) (i : Nat) (out : SubOut) (s : State) : State :=
  let s := s.modJob x.ord (fun j => { j with subs := setAt j.subs i (some out) })
  match s.job? x.ord with
  | some j => if j.subs.all (·.isSome) then s.ask x 16 x.eng else s
  | none => s

/-- Ranges that a substream reads beside the frame. -/
def State.subReads (s : State) (x : Submit) (lo hi : Nat) : List (Nat × Nat) :=
  let j := x.job
  [(j.sig + lo, hi - lo)] ++ (if j.table then [] else [(j.mu + 2 * lo, 2 * (hi - lo))]) ++ s.tableRanges x lo hi

/-- The RCE codes the substream in hand of an ENCODE job. -/
def State.encodeRun (r : Nat) (s : State) : State :=
  match s.running r with
  | none => s
  | some (q, j) =>
    let x := j.from_
    if x.job.op != 1 || decide (16 ≤ q.sub) then s
    else
      let (lo, hi) := subRange x.job.k x.job.subs q.sub
      match s.jobPoison x ([(x.job.y + 2 * lo, 2 * (hi - lo))] ++ s.subReads x lo hi) with
      | some w => s.jobPoisoned x w
      | none =>
        let (out, esc) := encodeSub ((s.elems x lo hi).zip (s.jobY x lo hi))
        let b := s.buildsOf x lo hi
        let chk := agreeBytes (s.jobSig x lo hi) (s.jobMu x lo hi)
        (s.modRce r (fun c => c.count (hi - lo) esc b)).subDone x q.sub { out := out, chk := chk }

/-- AGREEMENT_FAIL of a decode (R283). -/
def State.agreeFail (r : Nat) (x : Submit) (reason sub : Nat) (s : State) : State :=
  let detail := reason + 16 * sub + 256 * r
  let s := s.modRce r (fun c => { c with run := none, fails := sat1 16 c.fails, lastReason := reason })
  let ten := match s.task? x.task with | some t => t.tenant | none => noTenant
  ((s.emit (0x50 + r) 10 1 ten 2 [detail, x.isl]).dropJob x).slotFault x.isl x.slot 0x51 detail

/-- The frame of a decode job. -/
def State.frameOfJob (s : State) (x : Submit) : Bytes := (s.jobShelf x).read x.job.frame x.job.cap

/-- Where substream i lies in the frame, as offset and length. -/
def subPlace (b : Bytes) (i : Nat) : Nat × Nat :=
  let n := leAt b 3 1
  let size := fun k => leAt b (16 + 4 * k) 4
  (16 + 4 * n + ((List.range i).map size).sum, size i)

/-- The checks of R282. -/
def State.checkRun (r : Nat) (x : Submit) (s : State) : State :=
  let j := x.job
  let nc := s.numeric x.room
  let head := [(j.frame, min j.cap (16 + 4 * leAt (s.frameOfJob x) 3 1))]
  match s.jobPoison x (head ++ s.subReads x 0 j.k) with
  | some w => s.jobPoisoned x w
  | none =>
    let s := s.modRce r (fun c =>
      { c with run := none, checks := wrap1 32 c.checks, cycles := (c.cycles + 16 + cdiv (3 * j.k) 16) % 2 ^ 64 })
    match hcfParse nc.rcv j.fam j.k j.cap (s.frameOfJob x) with
    | none => s.agreeFail r x 2 0
    | some (ftab, chk, subs) =>
      if ftab != nc.ftab then s.agreeFail r x 3 0
      else if chk != agreement (s.jobSig x 0 j.k) (s.jobMu x 0 j.k) then s.agreeFail r x 1 0
      else
        let b := s.frameOfJob x
        (s.modJob x.ord (fun j =>
          { j with subs := List.replicate subs.length none, places := (List.range subs.length).map (subPlace b),
                   len := leAt b 0xC 4 })).askSubs x subs.length

/-- The RCE runs the checks of a DECODE job, or decodes the substream in hand. -/
def State.decodeRun (r : Nat) (s : State) : State :=
  match s.running r with
  | none => s
  | some (q, j) =>
    let x := j.from_
    if x.job.op != 2 then s
    else if q.sub = 17 then s.checkRun r x
    else if 16 ≤ q.sub then s
    else
      let (lo, hi) := subRange x.job.k j.subs.length q.sub
      let (off, len) := (j.places[q.sub]?).getD (0, 0)
      match s.jobPoison x ([(x.job.frame + off, len)] ++ s.subReads x lo hi) with
      | some w => s.jobPoisoned x w
      | none =>
        let (ys, esc, ok) := decodeSub (s.elems x lo hi) ((s.jobShelf x).read (x.job.frame + off) len)
        let met := if ok then hi else min hi (lo + ys.length + 1)
        let bs := s.buildsOf x lo met
        let s := s.modRce r (fun c => c.count ys.length esc bs)
        if ok then s.subDone x q.sub { out := ys.flatMap (fun y => le 2 (wrapN 16 y)), chk := [] } else s.agreeFail r x 4 q.sub

/-- The assembling RCE assembles the frame, with CHECK over the arrays the substreams were coded with (R281), or hands over the
latents, and writes STATUS and LEN. -/
def State.assemble (r : Nat) (s : State) : State :=
  match s.running r with
  | none => s
  | some (q, j) =>
    let x := j.from_
    let nc := s.numeric x.room
    if q.sub != 16 then s
    else
      let subs := j.subs.filterMap id
      let parts := subs.map (·.out)
      if x.job.op = 1 then
        let f := hcfFrame nc.rcv x.job.fam nc.ftab (crc16 (subs.flatMap (·.chk))) x.job.k parts
        let s := s.modRce r (fun c =>
          { c with run := none, cycles := (c.cycles + 16 + cdiv f.length 64 + cdiv (3 * x.job.k) 16) % 2 ^ 64 })
        if decide (x.job.cap < f.length) || parts.any (fun p => decide (2 ^ 24 < p.length)) then s.jobEnd x 4 0
        else (s.modShelf x.isl (fun st => st.write wordB x.job.frame f)).jobEnd x 0 f.length
      else
        let s := s.modRce r (fun c => { c with run := none })
        (s.modShelf x.isl (fun st => st.write wordB x.job.y parts.flatten)).jobEnd x 0 j.len

/-! ### Restarts (R285, Table 5-3) -/

/-- What the restart of an engine does beside its counters: the event, the suspicion, breaks of Level T timing, and the
end of the task it served. -/
def State.engineRestart (u : Nat) (served : Option (Nat × Nat)) (s : State) : State :=
  let ten := match served with
    | some (n, k) => (match s.task? (s.slot n k).task with | some t => t.tenant | none => noTenant)
    | none => noTenant
  let s := (s.emit u 10 2 ten 3 [u]).suspect u 5
  let s := ((s.roomsOn u).filter s.levelT).foldl (fun s m => s.timingBreak m 4) s
  match served with
  | some (n, k) => s.slotFault n k 0x7F 0
  | none => s

/-- An error inside an RCE ends the task of the request in hand, whose job is given up (R285). -/
def State.rceRestart (r : Nat) (s : State) : State :=
  let served := (s.running r).map (fun p => p.2.from_)
  let s := s.modRce r (fun c => { c with run := none, restarts := sat1 16 c.restarts
                                         lastRoom := match served with | some x => x.room | none => c.lastRoom })
  let s := match served with | some x => s.dropJob x | none => s
  s.engineRestart (0x50 + r) (served.map (fun x => (x.isl, x.slot)))

/-! ### Registers (Table 13-5) -/

def CodeReq.kind (q : CodeReq) (op : Nat) : Nat := if q.sub = 16 then 2 else if q.sub = 17 then 3 else op - 1

def State.readRce (s : State) (n off : Nat) : Word :=
  let r := s.rceRt n
  if off = 0 then
    let waits := sat 5 (s.eng.reqs.filter (fun q => q.rce == n)).length
    let run := match s.running n with
      | some (q, j) => [(0, 1, 1), (2, 2, q.kind j.from_.job.op), (4, 6, j.from_.room)]
      | none => []
    packW ([(1, 1, b2n (s.pacedOn (0x50 + n))), (16, 5, waits)] ++ run)
  else if off = 8 then BitVec.ofNat 64 r.cycles
  else if off = 0x10 then packW [(0, 32, r.symbols), (32, 32, r.escapes)]
  else if off = 0x18 then packW [(0, 32, r.builds), (32, 32, r.buildCycles)]
  else if off = 0x20 then packW [(0, 32, r.checks), (32, 16, r.fails), (48, 4, r.lastReason)]
  else if off = 0x28 then packW [(0, 16, r.restarts), (16, 6, r.lastRoom), (32, 16, r.jobErr)]
  else if off = 0x30 then packW [(0, 8, 1), (8, 2, if s.b0 then 3 else 1)]
  else 0

/-! ### Commands -/

def execRceJobSubmit (isl : IslN) (slot : SlotN) (ord : Nat) (s : State) : Answer := .next (s.jobSubmit isl slot ord)
def execEncode (rce : Rce) (s : State) : Answer := .next (s.encodeRun rce)
def execDecode (rce : Rce) (s : State) : Answer := .next (s.decodeRun rce)
def execSubstreamRequest (rce : Rce) (s : State) : Answer := .next (s.takeReq rce)
def execFrameAssembly (rce : Rce) (s : State) : Answer := .next (s.assemble rce)
def execRceRestart (rce : Rce) (s : State) : Answer := .next (s.rceRestart rce)

end Sys2Proof.Machine
end

