-- ==== Sys2Proof/Machine/Grid.lean ====
section
/-! DEFINITION. Crates and the Grid (R158–R178): the CRATE and GRID instructions and their checks, crate transfers, and
a Grid operation row-step by row-step, with poison, flags, traps and residue mismatches. -/

namespace Sys2Proof.Machine

open Sys2Proof

/-! ### Crate states (R165–R168) -/

def crEmpty : Nat := 1
def crBusy : Nat := 2
def crNotMapped : Nat := 3
def crFormat : Nat := 4
def crOperand : Nat := 6

def State.crateFault (n k crate reason : Nat) (s : State) : State := s.raiseAt n k excCrate (crateTval crate reason)

def Slot.isFull (x : Slot) (c : Nat) : Bool := x.full.contains c
def Slot.isMapped (x : Slot) (c : Nat) : Bool := x.maps.any (fun m => m.1 == c)

/-- The crates an operation names. -/
def Xfer.names (x : Xfer) (c : Nat) : Bool := x.crate == c
def GridOp.view (g : GridOp) : List Nat := [2 * g.av, 2 * g.av + 1]
def GridOp.reads (g : GridOp) : List Nat := [g.acr, g.bcr] ++ g.scale.toList
def GridOp.names (g : GridOp) (c : Nat) : Bool := g.view.contains c || g.reads.contains c
/-- A transfer and a Grid operation share rows that one of them writes (R169). -/
def Xfer.clashes (x : Xfer) (g : GridOp) : Bool := if x.store then g.view.contains x.crate else g.names x.crate

/-- A vector program of the slot may reach any crate by its location (R221). -/
def Isl.vecPending (i : Isl) (k : Nat) : Bool := i.vec.any (fun v => v.slot == k)

/-- An earlier operation of the slot that names the crate has not completed (R169, R221). -/
def Isl.crateBusy (i : Isl) (k c : Nat) : Bool :=
  i.xfers.any (fun x => x.slot == k && x.names c) || i.grid.any (fun g => g.slot == k && g.names c) || i.vecPending k

/-- The crates of a slot stand in the crate unit, for operations already issued. -/
def Isl.standing (i : Isl) (k : Nat) : Bool :=
  i.owner == k && !(i.slots.any (fun e => e.1 == k && !e.2.saved.isEmpty))

def crateWord (cr rs1 rs2 : Reg) (fn : Nat) (p6 : Bool) : Nat := wR 10 cr.val rs1.val rs2.val (fn + 8 * b2n p6)

/-- CRATE instruction of the running slot; a crate number of 16–31 is ILLEGAL (R166). -/
def State.onCrate (n : Nat) (cr rs1 rs2 : Reg) (fn : Nat) (p6 : Bool) (f : Nat → Nat → State → State) (s : State) : State :=
  s.onSteward n (fun k s => if cr.val < 16 then f k cr.val s else s.illegal n k (crateWord cr rs1 rs2 fn p6))

def Slot.fill (x : Slot) (c : Nat) : Slot := { x with full := insN c x.full }
def Slot.release (x : Slot) (c : Nat) : Slot :=
  { x with full := x.full.filter (· != c), maps := x.maps.filter (fun m => m.1 != c) }

/-- Bytes of a Shelf row: 128, or 96 packed (R166). -/
def rowB (p6 : Bool) : Nat := if p6 then 96 else 128

/-- CRATE.LOAD and CRATE.STORE: operand word, overlay, EMPTY, alignment, access, in that order. -/
def State.crateXfer (n : Nat) (cr rs1 rs2 : Reg) (p6 st : Bool) (s : State) : State :=
  s.onCrate n cr rs1 rs2 (b2n st) p6 (fun k c s =>
    let a := (s.greg n k rs1).toNat
    let x := s.slot n k
    match RowWord.of (s.greg n k rs2) with
    | none => s.crateFault n k 0 crOperand
    | some r =>
      if x.isMapped c then s.crateFault n k c crBusy
      else if st && !x.isFull c then s.crateFault n k c crEmpty
      else if a % 8 != 0 then s.raiseAt n k excMisaligned a
      else
        let rows := (List.range r.count).map (fun i => a + i * r.stride)
        let ok := fun u => if st then s.canStore n k u (rowB p6) else s.canLoad n k u (rowB p6)
        match rows.find? (fun u => !ok u) with
        | some u => s.raiseAt n k excAccess u
        | none =>
          let i := s.island n
          let t : Xfer := { slot := k, store := st, crate := c, addr := a, stride := r.stride, first := r.first,
                            count := r.count, p6 := p6, fresh := !st && !x.isFull c, ord := i.ord, epc := x.pc,
                            done := false, moved := false }
          (s.modIsl n (fun i => { i with xfers := i.xfers ++ [t], ord := i.ord + 1 })).retire n k
            (fun x => if st then x else x.fill c))

/-- CRATE.ZERO. -/
def State.crateZero (n : Nat) (cr : Reg) (s : State) : State :=
  s.onCrate n cr 0 0 2 false (fun k c s =>
    if (s.slot n k).isMapped c then s.crateFault n k c crBusy
    else if !(s.island n).inPlace k || (s.island n).crateBusy k c then s
    else (s.modCrate n c (fun _ => .empty)).retire n k (fun x => x.fill c))

/-- CRATE.RELEASE: EMPTY, and no overlay. -/
def State.crateRelease (n : Nat) (cr : Reg) (s : State) : State :=
  s.onCrate n cr 0 0 3 false (fun k c s =>
    if !(s.island n).inPlace k || (s.island n).crateBusy k c then s else s.retire n k (fun x => x.release c))

/-- CRATE.MAP: a page of the stack window or of the working pages (R134, R166, R167). -/
def State.crateMap (n : Nat) (cr rs1 : Reg) (s : State) : State :=
  s.onCrate n cr rs1 0 4 false (fun k c s =>
    let a := (s.greg n k rs1).toNat
    let x := s.slot n k
    if x.isMapped c || decide (2 ≤ x.maps.length) then s.crateFault n k c crBusy
    else if a % 4096 != 0 then s.raiseAt n k excMisaligned a
    else if !s.canStore n k a 4096 then s.raiseAt n k excAccess a
    else if !(s.island n).inPlace k || (s.island n).crateBusy k c then s
    else
      let s := if x.isFull c then s else s.modCrate n c (fun _ => .empty)
      s.retire n k (fun x => let y := x.fill c; { y with maps := y.maps ++ [(c, a)] }))

/-- CRATE.UNMAP. -/
def State.crateUnmap (n : Nat) (cr : Reg) (s : State) : State :=
  s.onCrate n cr 0 0 5 false (fun k c s =>
    if !(s.slot n k).isMapped c then s.crateFault n k c crNotMapped
    else if !(s.island n).inPlace k || (s.island n).crateBusy k c then s
    else s.retire n k (fun x => { x with maps := x.maps.filter (fun m => m.1 != c) }))

/-! ### Transfers (R166, R169, R176) -/

/-- The 128 bytes that a packed row of 96 spells: element e in byte e. -/
def unpack6 (b : Bytes) : Bytes :=
  let w := unle b
  (List.range 128).map (fun e => BitVec.ofNat 8 (nfld w (6 * e) 6))

/-- The 96 bytes that the low six bits of 128 pack into. -/
def pack6 (b : Bytes) : Bytes :=
  le 96 (b.zipIdx.foldl (fun w x => w + x.1.toNat % 64 * 2 ^ (6 * x.2)) 0)

/-- Poisoned parts carried through the packing: an element is poisoned when any of its bits lies in a poisoned part. -/
def badUnpack (bad : List (Nat × Nat)) : List (Nat × Nat) :=
  bad.map (fun x => let lo := 8 * x.1 / 6; let hi := min 128 (cdiv (8 * (x.1 + x.2)) 6); (lo, hi - lo))
def badPack (bad : List (Nat × Nat)) : List (Nat × Nat) :=
  bad.map (fun x => let lo := 6 * x.1 / 8; let hi := min 96 (cdiv (6 * (x.1 + x.2)) 8); (lo, hi - lo))

def loadRow (sh : Store) (x : Xfer) (cr : Store) (i : Nat) : Store :=
  let a := x.addr + i * x.stride
  let b := sh.read a (rowB x.p6)
  let bad := sh.badIn wordB a (rowB x.p6)
  cr.land wordB ((x.first + i) * 128) (if x.p6 then unpack6 b else b) (if x.p6 then badUnpack bad else bad)

def storeRow (cr : Store) (x : Xfer) (sh : Store) (i : Nat) : Store :=
  let o := (x.first + i) * 128
  let b := cr.read o 128
  let bad := cr.badIn wordB o 128
  sh.land wordB (x.addr + i * x.stride) (if x.p6 then pack6 b else b) (if x.p6 then badPack bad else bad)

def State.modXfer (n ord : Nat) (f : Xfer → Xfer) (s : State) : State :=
  s.modIsl n (fun i => { i with xfers := i.xfers.map (fun x => if x.ord = ord then f x else x) })

/-- Every row of a transfer moves, with its poison (R166, R176). -/
def State.moveRows (n : Nat) (x : Xfer) (s : State) : State :=
  let i := s.island n
  let cr := i.crate x.crate
  let s := if x.store then s.modShelf n (fun sh => (List.range x.count).foldl (storeRow cr x) sh)
    else s.modCrate n x.crate (fun cr => (List.range x.count).foldl (loadRow i.shelf x) (if x.fresh then .empty else cr))
  s.modXfer n x.ord (fun x => { x with moved := true })

/-- Rows of a transfer wait: an earlier transfer of the slot has not moved its own, or an earlier Grid operation on the crate, or for a
load an earlier vector program, has not completed (R169, R221). -/
def Isl.heldBack (i : Isl) (x : Xfer) : Bool :=
  i.xfers.any (fun y => y.slot == x.slot && !y.moved && decide (y.ord < x.ord))
    || i.grid.any (fun g => g.slot == x.slot && decide (g.ord < x.ord) && x.clashes g)
    || (!x.store && i.vec.any (fun v => v.slot == x.slot && decide (v.ord < x.ord)))

/-- Completed transfers of a slot move their rows as soon as nothing holds them back, and leave the queue. -/
def State.settle (n k : Nat) (s : State) : State :=
  let s := ((s.island n).xfers.filter (fun x => x.slot == k && x.done && !x.moved)).foldl (fun s x =>
    if (s.island n).heldBack x then s else s.moveRows n x) s
  s.modIsl n (fun i => { i with xfers := i.xfers.filter (fun x => !(x.done && x.moved)) })

/-- A transfer completes, in the order of its task's transfers (R138) and behind every earlier Grid operation that shares a row with
it and has not entered the array (R169). -/
def State.xferDone (n ord : Nat) (errs : List CrateErr) (s : State) : State :=
  let i := s.island n
  match i.xfers.find? (fun x => x.ord == ord && !x.done) with
  | none => s
  | some x =>
    if i.xfers.any (fun y => y.slot == x.slot && !y.done && decide (y.ord < ord))
        || i.grid.any (fun g => g.slot == x.slot && decide (g.ord < ord) && x.clashes g && !g.started) || !i.standing x.slot then s
    else ((s.crateEcc n x.slot errs).modXfer n ord (fun x => { x with done := true })).settle n x.slot

/-- Row-steps of a Grid operation have read and written every row it shares with earlier transfers, so those have moved (R169). -/
def State.pullRows (n : Nat) (g : GridOp) (s : State) : State :=
  let mine := (s.island n).xfers.filter (fun x => x.slot == g.slot && decide (x.ord < g.ord))
  let last : Nat := (mine.filter (fun x => g.names x.crate)).foldl (fun a x => max a (x.ord + 1)) 0
  ((mine.filter (fun x => decide (x.ord < last) && !x.moved)).foldl (fun s x => s.moveRows n x) s).settle n g.slot

/-! ### GRID instructions (R160, R166, R167) -/

/-- The format pair of a format word that a room may use. -/
def fmtPair (nc : NumericCfg) (w : Word) : Option (Nat × Nat) :=
  let a := fld w 0 4
  let b := fld w 4 4
  let ok := fun c => match Fmt.ofCode c with | some f => f.allowed nc.family | none => false
  if fld w 8 56 = 0 && ok a && ok b && nc.mode != 2 then some (a, b) else none

def State.slotNumeric (s : State) (n k : Nat) : NumericCfg :=
  match s.task? (s.slot n k).task with | some t => s.numeric t.room | none => .default

def State.gridFmt (n : Nat) (rs1 : Reg) (s : State) : State :=
  s.onSteward n (fun k s =>
    match fmtPair (s.slotNumeric n k) (s.greg n k rs1) with
    | some p => s.retire n k (fun x => { x with fmt := some p })
    | none => s.crateFault n k 0 crFormat)

def fmtOf (c : Nat) : Fmt := (Fmt.ofCode c).getD .int8
/-- Groups per row of a code (Table 8-1). -/
def groupsOf (f : Fmt) : Nat := if f.bits = 16 then 2 else if f.bits = 4 then 8 else 4
/-- Bytes of a group in a crate row (R162). -/
def groupB (f : Fmt) : Nat := 128 / groupsOf f

def mxPair (fa fb : Nat) : Bool := (fmtOf fa).isMx || (fmtOf fb).isMx

/-- A crate of the view that is also an operand or scale crate (R167). -/
def OpWord.viewCrate (w : OpWord) : Option Nat :=
  ([w.acr, w.bcr] ++ w.scale.toList).find? (fun c => [2 * w.av, 2 * w.av + 1].contains c)

/-- OPERAND conditions of R167. -/
def operandBad (fa fb : Nat) (w : OpWord) : Bool :=
  !w.zero || decide (groupsOf (fmtOf fa) < w.ag + w.depth) || decide (groupsOf (fmtOf fb) < w.bg + w.depth)
    || w.viewCrate.isSome || (mxPair fa fb && w.scale.isNone)

/-- The crate that an OPERAND fault concerns: the crate of the view that the operation also reads, where that is the first condition of
R167 to hold; otherwise none, which is 0 (R168). -/
def operandCrate (fa fb : Nat) (w : OpWord) : Nat :=
  if !w.zero || decide (groupsOf (fmtOf fa) < w.ag + w.depth) || decide (groupsOf (fmtOf fb) < w.bg + w.depth) then 0
  else w.viewCrate.getD 0

/-- Earlier crate, Grid or vector operations of the slot have not completed. -/
def Isl.slotBusy (i : Isl) (k : Nat) : Bool :=
  i.xfers.any (fun x => x.slot == k) || !i.grid.isEmpty || i.vecPending k

/-- GRID.MM and GRID.MMA. -/
def State.gridOp (n : Nat) (mma : Bool) (rs1 : Reg) (s : State) : State :=
  s.onSteward n (fun k s =>
    let x := s.slot n k
    let w := OpWord.of (s.greg n k rs1)
    match x.fmt with
    | none => s.crateFault n k 0 crFormat
    | some (fa, fb) =>
      if operandBad fa fb w then s.crateFault n k (operandCrate fa fb w) crOperand
      else
        let scale := if mxPair fa fb then w.scale else none
        let view := [2 * w.av, 2 * w.av + 1]
        let named := [w.acr, w.bcr] ++ w.scale.toList ++ view
        let reads := [w.acr, w.bcr] ++ scale.toList ++ (if mma then view else [])
        match named.find? x.isMapped with
        | some c => s.crateFault n k c crBusy
        | none =>
          match reads.find? (fun c => !x.isFull c) with
          | some c => s.crateFault n k c crEmpty
          | none =>
            if 8 ≤ (s.island n).grid.length then s
            else
              let g : GridOp :=
                { slot := k, mma := mma, fa := fa, fb := fb, acr := w.acr, bcr := w.bcr, av := w.av, scale := scale,
                  ag := w.ag, bg := w.bg, depth := w.depth, ord := (s.island n).ord, epc := x.pc, started := false, row := 0,
                  late := (s.island n).slotBusy k, swapped := !(s.island n).inPlace k }
              (s.modIsl n (fun i => { i with grid := i.grid ++ [g], ord := i.ord + 1 })).retire n k
                (fun x => (x.fill (2 * w.av)).fill (2 * w.av + 1)))

/-! ### Row-steps (R158, R177, R203, R205) -/

/-- The codes of a group in row r of an operand crate (R162). -/
def groupCodes (f : Fmt) (cr : Store) (row g : Nat) : List Nat :=
  let b := (cr.read (row * 128 + g * groupB f) (groupB f)).map (·.toNat)
  match f.bits with
  | 4 => b.flatMap (fun x => [x % 16, x / 16])
  | 6 => b.map (· % 64)
  | 16 => (List.range 32).map (fun e => (b[2 * e]?).getD 0 + 256 * (b[2 * e + 1]?).getD 0)
  | _ => b

/-- What a Grid operation is working on. -/
structure GridRun where
  crates : NMap Store
  flags : Flags
  rows : Nat
  /-- Stopped: some with the location of poison, or a trapped flag. -/
  stop : Option (Option Nat)
  deriving DecidableEq, Repr

def GridRun.crate (r : GridRun) (c : Nat) : Store := NMap.getD r.crates c .empty

/-- First poisoned word of ranges of crates, as a crate location. -/
def firstPoison (r : GridRun) (ranges : List (Nat × Nat × Nat)) : Option Nat :=
  ranges.findSome? (fun x => ((r.crate x.1).poisonIn wordB x.2.1 x.2.2).map (fun u => crateLoc x.1 u))

/-- The words a row-step reads, in the order of R177. -/
def rowReads (g : GridOp) (d i : Nat) : List (Nat × Nat × Nat) :=
  let fa := fmtOf g.fa
  let fb := fmtOf g.fb
  let b := (List.range 32).map (fun j => (g.bcr, j * 128 + (g.bg + d) * groupB fb, groupB fb))
  let a := [(g.acr, i * 128 + (g.ag + d) * groupB fa, groupB fa)]
  let sc := match g.scale with
    | some c => (List.range 32).flatMap (fun r =>
        (if fa.isMx && r == i then [(c, r * 128, 8)] else []) ++ (if fb.isMx then [(c, r * 128 + 8, 8)] else []))
    | none => []
  let acc := if g.mma || d != 0 then [(2 * g.av, i * 128, 128), (2 * g.av + 1, i * 128, 128)] else []
  b ++ a ++ sc ++ acc

/-- A scale of group gr of row r, of operand A (0) or B (8). -/
def scaleOf (g : GridOp) (st : GridRun) (side r gr : Nat) : Nat :=
  match g.scale with
  | some c => (Mem.byte (st.crate c).mem (r * 128 + side + gr)).toNat
  | none => 127

/-- The 32 rows of B of a group, decoded, with the flags of loading them. -/
def bGroups (mode : Nat) (g : GridOp) (st : GridRun) (d : Nat) : List (List Val) × Flags :=
  let f := fmtOf g.fb
  let rows := (List.range 32).map (fun j => gridGroup f mode (scaleOf g st 8 j (g.bg + d)) (groupCodes f (st.crate g.bcr) j (g.bg + d)))
  (rows.map (·.1), rows.foldl (fun x r => x ||| r.2) 0)

/-- One row-step: 32 group sums added into row i of the view; poison writes nothing; a trapped flag stops after its
writes (R177, R214). -/
def rowStep (mode traps : Nat) (g : GridOp) (d : Nat) (bs : List (List Val)) (bfl : Flags) (st : GridRun) (i : Nat) : GridRun :=
  if st.stop.isSome then st
  else match firstPoison st (rowReads g d i) with
    | some loc => { st with stop := some (some loc), rows := st.rows + 1 }
    | none =>
      let f := fmtOf g.fa
      let (a, afl) := gridGroup f mode (scaleOf g st 0 i (g.ag + d)) (groupCodes f (st.crate g.acr) i (g.ag + d))
      let sums := (bs.zipIdx).map (fun (b, j) =>
        let (v, f1) := dotGroup a b
        let old := leAt ((st.crate (2 * g.av + j / 16)).read (i * 128 + 8 * (j % 16)) 8) 0 8
        let (x, f2) := (if g.mma || d != 0 then accVal old else .fin false 0 0).add v
        let (r, f3) := toAcc x
        (r, f1 ||| f2 ||| f3))
      let fl := (if i = 0 then bfl else 0) ||| afl ||| sums.foldl (fun x r => x ||| r.2) 0
      let put := fun (c : Nat) (part : List (Nat × Flags)) (m : NMap Store) =>
        NMap.upd m c .empty (fun cr => cr.write wordB (i * 128) (part.flatMap (fun r => le 8 r.1)))
      let crates := put (2 * g.av + 1) (sums.drop 16) (put (2 * g.av) (sums.take 16) st.crates)
      { crates := crates, flags := st.flags ||| fl, rows := st.rows + 1
        stop := if (trapped traps (placeFlags engGrid fl)).isSome then some none else none }

/-- Row-steps from one to before another. -/
def gridRows (mode traps : Nat) (g : GridOp) (lo hi : Nat) (st : GridRun) : GridRun :=
  (List.range g.depth).foldl (fun st d =>
    let rows := (List.range 32).filter (fun i => decide (lo ≤ 32 * d + i) && decide (32 * d + i < hi))
    if rows.isEmpty || st.stop.isSome then st
    else
      let (bs, bfl) := bGroups mode g st d
      rows.foldl (rowStep mode traps g d bs bfl) st) st

/-- Cycles of a row-step (R159). -/
def GridOp.rate (g : GridOp) : Nat := if (fmtOf g.fa).bits = 16 ∨ (fmtOf g.fb).bits = 16 then 4 else 1

/-- The Restart path of a room (R173). -/
def State.restarts (s : State) (m : Nat) : Bool :=
  match s.roomCfg? m with | some r => r.level == 2 || r.restart | none => false

/-! ### Operations (R161, R169, R172–R175) -/

/-- A Grid operation may not enter its first row-step yet: an earlier load that brings the B rows, or their scales, is still running;
or on the Restart path an earlier operation writes a view that it reads (R161, R169). -/
def State.gridOwed (s : State) (n : Nat) (g : GridOp) : Bool :=
  let i := s.island n
  let rows := [g.bcr] ++ (if (fmtOf g.fb).isMx then g.scale.toList else [])
  let path := match s.task? (s.slot n g.slot).task with | some t => s.restarts t.room | none => false
  i.xfers.any (fun x => x.slot == g.slot && decide (x.ord < g.ord) && !x.done && !x.store && rows.contains x.crate)
    || (path && i.grid.any (fun h => h.slot == g.slot && decide (h.ord < g.ord)
      && h.view.any (fun c => g.reads.contains c || (g.mma && g.view.contains c))))

/-- The next operation of the queue enters its first row-step, once every earlier one has entered. A load of its A rows may still be
running, and so may the operation before it (R161). Cycles that it waited are free, where it may have waited. -/
def State.gridStart (n : Nat) (s : State) : State :=
  let i := s.island n
  match i.grid.find? (fun g => !g.started) with
  | none => s
  | some g =>
    if s.gridOwed n g || !i.standing g.slot then s
    else
      let (a, s) := if g.late then s.draw else (0, s)
      let (b, s) := if g.swapped then s.draw else (0, s)
      s.modIsl n (fun i =>
        { i with grid := i.grid.map (fun h => if h.ord = g.ord then { h with started := true } else h)
                 opndStall := (i.opndStall + a.toNat) % 2 ^ 32, swapStall := (i.swapStall + b.toNat) % 2 ^ 32 })

/-- A residue mismatch: counted, logged, and reported to RAS (R172). -/
def State.mismatch (n : Nat) (ten : Nat) (s : State) : State :=
  ((s.modIsl n (fun i => { i with resMis := sat1 16 i.resMis })).emit (0x10 + n) 8 1 ten 2 [0x10 + n]).suspect (0x10 + n) 1

def State.popGrid (n ord : Nat) (s : State) : State :=
  s.modIsl n (fun i => { i with grid := i.grid.filter (fun g => g.ord != ord) })

/-- What a run of row-steps leaves: the crates, the cycles, the flags; and the end of the task on poison. -/
def State.gridEnd (n : Nat) (g : GridOp) (restart : Bool) (old : NMap Store) (r : GridRun) (s : State) : State :=
  let crates := if restart && r.stop.isSome then old else r.crates
  let s := s.modIsl n (fun i => { i with crates := crates, gridCycles := (i.gridCycles + r.rows * g.rate) % 2 ^ 64 })
  let s := ((s.popGrid n g.ord).settle n g.slot).raiseFlags n g.slot g.epc (placeFlags engGrid r.flags)
  match r.stop with
  | some (some loc) => (s.modIsl n (fun i => { i with crPoison := sat1 16 i.crPoison })).poisoned n g.slot g.epc loc
  | _ => s

/-- The head operation completes. `res` is what the residue checks saw (R172): a first mismatch is retried on the
room's path, a second ends the task. A row-step that fails its check has occupied the array. -/
def State.gridDone (n : Nat) (res : Residue) (errs : List CrateErr) (s : State) : State :=
  let i := s.island n
  match i.grid with
  | [] => s
  | g :: _ =>
    if !g.started || !i.standing g.slot then s
    else match s.task? (s.slot n g.slot).task with
      | none => s.popGrid n g.ord
      | some t =>
        let s := (s.pullRows n g).crateEcc n g.slot errs
        let i := s.island n
        let nc := s.numeric t.room
        let total := 32 * g.depth
        let restart := s.restarts t.room
        let run0 : GridRun := { crates := i.crates, flags := 0, rows := 0, stop := none }
        let at_ := if s.residueOff then none else match res with
          | .clean => none
          | .once r => if r < total then some (r, none) else none
          | .twice r q => if r < total then some (r, some (min (total - 1) (if restart then q else max r q))) else none
        match at_ with
        | none => s.gridEnd n g restart i.crates (gridRows nc.mode nc.traps g 0 total run0)
        | some (r, again) =>
          let first := gridRows nc.mode nc.traps g 0 r run0
          if first.stop.isSome then s.gridEnd n g restart i.crates first
          else
            let s := s.mismatch n t.tenant
            let s := if s.levelT t.room then s.timingBreak t.room 1 else s
            let s := if restart then s else s.modIsl n (fun i =>
              { i with startRows := NMap.set i.startRows g.slot r
                       slots := NMap.upd i.slots g.slot .reset (fun x => { x with startRow := r }) })
            let retry := if restart then { run0 with flags := first.flags, rows := first.rows + 1 } else { first with rows := first.rows + 1 }
            let upTo := fun (hi : Nat) => gridRows nc.mode nc.traps g (if restart then 0 else r) hi retry
            match again with
            | some q =>
              let second := upTo q
              if second.stop.isSome then s.gridEnd n g restart i.crates second
              else
                let s := (s.mismatch n t.tenant).modIsl n (fun i =>
                  { i with resFailed := sat1 16 i.resFailed, crates := if restart then i.crates else second.crates
                           gridCycles := (i.gridCycles + (second.rows + 1) * g.rate) % 2 ^ 64 })
                (((s.popGrid n g.ord).stickFlags n g.slot (placeFlags engGrid second.flags))).slotFault n g.slot 0x7F (0xA1 + n * 256)
            | none =>
              let whole := upTo total
              let s := if whole.stop.isSome then s else s.modIsl n (fun i => { i with resRetried := sat1 16 i.resRetried })
              s.gridEnd n g restart i.crates whole

/-! ### Registers (Table 8-7) -/

/-- The row-step at which the array stands when a read looks: at or past the one seen before. -/
def State.seeRow (n : Nat) (s : State) : State :=
  match (s.island n).grid with
  | g :: rest =>
    if g.started then
      let (v, s) := s.draw
      s.modIsl n (fun i => { i with grid := { g with row := g.row + v.toNat % max 1 (32 * g.depth - g.row) } :: rest })
    else s
  | [] => s

/-- A Grid or crate register, by its offset in the ISL page; the row-step in the array is a matter of time. -/
def State.readGrid (n off : Nat) (s : State) : Word × State :=
  let s := if off = 0x200 then s.seeRow n else s
  let i := s.island n
  let w : Word :=
    if off = 0x200 then
      let path := match s.roomOf n with | some m => b2n (s.restarts m) | none => 0
      match i.grid with
      | g :: _ => packW [(0, 1, b2n g.started), (1, 1, path), (4, 4, if g.started then g.slot else 0),
                         (8, 8, if g.started then g.row else 0), (16, 3, if g.started then g.depth - 1 else 0),
                         (24, 4, i.grid.length)]
      | [] => packW [(1, 1, path)]
    else if off = 0x208 then BitVec.ofNat 64 i.gridCycles
    else if off = 0x210 then packW [(0, 32, i.opndStall), (32, 32, i.swapStall)]
    else if off = 0x218 then packW [(0, 16, i.resMis), (16, 16, i.resRetried), (32, 16, i.resFailed)]
    else if off = 0x220 then
      let x := NMap.getD i.slots i.owner .reset
      packW ((x.full.map (fun c => (c, 1, 1))) ++ (x.maps.map (fun m => (16 + m.1, 1, 1)))
        ++ [(32, 4, i.owner), (36, 1, b2n !i.swapTo.isEmpty)])
    else if off = 0x228 then packW [(0, 32, i.crCorr), (32, 16, i.crUncorr), (48, 16, i.crPoison)]
    else if off = 0x230 then packW ((List.range 8).map (fun k => (8 * k, 8, NMap.getD i.startRows k 0)))
    else if off = 0x238 then packW ((List.range 8).map (fun k => (8 * k, 8, NMap.getD i.startRows (8 + k) 0)))
    else if off = 0x240 then packW [(0, 32, i.swSaved), (32, 32, i.swRestored)]
    else 0
  (w, s)

/-! ### Commands -/

def execCrateLoad (isl : IslN) (cr rs1 rs2 : Reg) (p6 : Bool) (s : State) : Answer :=
  .next (s.crateXfer isl cr rs1 rs2 p6 false)
def execCrateStore (isl : IslN) (cr rs1 rs2 : Reg) (p6 : Bool) (s : State) : Answer :=
  .next (s.crateXfer isl cr rs1 rs2 p6 true)
def execCrateZero (isl : IslN) (cr : Reg) (s : State) : Answer := .next (s.crateZero isl cr)
def execCrateRelease (isl : IslN) (cr : Reg) (s : State) : Answer := .next (s.crateRelease isl cr)
def execCrateMap (isl : IslN) (cr rs1 : Reg) (s : State) : Answer := .next (s.crateMap isl cr rs1)
def execCrateUnmap (isl : IslN) (cr : Reg) (s : State) : Answer := .next (s.crateUnmap isl cr)
def execCrateXferDone (isl : IslN) (x : XferEnd) (s : State) : Answer := .next (s.xferDone isl x.ord x.errs)
def execGridFmt (isl : IslN) (rs1 : Reg) (s : State) : Answer := .next (s.gridFmt isl rs1)
def execGridMm (isl : IslN) (rs1 : Reg) (s : State) : Answer := .next (s.gridOp isl false rs1)
def execGridMma (isl : IslN) (rs1 : Reg) (s : State) : Answer := .next (s.gridOp isl true rs1)
def execGridOpStart (isl : IslN) (s : State) : Answer := .next (s.gridStart isl)
def execGridOpDone (isl : IslN) (x : GridEnd) (s : State) : Answer := .next (s.gridDone isl x.res x.errs)

end Sys2Proof.Machine
end

