-- ==== Sys2Proof/Machine/Vector.lean ====
section
/-! DEFINITION. The vector engine (R216–R241): VEC.RUN and VEC.SYNC, the running program and its faults, and every
vector instruction. A vector instruction acts on the running program of its island; where the rows or crates it needs
are not ready, nothing changes. -/

namespace Sys2Proof.Machine

open Sys2Proof

/-! ### VEC.RUN and VEC.SYNC (R216) -/

def State.vecRunOp (n : Nat) (rs1 rs2 : Reg) (s : State) : State :=
  s.onSteward n (fun k s =>
    match s.vecFault n k with
    | some s => s
    | none =>
      let a := (s.greg n k rs1).toNat
      let i := s.island n
      let x := s.slot n k
      if a % 8 != 0 then s.raiseAt n k excMisaligned a
      else if s.pin n < a + 8 then s.raiseAt n k excAccess a
      else if 4 ≤ i.vec.length then s
      else
        let v : VecOp := { slot := k, addr := a, arg := s.greg n k rs2, ord := i.ord, epc := x.pc, sync := x.vsync, full := x.full,
                           late := x.vsync.isSome || i.slotBusy k || !i.inPlace k, started := false, pc := 0, v := [], p := [] }
        (s.modIsl n (fun i => { i with vec := i.vec ++ [v], ord := i.ord + 1 })).retire n k id)

def State.vecSyncOp (n : Nat) (s : State) : State :=
  s.onSteward n (fun k s =>
    let o := (s.island n).ord
    (s.modIsl n (fun i => { i with ord := i.ord + 1 })).retire n k (fun x => { x with vsync := some o }))

/-! ### The running program (R217, R222) -/

/-- The program at the head of the queue, if it runs and its task is alive. -/
def State.vecProg (s : State) (n : Nat) : Option (VecOp × Task) :=
  match (s.island n).vec with
  | v :: _ => if v.started then (s.task? (s.slot n v.slot).task).map (fun t => (v, t)) else none
  | [] => none

/-- Every operation that VEC.SYNC names has completed (R216). -/
def State.syncDone (s : State) (n : Nat) (v : VecOp) : Bool :=
  match v.sync with
  | none => true
  | some o =>
    let i := s.island n
    (s.slot n v.slot).tags.all (fun d => d.2.done || decide (o ≤ d.2.ord))
      && i.xfers.all (fun x => x.slot != v.slot || x.done || decide (o ≤ x.ord))
      && i.grid.all (fun g => g.slot != v.slot || decide (o ≤ g.ord))

/-- Cycles that a program has waited under R224 are counted, free where it may have waited. -/
def State.vecWaited (n : Nat) (v : VecOp) (s : State) : State :=
  if v.late then let (w, s) := s.draw; s.modIsl n (fun i => { i with vecStall := (i.vecStall + w.toNat % 2 ^ 32) % 2 ^ 64 }) else s

/-- The head program starts: p0 holds its argument, every other register is zero. -/
def State.vecStart (n : Nat) (s : State) : State :=
  match (s.island n).vec with
  | v :: rest =>
    if !v.started && s.syncDone n v then
      let s := s.vecWaited n v
      s.modIsl n (fun i => { i with vec := { v with started := true, pc := 0, v := [], p := [v.arg] } :: rest })
    else s
  | [] => s

/-- Address of the instruction a program stands at. -/
def VecOp.at_ (v : VecOp) : Nat := v.addr + 8 * v.pc

def VecOp.reg (v : VecOp) (r : Nat) : List Nat := NMap.getD v.v r (List.replicate 128 0)
def VecOp.lane (v : VecOp) (r l : Nat) : Nat := ((v.reg r)[l]?).getD 0
def VecOp.setReg (v : VecOp) (r : Nat) (xs : List Nat) : VecOp := { v with v := NMap.set v.v r xs }
def VecOp.preg (v : VecOp) (i : Nat) : Word := (v.p[i]?).getD 0
def VecOp.setP (v : VecOp) (i : Nat) (w : Word) : VecOp :=
  { v with p := setAt ((v.p ++ List.replicate 8 0).take 8) i w }

/-- Wide lane i of a register (R218). -/
def wideOf (xs : List Nat) (i : Nat) : Nat := (xs[2 * i]?).getD 0 + (xs[2 * i + 1]?).getD 0 % 256 * 2 ^ 32
def ofWides (ws : List Nat) : List Nat := (ws.flatMap (fun w => [w % 2 ^ 32, w / 2 ^ 32 % 256]) ++ List.replicate 128 0).take 128

/-- A fault stops the program and drops those its task has queued behind it; the task meets it later (R222). -/
def State.vecStop (n : Nat) (v : VecOp) (code tval : Nat) (s : State) : State :=
  ((s.vecWaited n v).modIsl n (fun i =>
    { i with vec := i.vec.filter (fun w => w.slot != v.slot), vecFaulted := sat1 16 i.vecFaulted
             slots := NMap.upd i.slots v.slot .reset (fun x => { x with vfault := some (code, tval) }) })).settle n v.slot

/-- A program that consumes poison or sets a trapped flag is stopped too (R222). -/
def State.vecEnded (n : Nat) (s : State) : State := s.modIsl n (fun i => { i with vecFaulted := sat1 16 i.vecFaulted })

/-- What an instruction writes into its program, and the flags it sets by engine. -/
structure VecRes where
  prog : VecOp
  vec : Flags
  sfu : Flags
  conv : Flags

def VecRes.of (v : VecOp) : VecRes := { prog := v, vec := 0, sfu := 0, conv := 0 }

/-- The instruction ends: the program goes on to the next, its cycles count, its flags are raised (R213, R224). -/
def State.vecNext (n cycles : Nat) (r : VecRes) (s : State) : State :=
  let w := placeFlags engVec r.vec ||| placeFlags engSfu r.sfu ||| placeFlags engConv r.conv
  let v := { r.prog with pc := r.prog.pc + 1 }
  let s := s.modIsl n (fun i =>
    { i with vec := i.vec.map (fun (u : VecOp) => if u.ord = v.ord then { v with full := u.full } else u), vecCycles := (i.vecCycles + cycles) % 2 ^ 64 })
  let s := if (trapped (s.slotNumeric n v.slot).traps w).isSome then s.vecEnded n else s
  s.raiseFlags n v.slot v.epc w

/-- An instruction of the running program: it lies in the pinned region, and is not the 4,096th without a VEND. -/
def State.onVec (n : Nat) (isEnd : Bool) (f : VecOp → Task → State → State) (s : State) : State :=
  match s.vecProg n with
  | none => s
  | some (v, t) =>
    if s.pin n < v.at_ + 8 then s.vecStop n v excAccess v.at_
    else if decide (4095 ≤ v.pc) && !isEnd then s.vecStop n v excIllegal v.at_
    else f v t s

def State.vecIllegal (n : Nat) (v : VecOp) (s : State) : State := s.vecStop n v excIllegal v.at_

/-- An instruction that only computes on registers; none is ILLEGAL. -/
def State.vecOp (n cycles : Nat) (f : NumericCfg → VecOp → Option VecRes) (s : State) : State :=
  s.onVec n false (fun v t s =>
    match f (s.numeric t.room) v with
    | some r => s.vecNext n cycles r
    | none => s.vecIllegal n v)

/-! ### Lane by lane -/

def lanes128 : List Nat := List.range 128

/-- VD from a function of the lane number, with vector flags. -/
def mapLanes (v : VecOp) (vd : Nat) (f : Nat → Nat × Flags) : VecRes :=
  let ys := lanes128.map f
  { VecRes.of (v.setReg vd (ys.map (·.1))) with vec := ys.foldl (fun a y => a ||| y.2) 0 }

def State.lane1 (n : Nat) (f : VFields) (op : Nat → Nat → Nat × Flags) (s : State) : State :=
  s.vecOp n 1 (fun c v => some (mapLanes v f.vd.val (fun l => op c.mode (v.lane f.va l))))

def State.lane2 (n : Nat) (f : VFields) (op : Nat → Nat → Nat → Nat × Flags) (s : State) : State :=
  s.vecOp n 1 (fun c v => some (mapLanes v f.vd.val (fun l => op c.mode (v.lane f.va l) (v.lane f.vb l))))

/-- INT32 lane operation: it sets no flag and wraps (R225). -/
def State.laneI (n : Nat) (f : VFields) (op : Nat → Nat → Nat) (s : State) : State :=
  s.lane2 n f (fun _ a b => (op a b % 2 ^ 32, 0))

def i32 (a : Nat) : Int := signed 32 a
def ofI32 (i : Int) : Nat := wrapN 32 i
def lSra (a b : Nat) : Nat := ofI32 (i32 a / 2 ^ (b % 32))
def lIMin (a b : Nat) : Nat := if i32 b < i32 a then b else a
def lIMax (a b : Nat) : Nat := if i32 a < i32 b then b else a

/-! ### Memory (R220, R221, R227, R228) -/

/-- Element formats of FMT (Table 11-2), E8M31 apart. -/
def vFmt (c : Nat) : Option Fmt :=
  if c < 0xF then Fmt.ofCode c
  else if c = 0x10 then some .f32 else if c = 0x11 then some .hs16 else if c = 0x13 then some .int32 else none

/-- A piece of memory: a crate or the Shelf, and what is added to an offset to name it in TVAL. -/
structure Piece where
  crate : Option Nat
  off : Nat
  len : Nat
  base : Nat
  named : Bool
  deriving DecidableEq, Repr

/-- Bytes that n elements take. -/
def elemsB (f : Fmt) (n : Nat) : Nat :=
  match f.bits with | 4 => cdiv n 2 | 16 => 2 * n | 32 => 4 * n | _ => n
/-- Bytes of one element, for alignment. -/
def elemB (f : Fmt) : Nat := match f.bits with | 16 => 2 | 32 => 4 | _ => 1

/-- A Shelf access of a vector program, cut at 4 KiB so that overlaid pages reach their crates (R134). -/
def State.shelfPieces (s : State) (n k a len align : Nat) (st : Bool) : Except (Nat × Nat) (List Piece) :=
  if a % align != 0 then .error (excMisaligned, a)
  else
    let cuts := (unitsOf 4096 a len).map (fun u => (max u a, min (u + 4096) (a + len) - max u a))
    match cuts.find? (fun c => !(if st then s.canStore n k c.1 c.2 else s.canLoad n k c.1 c.2)) with
    | some c => .error (excAccess, c.1)
    | none => .ok (cuts.map (fun c => match (s.slot n k).overlay c.1 with
        | some (cr, off) => { crate := some cr, off := off, len := c.2, base := c.1 - off, named := false }
        | none => { crate := none, off := c.1, len := c.2, base := 0, named := false }))

/-- Crate pieces may be read or written: none overlaid, and none EMPTY on a load, as the crates are in commit order. -/
def Slot.crateOk (x : Slot) (full : List Nat) (st : Bool) (ps : List Piece) : Except (Nat × Nat) (List Piece) :=
  match ps.find? (fun p => match p.crate with | some c => x.isMapped c || (!st && !full.contains c) | none => false) with
  | some p => let c := p.crate.getD 0; .error (excCrate, crateTval c (if x.isMapped c then crBusy else crEmpty))
  | none => .ok ps

def cratePiece (c off len : Nat) : Piece := { crate := some c, off := off, len := len, base := 2 ^ 63 + c * 4096, named := true }

/-- Where an access of `len` bytes at p[P] lies. Other bits of a crate location must be 0, and it must stay in its
crate. -/
def State.pieces (s : State) (n k : Nat) (full : List Nat) (a : Word) (len align : Nat) (st : Bool) : Except (Nat × Nat) (List Piece) :=
  if a.getLsbD 63 then
    let c := fld a 12 4
    let off := fld a 0 12
    if fld a 16 47 != 0 then .error (excAccess, a.toNat)
    else if off % align != 0 then .error (excMisaligned, a.toNat)
    else if 4096 < off + len then .error (excAccess, a.toNat)
    else (s.slot n k).crateOk full st [cratePiece c off len]
  else s.shelfPieces n k a.toNat len align st

/-- The words of an accumulator view from row r on: elements 0–31 in row r, the rest in row r + 1 (R228). -/
def State.viewPieces (s : State) (n k : Nat) (full : List Nat) (a : Word) (count : Nat) (st : Bool) : Except (Nat × Nat) (List Piece) :=
  let c := fld a 12 4
  let off := fld a 0 12
  if fld a 16 47 != 0 || c % 2 != 0 || off % 128 != 0 || (decide (32 < count) && decide (31 * 128 ≤ off)) then .error (excAccess, a.toNat)
  else
    let half := fun (h row m : Nat) => if m ≤ 16 * h then [] else [cratePiece (c + h) row (8 * min 16 (m - 16 * h))]
    let m1 := min count 32
    let m2 := count - m1
    (s.slot n k).crateOk full st (half 0 off m1 ++ half 1 off m1 ++ half 0 (off + 128) m2 ++ half 1 (off + 128) m2)

/-- Pieces whose crates are in place and owed nothing by earlier operations (R171, R221). -/
def State.ready (s : State) (n : Nat) (v : VecOp) (ps : List Piece) : Bool :=
  let i := s.island n
  ps.all (fun p => match p.crate with
    | none => true
    | some c => i.standing v.slot
        && i.xfers.all (fun x => x.slot != v.slot || !x.names c || decide (v.ord < x.ord))
        && i.grid.all (fun g => g.slot != v.slot || !g.names c || decide (v.ord < g.ord)))

def State.pieceStore (s : State) (n : Nat) (p : Piece) : Store :=
  match p.crate with | some c => (s.island n).crate c | none => (s.island n).shelf

def State.readPieces (s : State) (n : Nat) (ps : List Piece) : Bytes :=
  ps.flatMap (fun p => (s.pieceStore n p).read p.off p.len)

/-- Name of the first poisoned word that pieces touch. -/
def State.badPiece (s : State) (n : Nat) (ps : List Piece) : Option Nat :=
  ps.findSome? (fun p => ((s.pieceStore n p).poisonIn wordB p.off p.len).map (· + p.base))

/-- A crate becomes FULL at a program's place in commit order: for the task, for the programs from it on, and for later loads, which
then keep the rows they do not load (R165, R221). -/
def State.vecFill (n : Nat) (v : VecOp) (c : Nat) (s : State) : State :=
  (s.modSlot n v.slot (fun x => x.fill c)).modIsl n (fun i =>
    { i with vec := i.vec.map (fun w => if w.slot = v.slot ∧ v.ord ≤ w.ord then { w with full := insN c w.full } else w)
             xfers := i.xfers.map (fun x => if x.slot = v.slot ∧ v.ord < x.ord ∧ x.crate = c then { x with fresh := false } else x) })

/-- Bytes written over pieces; an EMPTY crate is zeroed first and becomes FULL (R220). -/
def State.writePieces (n : Nat) (v : VecOp) : List Piece → Bytes → State → State
  | [], _, s => s
  | p :: ps, b, s =>
    let d := b.take p.len
    let s := match p.crate with
      | none => s.modShelf n (fun st => st.write wordB p.off d)
      | some c =>
        let fresh := !((((s.island n).vec.find? (fun w => w.ord == v.ord)).getD v).full.contains c)
        (s.modCrate n c (fun st => (if fresh then Store.empty else st).write wordB p.off d)).vecFill n v c
    State.writePieces n v ps (b.drop p.len) s

/-- Codes of n elements held in bytes (R162). -/
def codesOf (f : Fmt) (n : Nat) (b : Bytes) : List Nat :=
  let x := b.map (·.toNat)
  let cs := match f.bits with
    | 4 => x.flatMap (fun v => [v % 16, v / 16])
    | 6 => x.map (· % 64)
    | 16 => (List.range n).map (fun e => leAt b (2 * e) 2)
    | 32 => (List.range n).map (fun e => leAt b (4 * e) 4)
    | _ => x
  cs.take n

/-- Bytes that hold codes; with an odd count of 4-bit codes the last high nibble keeps what stood there. -/
def bytesOf (f : Fmt) (cs : List Nat) (old : Bytes) : Bytes :=
  match f.bits with
  | 4 => (List.range (cdiv cs.length 2)).map (fun i =>
      let hi := match cs[2 * i + 1]? with | some c => c | none => ((old[i]?).getD 0).toNat / 16
      BitVec.ofNat 8 ((cs[2 * i]?).getD 0 + 16 * hi))
  | 16 => cs.flatMap (le 2)
  | 32 => cs.flatMap (le 4)
  | _ => cs.map (BitVec.ofNat 8)

/-- IMM[7:0] as a count of elements, or of wide lanes (R220). -/
def vCount (f : VFields) : Option Nat :=
  let c := vImm f % 256
  if c = 0 then some 128 else if c ≤ 128 then some c else none
def wCount (f : VFields) : Option Nat := let c := vImm f % 256; if 1 ≤ c ∧ c ≤ 64 then some c else none

/-- Cycles of a transfer (Table 11-3). -/
def memCycles (a : Word) (len : Nat) : Nat := max 1 (cdiv len (if a.getLsbD 63 then 128 else 256))

/-- The two accesses of an instruction: its elements, and its scales where the format is MX. -/
def State.vecPlaces (s : State) (n : Nat) (v : VecOp) (f : VFields) (fm : Fmt) (count : Nat) (st : Bool) :
    Except (Nat × Nat) (List Piece × List Piece) :=
  match s.pieces n v.slot v.full (v.preg f.p.val) (elemsB fm count) (elemB fm) st with
  | .error e => .error e
  | .ok ps =>
    if fm.isMx then
      match s.pieces n v.slot v.full (v.preg ((f.p.val + 1) % 8)) (count / 32) 1 st with
      | .error e => .error e
      | .ok qs => .ok (ps, qs)
    else .ok (ps, [])

/-- A load: `conv` gives the lanes and the flags from the codes and the scales; a poisoned word ends the task (R222). -/
def State.vecLoad (n : Nat) (f : VFields) (ok : Fmt → Bool)
    (conv : NumericCfg → Fmt → State → List Nat → Bytes → (List Nat × Flags × Nat)) (s : State) : State :=
  s.onVec n false (fun v t s =>
    match vFmt f.fmt.val, vCount f with
    | some fm, some count =>
      if !ok fm || (fm.isMx && count % 32 != 0) then s.vecIllegal n v
      else match s.vecPlaces n v f fm count false with
        | .error (c, tv) => s.vecStop n v c tv
        | .ok (ps, qs) =>
          if !s.ready n v (ps ++ qs) then s
          else match s.badPiece n (ps ++ qs) with
            | some w => (s.vecEnded n).poisoned n v.slot v.epc w
            | none =>
              let (xs, fl, drawn) := conv (s.numeric t.room) fm s (codesOf fm count (s.readPieces n ps)) (s.readPieces n qs)
              let v' := v.setReg f.vd.val ((xs ++ List.replicate 128 0).take 128)
              { s with free := s.free + drawn }.vecNext n (memCycles (v.preg f.p.val) (elemsB fm count))
                { VecRes.of v' with conv := fl }
    | _, _ => s.vecIllegal n v)

/-- A value as a binary32 lane: itself where binary32 holds it exactly, subnormals too, and converted otherwise (R227). -/
def exactLane (c : NumericCfg) (v : Val) : Nat × Flags :=
  let x := Fmt.f32.convert 2 c.outconv v
  if x.2 = 0 then x else Fmt.f32.convert c.mode c.outconv v

/-- Codes as binary32 lanes, with conversion flags (R227). -/
def loadLanes (c : NumericCfg) (fm : Fmt) (codes : List Nat) (scales : Bytes) : List Nat × Flags :=
  let ys := codes.zipIdx.map (fun (code, e) =>
    let v := fm.load c.mode code
    let v := if fm.isMx then Val.scale ((scales[e / 32]?).getD 0).toNat v else v
    exactLane c v)
  (ys.map (·.1), ys.foldl (fun a y => a ||| y.2) 0)

/-- Formats of integer lanes: those of Table 9-2 without a block scale, HS16 and INT32 (R225). -/
def intLane (f : Fmt) : Bool := f.int.isSome && !f.isMx

/-- A code as an INT32 lane; the NaN code of HI8 and HI4 has no integer stated, so its lane is free. -/
def intOf (fm : Fmt) (code free : Nat) : Nat :=
  match fm.decode code with
  | .fin sg m _ => ofI32 (if sg then -(m : Int) else m)
  | _ => free % 2 ^ 32

def State.vecLdi (s : State) (fm : Fmt) (codes : List Nat) : List Nat × Nat :=
  (codes.zipIdx.map (fun (c, e) => intOf fm c (Config.freeValue (s.free + e)).toNat), codes.length)

/-- A store of elements: `conv` gives codes, scales and flags from the program. -/
def State.vecStore (n : Nat) (f : VFields) (wide : Bool) (ok : Fmt → Bool)
    (conv : NumericCfg → Fmt → List Nat → Nat → (List Nat × Bytes × Flags × Flags)) (s : State) : State :=
  s.onVec n false (fun v t s =>
    match vFmt f.fmt.val, (if wide then wCount f else vCount f) with
    | some fm, some count =>
      if !ok fm || (fm.isMx && count % 32 != 0) then s.vecIllegal n v
      else match s.vecPlaces n v f fm count true with
        | .error (c, tv) => s.vecStop n v c tv
        | .ok (ps, qs) =>
          if !s.ready n v (ps ++ qs) then s
          else
            let (codes, scales, fv, fc) := conv (s.numeric t.room) fm (v.reg f.va.val) count
            let old := s.readPieces n ps
            let s := (State.writePieces n v ps (bytesOf fm codes old) s)
            (State.writePieces n v qs scales s).vecNext n (memCycles (v.preg f.p.val) (elemsB fm count))
              { VecRes.of v with vec := fv, conv := fc }
    | _, _ => s.vecIllegal n v)

/-- Values converted to a format, in MX blocks of 32 where it has a scale (R192–R196). -/
def storeCodes (c : NumericCfg) (fm : Fmt) (vs : List Val) : List Nat × Bytes × Flags :=
  if fm.isMx then
    let blocks := (List.range (vs.length / 32)).map (fun b => fm.convertMx c.mode c.outconv ((vs.drop (32 * b)).take 32))
    (blocks.flatMap (·.2.1), blocks.map (fun b => BitVec.ofNat 8 b.1), blocks.foldl (fun a b => a ||| b.2.2) 0)
  else
    let ys := vs.map (fun v => fm.convert c.mode c.outconv v)
    (ys.map (·.1), [], ys.foldl (fun a y => a ||| y.2) 0)

/-- E8M31 words loaded into wide lanes, or stored from them as they are. -/
def State.wideAccess (s : State) (n : Nat) (v : VecOp) (f : VFields) (count : Nat) (st : Bool) : Except (Nat × Nat) (List Piece) :=
  let a := v.preg f.p.val
  if a.getLsbD 63 then s.viewPieces n v.slot v.full a count st else s.shelfPieces n v.slot a.toNat (8 * count) 8 st

def State.vecLdw (n : Nat) (f : VFields) (s : State) : State :=
  s.onVec n false (fun v _ s =>
    match (if f.fmt.val = 0x12 then wCount f else none) with
    | none => s.vecIllegal n v
    | some count =>
      match s.wideAccess n v f count false with
      | .error (c, tv) => s.vecStop n v c tv
      | .ok ps =>
        if !s.ready n v ps then s
        else match s.badPiece n ps with
          | some w => (s.vecEnded n).poisoned n v.slot v.epc w
          | none =>
            let b := s.readPieces n ps
            let ws := (List.range count).map (fun i => leAt b (8 * i) 8 % 2 ^ 40)
            s.vecNext n (memCycles (v.preg f.p.val) (8 * count)) (VecRes.of (v.setReg f.vd.val (ofWides ws))))

def State.vecStw (n : Nat) (f : VFields) (s : State) : State :=
  if f.fmt.val = 0x12 then
    s.onVec n false (fun v _ s =>
      match wCount f with
      | none => s.vecIllegal n v
      | some count =>
        match s.wideAccess n v f count true with
        | .error (c, tv) => s.vecStop n v c tv
        | .ok ps =>
          if !s.ready n v ps then s
          else
            let d := (List.range count).flatMap (fun i => le 8 (wideOf (v.reg f.va.val) i))
            (State.writePieces n v ps d s).vecNext n (memCycles (v.preg f.p.val) (8 * count)) (VecRes.of v))
  else s.vecStore n f true (fun _ => true) (fun c fm xs count =>
    let (cs, sc, fl) := storeCodes c fm ((List.range count).map (fun i => accVal (wideOf xs i)))
    (cs, sc, 0, fl))

/-! ### The SFU (R229–R235) -/

def NumericCfg.iter (c : NumericCfg) : Bool := c.sfu == 1

/-- Registers evaluated, counted by method (Table 11-8). -/
def State.countSfu (n regs : Nat) (iter : Bool) (s : State) : State :=
  s.modIsl n (fun i => { i with sfuPwl := if iter then i.sfuPwl else (i.sfuPwl + regs) % 2 ^ 32
                                sfuIter := if iter then (i.sfuIter + regs) % 2 ^ 32 else i.sfuIter })

def sfuCycles (c : NumericCfg) : Nat := if c.iter then 16 else 4

/-- VSFU, or VGATE when `gate`: each lane's function, the value free where none is stated. -/
def State.sfuOp (n : Nat) (f : VFields) (gate : Bool) (s : State) : State :=
  s.onVec n false (fun v t s =>
    let c := s.numeric t.room
    let fn := vImm f % 16
    if (if gate then !([4, 6, 7, 8].contains fn) else decide (12 < fn)) then s.vecIllegal n v
    else
      let src := if gate then f.vb.val else f.va.val
      let ys := lanes128.map (fun l => sfu c.mode c.iter ((Config.freeValue (s.free + l)).toNat % 2 ^ 32) fn (v.lane src l))
      let sf := ys.foldl (fun a y => a ||| y.2) 0
      let zs := if gate then ys.zipIdx.map (fun (y, l) => lMul c.mode (v.lane f.va l) y.1) else ys.map (fun y => (y.1, 0))
      let r : VecRes := { VecRes.of (v.setReg f.vd.val (zs.map (·.1))) with sfu := sf, vec := zs.foldl (fun a z => a ||| z.2) 0 }
      ({ s with free := s.free + 128 }.countSfu n 1 c.iter).vecNext n (sfuCycles c) r)

/-! ### Rows (R236, R237, R239) -/

/-- N and R of a row instruction whose registers exist; none is ILLEGAL. -/
def rowLen (f : VFields) (a : Nat) : Option (Nat × Nat) :=
  let nn := vImm f % 8192
  let r := cdiv nn 128
  if 1 ≤ nn ∧ nn ≤ 4096 ∧ a + r ≤ 32 then some (nn, r) else none

def VecOp.row (v : VecOp) (a nn : Nat) : List Nat := (List.range nn).map (fun k => v.lane (a + k / 128) (k % 128))

/-- Every lane of VD. -/
def splat (v : VecOp) (vd x : Nat) : VecOp := v.setReg vd (List.replicate 128 x)

/-- Partial mode: lane b takes the tree over block b; lanes at or above R are unchanged. -/
def partials (v : VecOp) (vd : Nat) (blocks : List (Nat × Flags)) : VecRes :=
  let old := v.reg vd
  { VecRes.of (v.setReg vd (blocks.map (·.1) ++ old.drop blocks.length)) with vec := blocks.foldl (fun a b => a ||| b.2) 0 }

/-- The blocks of 128 elements of a row. -/
def blocksOf (xs : List Nat) : List (List Nat) := (List.range (cdiv xs.length 128)).map (fun b => (xs.drop (128 * b)).take 128)

/-- A row instruction that sums `q` of the row: the tree, or block by block in partial mode, then the division. -/
def sumRow (mode : Nat) (v : VecOp) (vd : Nat) (partial_ : Bool) (div : Option Nat) (q : List Nat × Flags) : VecRes :=
  if partial_ then
    let r := partials v vd ((blocksOf q.1).map (rowSum mode))
    { r with vec := r.vec ||| q.2 }
  else
    let t := rowSum mode q.1
    let (x, fl) := match div with | some nn => laneDiv mode t nn | none => t
    { VecRes.of (splat v vd x) with vec := fl ||| q.2 }

/-- A row instruction of the vector engine. -/
def State.rowOp (n extra per : Nat) (f : VFields) (g : NumericCfg → VecOp → Nat → List Nat → VecRes) (s : State) : State :=
  s.onVec n false (fun v t s =>
    match rowLen f f.va.val with
    | none => s.vecIllegal n v
    | some (nn, r) => s.vecNext n (per * r + extra) (g (s.numeric t.room) v nn (v.row f.va.val nn)))

/-- VRSEXP: every e_k replaces x_k, and VD takes their sum (R236). -/
def State.rsexp (n : Nat) (f : VFields) (s : State) : State :=
  s.onVec n false (fun v t s =>
    match rowLen f f.va.val with
    | none => s.vecIllegal n v
    | some (nn, r) =>
      let c := s.numeric t.room
      let m := v.lane f.vb.val 0
      let ds := mapRow (fun x => lSub c.mode x m) (v.row f.va.val nn)
      let es := mapRow (fun d => sfu c.mode c.iter 0 (if nbit (vImm f) 13 then 1 else 0) d) ds.1
      let put := (List.range r).foldl (fun (v : VecOp) b =>
        let part := (es.1.drop (128 * b)).take 128
        v.setReg (f.va.val + b) (part ++ (v.reg (f.va.val + b)).drop part.length)) v
      let res := sumRow c.mode put f.vd.val (nbit (vImm f) 14) none (es.1, 0)
      (s.countSfu n r c.iter).vecNext n (sfuCycles c * r + 8) { res with sfu := es.2, vec := res.vec ||| ds.2 })

/-- VSDOT (R210, R239). -/
def sdot (c : NumericCfg) (f : VFields) (v : VecOp) (nn : Nat) (xs : List Nat) : Option VecRes :=
  let im := vImm f
  let lane := im / 2 ^ 16 % 128
  let part := nbit im 14
  if c.mode != 2 || nbit im 13 || nbit im 23 || decide (32 < f.vb.val + cdiv nn 128) || (part && (lane != 0 || nbit im 15)) then none
  else
    let ys := v.row f.vb.val nn
    if part then
      some (partials v f.vd.val ((blocksOf xs).zip (blocksOf ys) |>.map (fun b => strictDot b.1 b.2)))
    else
      let d := strictDot xs ys
      let cc := v.lane f.vc.val lane
      let (x, fl) := if nbit im 15 && !((laneIn 2 cc).1.isZero) then let (y, g) := lAdd 2 d.1 cc; (y, d.2 ||| g) else d
      some { VecRes.of (v.setReg f.vd.val (setAt (v.reg f.vd.val) lane x)) with vec := fl }

/-- VDW (R238). -/
def dwOp (c : NumericCfg) (f : VFields) (v : VecOp) : Option VecRes :=
  let t := vImm f % 32
  if 1 ≤ t ∧ t ≤ 16 ∧ f.va.val + t ≤ 32 ∧ f.vb.val + t ≤ 32 then
    some (mapLanes v f.vd.val (fun l =>
      dwChain c.mode (v.lane f.vd.val l) ((List.range t).map (fun i => (v.lane (f.va.val + i) l, v.lane (f.vb.val + i) l)))))
  else none

/-! ### One definition per instruction (Table 11-3) -/

/-- VEND: the program ends. -/
def State.vend (n : Nat) (s : State) : State :=
  s.onVec n true (fun v _ s => ((s.vecWaited n v).modIsl n (fun i =>
    { i with vec := i.vec.filter (fun u => u.ord != v.ord), vecCycles := (i.vecCycles + 2) % 2 ^ 64
             vecDone := wrap1 32 i.vecDone })).settle n v.slot)
def State.vnop (n : Nat) (s : State) : State := s.vecOp n 1 (fun _ v => some (VecRes.of v))
def State.vaddp (n : Nat) (f : VFields) (s : State) : State :=
  s.vecOp n 1 (fun _ v => some (VecRes.of (v.setP (f.vd.val % 8) (v.preg (f.va.val % 8) + BitVec.ofInt 64 (vSimm f)))))
def State.vld (n : Nat) (f : VFields) (s : State) : State :=
  s.vecLoad n f (fun _ => true) (fun c fm _ cs sc => let (xs, fl) := loadLanes c fm cs sc; (xs, fl, 0))
def State.vldi (n : Nat) (f : VFields) (s : State) : State :=
  s.vecLoad n f intLane (fun _ fm s cs _ => let (xs, d) := s.vecLdi fm cs; (xs, 0, d))
def State.vst (n : Nat) (f : VFields) (s : State) : State :=
  s.vecStore n f false (fun _ => true) (fun c fm xs count =>
    let ins := (xs.take count).map (laneIn c.mode)
    let (cs, sc, fl) := storeCodes c fm (ins.map (·.1))
    (cs, sc, 0, fl ||| ins.foldl (fun a x => a ||| x.2) 0))
def State.vsti (n : Nat) (f : VFields) (s : State) : State :=
  s.vecStore n f false intLane (fun _ fm xs count =>
    let ys := (xs.take count).map (fun x => fm.convert 0 0 (.ofInt (i32 x) 0))
    (ys.map (·.1), [], ys.foldl (fun a y => a ||| y.2) 0, 0))
def State.vfma (n : Nat) (f : VFields) (s : State) : State :=
  s.vecOp n 1 (fun c v => some (mapLanes v f.vd.val (fun l =>
    lFma c.mode (v.lane f.va.val l) (v.lane f.vb.val l) (v.lane f.vc.val l))))
def State.vsel (n : Nat) (f : VFields) (s : State) : State :=
  s.vecOp n 1 (fun _ v => some (mapLanes v f.vd.val (fun l =>
    (if v.lane f.vc.val l != 0 then v.lane f.va.val l else v.lane f.vb.val l, 0))))
def State.vbcast (n : Nat) (f : VFields) (s : State) : State :=
  s.vecOp n 1 (fun _ v => some (VecRes.of (splat v f.vd.val (v.lane f.va.val (vImm f % 128)))))
def State.vimm (n : Nat) (f : VFields) (s : State) : State :=
  s.vecOp n 1 (fun _ v => some (VecRes.of (splat v f.vd.val (ofI32 (vSimm f)))))
def State.vaddw (n : Nat) (f : VFields) (s : State) : State :=
  s.vecOp n 1 (fun _ v =>
    let ys := (List.range 64).map (fun i => accAdd (wideOf (v.reg f.va.val) i) (wideOf (v.reg f.vb.val) i))
    some { VecRes.of (v.setReg f.vd.val (ofWides (ys.map (·.1)))) with vec := ys.foldl (fun a y => a ||| y.2) 0 })
def State.vcvtfw (n : Nat) (f : VFields) (s : State) : State :=
  s.vecOp n 1 (fun c v =>
    let ys := (List.range 64).map (fun i => lToWide c.mode (v.lane f.va.val i))
    some { VecRes.of (v.setReg f.vd.val (ofWides (ys.map (·.1)))) with vec := ys.foldl (fun a y => a ||| y.2) 0 })
def State.vrmax (n : Nat) (f : VFields) (s : State) : State :=
  s.rowOp n 8 1 f (fun c v _ xs =>
    let (m, fl) := xs.tail.foldl (fun (a : Nat × Flags) x => let (y, g) := lMaxMin false c.mode a.1 x; (y, a.2 ||| g))
      (let x := laneIn c.mode (xs.headD 0); laneOut c.mode x)
    { VecRes.of (splat v f.vd.val m) with vec := fl })
def State.vrsum (n : Nat) (f : VFields) (s : State) : State :=
  s.rowOp n 8 1 f (fun c v _ xs => sumRow c.mode v f.vd.val (nbit (vImm f) 14) none (xs, 0))
def State.vrmean (n : Nat) (f : VFields) (s : State) : State :=
  s.rowOp n 10 1 f (fun c v nn xs => sumRow c.mode v f.vd.val false (some nn) (xs, 0))
def State.vrvar (n : Nat) (f : VFields) (s : State) : State :=
  s.rowOp n 10 2 f (fun c v nn xs =>
    let mu := v.lane f.vb.val 0
    let q := mapRow (fun x => let (d, g) := lSub c.mode x mu; let (y, h) := lMul c.mode d d; (y, g ||| h)) xs
    sumRow c.mode v f.vd.val false (some nn) q)
def State.vrms (n : Nat) (f : VFields) (s : State) : State :=
  s.rowOp n 10 1 f (fun c v nn xs =>
    sumRow c.mode v f.vd.val (nbit (vImm f) 14) (some nn) (mapRow (fun x => lMul c.mode x x) xs))
def State.vtree (n : Nat) (f : VFields) (s : State) : State :=
  s.vecOp n 8 (fun c v => some (sumRow c.mode v f.vd.val false none ((v.reg f.va.val).take (vImm f % 128 + 1), 0)))
def State.vsdot (n : Nat) (f : VFields) (s : State) : State :=
  s.onVec n false (fun v t s =>
    match rowLen f f.va.val with
    | none => s.vecIllegal n v
    | some (nn, r) =>
      match sdot (s.numeric t.room) f v nn (v.row f.va.val nn) with
      | some x => s.vecNext n (r + 8) x
      | none => s.vecIllegal n v)
def State.vdw (n : Nat) (f : VFields) (s : State) : State := s.vecOp n (vImm f % 32) (fun c v => dwOp c f v)

/-! ### Commands -/

def execVecRun (isl : IslN) (rs1 rs2 : Reg) (s : State) : Answer := .next (s.vecRunOp isl rs1 rs2)
def execVecSync (isl : IslN) (s : State) : Answer := .next (s.vecSyncOp isl)
def execVend (isl : IslN) (_ : VFields) (s : State) : Answer := .next (s.vend isl)
def execVnop (isl : IslN) (_ : VFields) (s : State) : Answer := .next (s.vnop isl)
def execVaddp (isl : IslN) (f : VFields) (s : State) : Answer := .next (s.vaddp isl f)
def execVld (isl : IslN) (f : VFields) (s : State) : Answer := .next (s.vld isl f)
def execVldi (isl : IslN) (f : VFields) (s : State) : Answer := .next (s.vldi isl f)
def execVldw (isl : IslN) (f : VFields) (s : State) : Answer := .next (s.vecLdw isl f)
def execVst (isl : IslN) (f : VFields) (s : State) : Answer := .next (s.vst isl f)
def execVsti (isl : IslN) (f : VFields) (s : State) : Answer := .next (s.vsti isl f)
def execVstw (isl : IslN) (f : VFields) (s : State) : Answer := .next (s.vecStw isl f)
def execVadd (isl : IslN) (f : VFields) (s : State) : Answer := .next (s.lane2 isl f lAdd)
def execVsub (isl : IslN) (f : VFields) (s : State) : Answer := .next (s.lane2 isl f lSub)
def execVmul (isl : IslN) (f : VFields) (s : State) : Answer := .next (s.lane2 isl f lMul)
def execVfma (isl : IslN) (f : VFields) (s : State) : Answer := .next (s.vfma isl f)
def execVmax (isl : IslN) (f : VFields) (s : State) : Answer := .next (s.lane2 isl f (lMaxMin false))
def execVmin (isl : IslN) (f : VFields) (s : State) : Answer := .next (s.lane2 isl f (lMaxMin true))
def execVabs (isl : IslN) (f : VFields) (s : State) : Answer := .next (s.lane1 isl f lAbs)
def execVneg (isl : IslN) (f : VFields) (s : State) : Answer := .next (s.lane1 isl f lNeg)
def execVcmplt (isl : IslN) (f : VFields) (s : State) : Answer := .next (s.lane2 isl f lCmpLt)
def execVsel (isl : IslN) (f : VFields) (s : State) : Answer := .next (s.vsel isl f)
def execVbcast (isl : IslN) (f : VFields) (s : State) : Answer := .next (s.vbcast isl f)
def execVcvtif (isl : IslN) (f : VFields) (s : State) : Answer := .next (s.lane1 isl f lCvtIF)
def execVcvtfi (isl : IslN) (f : VFields) (s : State) : Answer := .next (s.lane1 isl f lCvtFI)
def execViadd (isl : IslN) (f : VFields) (s : State) : Answer := .next (s.laneI isl f (fun a b => a + b))
def execVisub (isl : IslN) (f : VFields) (s : State) : Answer := .next (s.laneI isl f (fun a b => a + 2 ^ 32 - b))
def execVimul (isl : IslN) (f : VFields) (s : State) : Answer := .next (s.laneI isl f (fun a b => a * b))
def execVand (isl : IslN) (f : VFields) (s : State) : Answer := .next (s.laneI isl f (fun a b => a &&& b))
def execVor (isl : IslN) (f : VFields) (s : State) : Answer := .next (s.laneI isl f (fun a b => a ||| b))
def execVxor (isl : IslN) (f : VFields) (s : State) : Answer := .next (s.laneI isl f (fun a b => a ^^^ b))
def execVshl (isl : IslN) (f : VFields) (s : State) : Answer := .next (s.laneI isl f (fun a b => a * 2 ^ (b % 32)))
def execVshrl (isl : IslN) (f : VFields) (s : State) : Answer := .next (s.laneI isl f (fun a b => a / 2 ^ (b % 32)))
def execVshra (isl : IslN) (f : VFields) (s : State) : Answer :=
  .next (s.laneI isl f lSra)
def execVimin (isl : IslN) (f : VFields) (s : State) : Answer :=
  .next (s.laneI isl f lIMin)
def execVimax (isl : IslN) (f : VFields) (s : State) : Answer :=
  .next (s.laneI isl f lIMax)
def execVimm (isl : IslN) (f : VFields) (s : State) : Answer := .next (s.vimm isl f)
def execVaddw (isl : IslN) (f : VFields) (s : State) : Answer := .next (s.vaddw isl f)
def execVcvtfw (isl : IslN) (f : VFields) (s : State) : Answer := .next (s.vcvtfw isl f)
def execVsfu (isl : IslN) (f : VFields) (s : State) : Answer := .next (s.sfuOp isl f false)
def execVgate (isl : IslN) (f : VFields) (s : State) : Answer := .next (s.sfuOp isl f true)
def execVrmax (isl : IslN) (f : VFields) (s : State) : Answer := .next (s.vrmax isl f)
def execVrsum (isl : IslN) (f : VFields) (s : State) : Answer := .next (s.vrsum isl f)
def execVrsexp (isl : IslN) (f : VFields) (s : State) : Answer := .next (s.rsexp isl f)
def execVrmean (isl : IslN) (f : VFields) (s : State) : Answer := .next (s.vrmean isl f)
def execVrvar (isl : IslN) (f : VFields) (s : State) : Answer := .next (s.vrvar isl f)
def execVrms (isl : IslN) (f : VFields) (s : State) : Answer := .next (s.vrms isl f)
def execVtree (isl : IslN) (f : VFields) (s : State) : Answer := .next (s.vtree isl f)
def execVsdot (isl : IslN) (f : VFields) (s : State) : Answer := .next (s.vsdot isl f)
def execVdw (isl : IslN) (f : VFields) (s : State) : Answer := .next (s.vdw isl f)

end Sys2Proof.Machine
end

