-- ==== Sys2Proof/Machine/Ele.lean ====
section
/-! DEFINITION. The Edge-Layer Engines at work (R48, R255–R262): which layer an engine takes, the chunks of its raw
buffer, its tensor on the Stream Passage, its state, its restart, and the ELE registers. -/

namespace Sys2Proof.Machine

open Sys2Proof

/-! ### A layer's parameters -/

/-- Parameter block, layer record and image base of a layer. -/
def State.eleOf (s : State) (l : Layer) : Option (EleParam × Bytes × Nat) :=
  match s.task? l.task with
  | none => none
  | some t =>
    match s.layerRec t l.idx, s.eleLayerAt t l.idx with
    | some (base, r), some (_, p) => some (p, r, base)
    | _, _ => none

/-- Extent of the output: padding per side as the layer record gives it; a causal layer pads only on the left (R253). -/
def eleGeom (p : EleParam) (r : Bytes) (rows cols : Nat) : EleGeom :=
  let pt := leAt r 8 1
  let pb := leAt r 9 1
  let pl := if p.causal then (p.kw - 1) * p.dil else leAt r 0x0A 1
  let pr := if p.causal then 0 else leAt r 0x0B 1
  let out (n k : Nat) := if n < (k - 1) * p.dil + 1 then 0 else (n - (k - 1) * p.dil - 1) / max p.stride 1 + 1
  { rows := rows, cols := cols, outRows := out (rows + pt + pb) p.kh, outCols := out (cols + pl + pr) p.kw,
    padTop := pt, padLeft := pl }

/-- Weights and biases that follow the parameter block: for each output channel its weights, then its bias. -/
def State.eleWeights (s : State) (p : EleParam) (r : Bytes) (base : Nat) : List Nat :=
  let n := p.cout * (p.k + 1)
  let b := s.cellarRead (base + leAt r 0x1C 4 + 32) (4 * n)
  (List.range n).map (fun i => leAt b (4 * i) 4)

/-- Raw bytes of an extent with some number of channels. -/
def EleParam.rawBytes (p : EleParam) (positions ch : Nat) : Nat := positions * ch * p.sampleBytes

/-- TFMT: a format of Table 11-2, E8M31 among them (R255). -/
inductive TElem where
  | fmt (f : Fmt)
  | wide
  deriving DecidableEq, Repr

def TElem.of (c : Nat) : Option TElem := if c = 0x12 then some .wide else (vFmt c).map .fmt

/-- Bytes of a tensor of n elements on a Stream Passage: the elements, then their scales (log entry 8). -/
def TElem.bytes (t : TElem) (n : Nat) : Nat :=
  match t with
  | .fmt f => elemsB f n + (if f.isMx then cdiv n 32 else 0)
  | .wide => 8 * n

/-- A tensor as it travels: codes in order of rows, columns and channels, then scales. -/
def tensorOut (c : NumericCfg) (t : TElem) (vs : List Val) : Bytes × Flags :=
  match t with
  | .fmt f =>
    let vs' := if f.isMx then vs ++ List.replicate (32 * cdiv vs.length 32 - vs.length) (.fin false 0 0) else vs
    let (codes, scales, fl) := storeCodes c f vs'
    (bytesOf f (codes.take vs.length) [] ++ scales, fl)
  | .wide => let ys := vs.map toAcc; (ys.flatMap (fun y => le 8 y.1), ys.foldl (fun a y => a ||| y.2) 0)

/-- Scales of a tensor that has arrived. -/
def TElem.scales (t : TElem) (n : Nat) (b : Bytes) : Bytes :=
  match t with
  | .fmt f => if f.isMx then b.drop (elemsB f n) else []
  | .wide => []

/-- Lanes of a tensor that has arrived (R227). -/
def tensorIn (c : NumericCfg) (t : TElem) (n : Nat) (b : Bytes) : List Nat × Flags :=
  match t with
  | .fmt f => loadLanes c f (codesOf f n (b.take (elemsB f n))) (t.scales n b)
  | .wide =>
    let ys := (List.range n).map (fun i => exactLane c (accVal (leAt b (8 * i) 8)))
    (ys.map (·.1), ys.foldl (fun a y => a ||| y.2) 0)

/-- A pad constant as a lane, in the input tensor's format under scale x: the code w itself, or the binary32 value w converted with
RNE_SAT (R246). -/
def padLane (c : NumericCfg) (t : TElem) (x w : Nat) : Nat × Flags :=
  match t with
  | .fmt f =>
    let v := Fmt.f32.decode (w % 2 ^ 32)
    let v := match f.isMx, v with | true, .fin s m e => .fin s m (e - x + 127) | _, v => v
    let (code, fl) := if c.padc = 0 then (w % 2 ^ f.bits, 0) else f.convert c.mode 0 v
    let u := f.load c.mode code
    let (z, g) := exactLane c (if f.isMx then u.scale x else u)
    (z, fl ||| g)
  | .wide =>
    let (a, fl) := if c.padc = 0 then (w % 2 ^ 40, 0) else toAcc (Fmt.f32.decode (w % 2 ^ 32))
    let (z, g) := exactLane c (accVal a)
    (z, fl ||| g)

/-- The pad constant of a layer at a position outside its input: the word is the graph image's, where it holds it is not stated;
and under which scale of the tensor a padded element falls is not stated (log entry 54). -/
def State.elePad (c : NumericCfg) (l : Layer) (t : TElem) (scales : Bytes) (s : State) : Int → Int → Nat → Nat × Flags :=
  let w := match (s.task? l.task).bind s.taskGraph with
    | some g => (Config.padConst (leAt g.gd 0 g.gd.length) (leAt g.wd 0 g.wd.length) l.idx).toNat
    | none => 0
  fun y x ch => padLane c t (Config.padScale l.idx y x ch (scales.map (·.toNat))).toNat w

/-- The task slot that takes the flags: on the room island at the other end of the passage (R262). -/
def State.eleSlot (s : State) (j : Nat) (l : Layer) : Nat × Nat :=
  let island := match s.elePassage j l with
    | some (_, p) => (if l.out then p.src else p.sink) / 4
    | none => l.isl
  match s.task? l.task with
  | some t => (t.slots.find? (fun x => x.1 == island)).getD (l.isl, l.slot)
  | none => (l.isl, l.slot)

/-- Where the ELE state of a task lies, where the task has a state block (R260). -/
def stateAt (t : Task) (p : EleParam) : Option Nat :=
  if dUsesState t.ent.raw then some (dState t.ent.raw + p.stateOff) else none

/-! ### The engine's steps -/

/-- A poisoned word that an ELE operation reads ends its task (R335). -/
def State.elePoison (l : Layer) (tval : Nat) (s : State) : State := s.poisoned l.isl l.slot l.epc tval

def Layer.before (a b : Layer) : Bool := evBefore (a.stamp, a.src, a.ord) (b.stamp, b.src, b.ord)

/-- A passage of an ELE moves what its layer stands ready for. -/
def State.eleFlow (j : Nat) (s : State) : State :=
  match (s.eleRt j).layer with
  | some l => match s.elePassage j l with | some (key, _) => s.flow key | none => s
  | none => s

/-- An idle ELE that no Sweep step or suspicion holds takes its next request in the R37 order of arrival, and reads its state; an output layer
asks its passage for its tensor (R48, R255, R260). -/
def State.eleStart (j rows cols : Nat) (s : State) : State :=
  if (s.eleRt j).layer.isSome || (s.ras.sweepBusy && s.ras.sweepUnit == 0x60 + j) then s
  else match firstBy Layer.before (s.eng.eleIn.filter (fun x => x.eng == j && s.mayServe (0x60 + j) x.stamp)) with
    | none => s
    | some l =>
      let s := (s.modEng (fun e => { e with eleIn := e.eleIn.filter (fun x => x.ord != l.ord) })).modEle j
        (fun e => { e with layer := some { l with rows := rows, cols := cols } })
      let s := match s.eleOf l with
        | some (p, _, _) => (match TElem.of p.tfmt with
          | some t => if l.out then (s.setLayer j (fun l => { l with want := cdiv (t.bytes (rows * cols * p.cin)) 32 })).eleFlow j else s
          | none => s)
        | none => s
      match s.eleOf l, s.task? l.task with
      | some (p, _, _), some t =>
        match stateAt t p with
        | none => s.setLayer j (fun l => { l with state := zeros p.stateBytes })
        | some a =>
          let v := s.cellarView t
          match v.poisonIn lineB a p.stateBytes with
          | some w => s.elePoison l w
          | none => s.setLayer j (fun l => { l with state := v.read a p.stateBytes })
      | _, _ => s

/-- An ingest layer whose raw samples are all there computes and sends its tensor (R257). -/
def State.eleIngestRun (j : Nat) (l : Layer) (p : EleParam) (r : Bytes) (base : Nat) (s : State) : State :=
  let c := s.numeric l.room
  let g := eleGeom p r l.rows l.cols
  let ws := s.eleWeights p r base
  match TElem.of p.tfmt with
  | none => s
  | some t =>
    let (ys, fi, st) := eleIngest c.mode p g ws (s.elePad c l (.fmt .f32) []) (EleState.read p l.state) (rawSamples p l.input)
    let (b, fo) := tensorOut c t (ys.map (fun y => (laneIn c.mode y).1))
    let s := (s.setLayer j (fun l => { l with computed := true, state := EleState.write p st, output := b })).eleFlow j
    let (n, k) := s.eleSlot j l
    s.raiseFlags n k l.epc (placeFlags engConv (fi ||| fo))

/-- The ELE reads the chunk that a tied read has brought (R256). -/
def State.eleRead (j : Nat) (l : Layer) (p : EleParam) (r : Bytes) (base : Nat) (s : State) : State :=
  let want := p.rawBytes (l.rows * l.cols) p.cin - l.input.length
  let n := min l.landed want
  if l.landed = 0 || l.computed then s
  else match (s.island p.feed).shelf.poisonIn wordB p.buf n with
    | some w => s.elePoison l w
    | none =>
      let l' := { l with landed := 0, input := l.input ++ (s.island p.feed).shelf.read p.buf n, chunks := l.chunks + 1 }
      let s := ((s.setLayer j (fun _ => l')).modEle j (fun e => { e with inS := (e.inS + n / p.sampleBytes) % 2 ^ 32 })).tiedGo l.isl l.slot
      if want ≤ n then s.eleIngestRun j l' p r base else s

/-- The ELE fills the raw buffer with its next chunk once the chunk before has been written (R256). -/
def State.eleFill (j : Nat) (p : EleParam) (s : State) : State :=
  match (s.eleRt j).layer with
  | none => s
  | some l =>
    if !l.computed || l.filled != 0 || l.output.isEmpty then s
    else
      let b := l.output.take (p.chunkKib * 1024)
      (((s.modShelf p.feed (fun st => st.write wordB p.buf b)).setLayer j (fun l =>
        { l with filled := b.length, output := l.output.drop b.length, chunks := l.chunks + 1 })).modEle j
        (fun e => { e with outS := (e.outS + b.length / p.sampleBytes) % 2 ^ 32 })).tiedGo l.isl l.slot

/-- An output layer that has its tensor computes; a poisoned handshake ends its task (R258, R259, R335). -/
def State.eleOutputRun (j : Nat) (l : Layer) (p : EleParam) (r : Bytes) (base : Nat) (s : State) : State :=
  match TElem.of p.tfmt with
  | some t =>
    let n := l.rows * l.cols * p.cin
    if l.want != 0 then s
    else
      if l.tainted then let (v, s) := s.draw; s.elePoison l v.toNat
      else
        let c := s.numeric l.room
        let ws := s.eleWeights p r base
        let pad := s.elePad c l t (t.scales n (l.input.take (t.bytes n)))
        let (xs, fx) := tensorIn c t n (l.input.take (t.bytes n))
        let session := match s.task? l.task with | some t => dSession t.ent.raw | none => 0
        let (a, st) := eleOutput c.mode p (eleGeom p r l.rows l.cols) ws pad session (EleState.read p l.state) xs
        let s := (s.setLayer j (fun l =>
          { l with computed := true, state := EleState.write p st, output := a.raw.flatMap (rawOut p) })).modEle j
          (fun e => { e with clamps := sat 32 (e.clamps + a.clamped), nans := sat 16 (e.nans + a.nans) })
        let (n, k) := s.eleSlot j l
        s.raiseFlags n k l.epc (placeFlags engConv (fx ||| a.flags))
  | none => s

/-- The ELE takes up what stands ready for its layer. -/
def State.eleTake (j : Nat) (s : State) : State :=
  match (s.eleRt j).layer with
  | none => s
  | some l =>
    match s.eleOf l with
    | none => s
    | some (p, r, base) =>
      if l.out then (if l.computed then s else s.eleOutputRun j l p r base).eleFill j p
      else s.eleRead j l p r base

/-- The layer completes: its state joins the task's state-block write-back, and the engine is free (R260, R261). -/
def State.eleDone (j : Nat) (s : State) : State :=
  match (s.eleRt j).layer with
  | none => s
  | some l =>
    match s.eleOf l, s.task? l.task with
    | some (p, r, _), some t =>
      if !l.computed || !l.output.isEmpty || l.filled != 0 then s
      else
        let g := eleGeom p r l.rows l.cols
        let outs := g.outRows * g.outCols * p.cout
        let samples := if l.out then outs else l.rows * l.cols * p.cin
        let s := match stateAt t p with
          | some a => s.cellarStore l.task t a l.state []
          | none => s
        (s.modTask l.task (fun t => { t with eleDone := insN l.idx t.eleDone })).modEle j (fun e =>
          { e with layer := none, cycles := (e.cycles + eleCycles (max l.chunks 1) samples (outs * p.k)) % 2 ^ 64 })
    | _, _ => s

/-- An error inside an ELE (R262, Table 5-3). -/
def State.eleFail (j : Nat) (s : State) : State :=
  let served := (s.eleRt j).layer
  let s := s.modEle j (fun e => { e with layer := none, restarts := sat1 16 e.restarts,
                                         lastRoom := match served with | some l => l.room | none => e.lastRoom })
  s.engineRestart (0x60 + j) (served.map (fun l => (l.isl, l.slot)))

/-! ### Registers (Table 12-7) -/

def State.readEle (s : State) (j off : Nat) : Word :=
  let e := s.eleRt j
  if off = 0 then
    let run := match e.layer with | some l => [(0, 1, 1), (4, 6, l.room)] | none => []
    packW ([(1, 1, b2n ((s.roomsOn (0x60 + j)).any s.levelT)),
            (16, 4, sat 4 (s.eng.eleIn.filter (fun x => x.eng == j)).length)] ++ run)
  else if off = 8 then BitVec.ofNat 64 e.cycles
  else if off = 0x10 then packW [(0, 32, e.inS), (32, 32, e.outS)]
  else if off = 0x18 then packW [(0, 32, e.clamps), (32, 16, e.nans)]
  else if off = 0x20 then packW [(0, 16, e.restarts), (16, 6, e.lastRoom)]
  else 0

/-! ### Commands -/

def execEleLayerStart (ele : Ele) (rows cols : Nat) (s : State) : Answer := .next (s.eleStart ele rows cols)
def execEleChunk (ele : Ele) (s : State) : Answer := .next (s.eleTake ele)
def execEleLayerDone (ele : Ele) (s : State) : Answer := .next (s.eleDone ele)
def execEleRestart (ele : Ele) (s : State) : Answer := .next (s.eleFail ele)

end Sys2Proof.Machine
end

