-- ==== Sys2Proof/Machine/Platform.lean ====
section
/-! DEFINITION. Bring-up, power and resets of the whole device (R101, R431–R449): cold and warm reset, boot, power states
and gating, fuse burns, firmware updates. -/

namespace Sys2Proof.Machine

open Sys2Proof

/-! ### Fuses and flash (R433, R436, R442–R444) -/

def KeySlot.none : KeySlot := { provisioned := false, revoked := false, hash := 0 }

/-- The pending operation burned and read back; a new nonce follows (R443). -/
def State.burn (ok : Bool) (s : State) : State :=
  match s.plat.fusePending with
  | none => s
  | some (op, arg, hash) =>
    let (nonce, s) := s.draw
    let slot := fun (f : KeySlot → KeySlot) (p : Plat) => { p with keys := setAt p.keys arg (f (p.keys.getD arg .none)) }
    let s := s.modPlat (fun p =>
      if op = 1 then slot (fun k => { k with provisioned := true, hash := hash, revoked := k.revoked || !ok }) p
      else if !ok then p
      else if op = 2 then slot (fun k => { k with revoked := true }) p
      else { p with svnFuse := max p.svnFuse arg })
    s.modPlat (fun p => { p with fusePending := none, fuseLast := if ok then 1 else 2, nonce := nonce })

/-- The ROM accepts an image. -/
def Plat.imageOk (p : Plat) (i : Nat) : Bool :=
  match p.imgs[i]? with | some x => x.sigOk && decide (p.svnFuse ≤ x.svn) | none => false

def Plat.imageSigned (p : Plat) (i : Nat) : Bool := match p.imgs[i]? with | some x => x.sigOk | none => false
def Plat.imageSvn (p : Plat) (i : Nat) : Nat := match p.imgs[i]? with | some x => x.svn | none => 0

def offHk : Nat := 0x900000

/-- HK_FW_CTRL: LEN lands, above 16 MiB as 0 (R470); GO starts an update, unless one runs (R436). -/
def State.fwUpdate (v : Word) (s : State) : State :=
  let len := fld v 0 32
  let s := s.setReg (offHk + 8) (packW [(0, 32, if len ≤ 2 ^ 24 then len else 0)])
  if bitOf v 32 then s.modPlat (fun p => { p with fwBusy := true }) else s

/-- The image is written to the inactive slot, which becomes the one to try next; a failed write leaves that slot's
signature open. -/
def State.fwDone (r : FwResult) (s : State) : State :=
  if !s.plat.fwBusy then s
  else
    let post := fun (n : Nat) (s : State) => s.modPlat (fun p => { p with fwBusy := false, fwRes := n })
    let other := 1 - s.plat.next
    match r with
    | .badSignature => post 2 s
    | .lowSvn => post 3 s
    | .fetchFault => post 5 s
    | .flashFail =>
      let (x, s) := s.draw
      post 4 (s.modPlat (fun p => { p with imgs := setAt p.imgs other { sigOk := bitOf x 0, svn := p.imageSvn other } }))
    | .staged svn =>
      if svn < s.plat.svnFuse then post 3 s
      else post 1 (s.modPlat (fun p => { p with imgs := setAt p.imgs other { sigOk := true, svn := svn % 64 }, next := other }))

/-! ### Cold reset, power-on, loss of the main input (R431, R445, R449) -/

/-- RAS after a cold reset: the record stands, its units are RETIRED, and a full record leaves the device DRAINED
(R406). -/
def Ras.cold (r : Ras) : Ras :=
  { Ras.reset with record := r.record, drain := if 8 ≤ r.record.length then 2 else 0
                   units := r.record.foldl (fun m e => NMap.set m (fld e.b 0 12) { UnitRt.reset with health := .retired }) [] }

/-- Platform state that outlives the main domain: fuses, flash, the auxiliary domain and the pins of JTAG. -/
def Plat.kept (p : Plat) (w : Power) : Plat :=
  { Plat.reset with power := w, lastTrip := p.lastTrip, thermtrip := p.thermtrip, svnFuse := p.svnFuse, keys := p.keys
                    nonce := p.nonce, imgs := p.imgs, next := p.next, pcieCfg := p.pcieCfg, pcieNow := p.pcieCfg
                    jtagIr := p.jtagIr, jtagBr := p.jtagBr }

/-- All state lost but what the fuses, the flash and the auxiliary domain hold (Table 5-6, cold reset). -/
def State.lost (w : Power) (s : State) : State :=
  { State.reset with pending := s.pending, ident := s.ident, out := s.out, free := s.free, ras := s.ras.cold, plat := s.plat.kept w }

/-- A cold reset: THERMTRIP# is released, and the nonce is new. -/
def State.cold (w : Power) (s : State) : State :=
  let (nonce, s) := s.draw
  (s.lost w).modPlat (fun p => { p with nonce := nonce, thermtrip := false })

/-- Length of the PERST# filter, ns (Table 20-10). -/
def State.perstFilter (s : State) : Nat := [0, 8, 16, 32, 64, 16, 16, 16].getD (fld (s.reg 0x500 0x64142) 0 3) 16

/-- PERST: a pulse no longer than the filter has no effect; a device above 85 °C holds at STAGE 0 (R449). -/
def State.perst (ns hotC : Nat) (s : State) : State :=
  if s.plat.power == .off || decide (ns ≤ s.perstFilter) then s
  else s.cold (if 85 < hotC then .held else .d0)

/-- POWER_ON: auxiliary power arrives; the main domain follows with PERST#. The auxiliary domain starts afresh. -/
def State.powerOn (s : State) : State := (s.cold .d3cold).modPlat (fun p => { p with lastTrip := 0 })

def State.inputRemoved (s : State) : State :=
  if s.plat.power == .off || s.plat.power == .d3cold then s else s.lost .d3cold

def tripNum : TripCause → Nat
  | .thermal => 1 | .undervoltage => 2 | .overcurrent => 3

def State.trip (c : TripCause) (s : State) : State :=
  if s.plat.power == .off || s.plat.power == .d3cold then s
  else (s.lost .d3cold).modPlat (fun p => { p with lastTrip := tripNum c, thermtrip := true })

/-! ### Boot (R432–R435) -/

/-- GTC_OFFS of every island but the Housekeeper's, as boot measures it (R33), and where the island's view then stands
against the master: anywhere within ±4 ns (R35). Both are free values. -/
def State.measureTree (s : State) : State :=
  (dcoSources ++ [0x90]).foldl (fun s src =>
    let (x, s) := s.draw
    let (y, s) := s.draw
    s.modClkIsl src (fun c =>
      { c with offs := x.toNat % 256, lag := (y.toNat % 9 : Nat) - (4 : Int) - (x.toNat % 256 : Nat) })) s

def State.startGtc (bootMs : Nat) (s : State) : State :=
  let (x, s) := s.draw
  (s.modClk (fun c => { c with valid := true, gtc := x.toNat % (bootMs * 1000000 + 1) })).measureTree

def State.bootReady (b : BootIn) (s : State) : State :=
  if (s.plat.power != .d0 && s.plat.power != .held) || s.plat.ready || s.plat.recovery || s.plat.stage != 0 then s
  else
    let s := s.modPlat (fun p => { p with power := .d0, speed := b.speed, width := b.width
                                          degraded := decide (b.speed < 4) || decide (b.width < 4) })
    let p := s.plat
    let first := p.next
    let recover := fun (f : Nat) => s.modPlat (fun p => { p with recovery := true, fail := f })
    if !b.fuseOk then recover 4
    else if !p.imageOk first && !p.imageOk (1 - first) then recover (if p.imageSigned first && p.imageSigned (1 - first) then 3 else 2)
    else
      let img := if p.imageOk first then first else 1 - first
      let s := s.modPlat (fun p => { p with image := img, next := img, svnFw := p.imageSvn img, fail := if img = first then 0 else 1 })
      if !b.trainOk then (s.startGtc b.bootMs).modPlat (fun p => { p with stage := 4, fail := 5 })
      else
        let s := (s.startGtc b.bootMs).modPlat (fun p => { p with stage := 7, ready := true, bootMs := b.bootMs % 65536 })
        (List.range 4).foldl (fun s c => s.modCctl c (fun x => { x with trained := true })) s

/-- The pattern on RET_LED#: a blink stands above steady light (R434, R435, and the list under R453). -/
def State.led (s : State) : Led :=
  if s.plat.recovery then .slow
  else if s.plat.stage = 4 ∧ s.plat.fail = 5 then .fast
  else if s.ras.record.isEmpty then .off
  else .lit

/-! ### Warm chip reset (Tables 5-6 and 5-7) -/

/-- Everything staged is written, or lost (R423). -/
def State.sealAll (s : State) : State :=
  (List.range ((s.ledg.stages.map (fun e => e.2.buf.length)).sum + 1)).foldl (fun s _ => s.seal) s

/-- Clock settings of a set: TOP_CLK_* keep their values. -/
def ConfigSet.clocksOnly (c : ConfigSet) : ConfigSet :=
  { ConfigSet.empty with rwt := c.rwt.filter (fun e => decide (0x1000 ≤ e.1) && decide (e.1 < 0x2000)) }

/-- RAS after a warm reset: record, DRAINED and margin steps. -/
def Ras.warm (r : Ras) : Ras :=
  { Ras.reset with record := r.record, drain := if r.drain = 2 then 2 else 0, bound := r.bound
                   units := r.record.foldl (fun m e => NMap.upd m (fld e.b 0 12) .reset (fun u => { u with health := .retired }))
                     (NMap.mapV r.units (fun _ u => { UnitRt.reset with vstep := u.vstep, cstep := u.cstep })) }

/-- Platform state after a warm reset: TOP_PCIE_CFG, the nonce, TOP_FUSE_STATUS and LAST_TRIP, what boot established, and
the link as it now trains under the stored parameters. -/
def Plat.warm (p : Plat) : Plat :=
  let speed := min p.speed (6 - fld p.pcieCfg 0 2)
  let width := min p.width (16 / 2 ^ fld p.pcieCfg 2 2)
  { p.kept .d0 with ready := p.ready, recovery := p.recovery, stage := if p.ready then 7 else p.stage, image := p.image
                    fail := if p.ready then 0 else p.fail, svnFw := p.svnFw, fuseLast := p.fuseLast, speed := speed, width := width
                    degraded := decide (speed < 4) || decide (width < 4) }

/-- The Ledger ring's place in the Cellar (R413). -/
def ledgBytes : Nat := 2 ^ 20 * 64

def State.warm (burnOk : Bool) (s : State) : State :=
  let s := s.sealAll.burn burnOk
  let ring := s.cellar.store
  let inRing := fun (a : Nat) => decide (ledgBase ≤ a) && decide (a < ledgBase + ledgBytes)
  let t : State :=
    { State.reset with
      pending := s.pending, ident := s.ident, out := s.out, free := s.free
      clk := s.clk, living := s.living.clocksOnly, attic := s.attic.clocksOnly
      regs := s.regs.filter (fun e => decide (0x80000 ≤ e.1) && decide (e.1 < 0xA0000))
      ledg := s.ledg, inv := s.inv
      cellar := { Cellar.reset with
        store := { mem := ring.mem.filter (fun c => inRing c.1), poison := ring.poison.filter inRing }
        ctl := NMap.mapV s.cellar.ctl (fun _ c => { CellarCtl.reset with trained := c.trained }) }
      isl := NMap.mapV s.isl (fun _ i => { Isl.reset with frame := i.frame, frames := i.frames })
      cell := { Cell.reset with chip := s.cell.chip }
      link := { Link.reset with stepped := s.link.stepped }
      ras := s.ras.warm, plat := s.plat.warm }
  ((t.modHatch (fun h => { h with rec_ := s.txn.hatch.rec_ })).syncCeil).checkBound

def State.warmReset (c : WarmCause) (burnOk : Bool) (s : State) : State :=
  let go := match c with
    | .register v => fld v 0 8 == 0xA5 && bitOf v 16
    | .hotReset | .busReset | .linkDisable => true
  if go && s.mainOn then s.warm burnOk else s

/-! ### D3hot and gating (R445, R446) -/

def State.d3hot (s : State) : State :=
  if s.plat.power == .d0 then
    (List.range 64).foldl (fun s m => s.holdRoom m) (s.modPlat (fun p => { p with power := .d3hot }))
  else s

def State.d0 (s : State) : State :=
  if s.plat.power == .d3hot then
    (List.range 64).foldl (fun s m => s.resumeRoom m) (s.modPlat (fun p => { p with power := .d0 }))
  else s

/-- A unit in no room is gated; an island's Shelf, beyond its firmware region, is lost. -/
def State.gate (u : Nat) (s : State) : State :=
  let swept := (s.ras.sweepBusy && s.ras.sweepUnit == u) || (s.ras.auditBusy && s.ras.auditUnit == u) || (s.unit u).health == .verifying
  if s.plat.power == .d0 && isUnit u && (s.roomsOn u).isEmpty && s.unitIdle u && !swept then
    let s := s.modPlat (fun p => { p with gated := insN u p.gated })
    if isT u then s.modIsl (u - 0x10) (fun i => { i with shelf := .empty }) else s
  else s

/-! ### Commands -/

def execWarmChipReset (cause : WarmCause) (burnOk : Bool) (s : State) : Answer := .next (s.warmReset cause burnOk)
def execPerst (ns hotC : Nat) (s : State) : Answer := .next (s.perst ns hotC)
def execBootReady (b : BootIn) (s : State) : Answer := .next (s.bootReady b)
def execMainInputRemoved (s : State) : Answer := .next s.inputRemoved
def execThermalTrip (cause : TripCause) (s : State) : Answer := .next (s.trip cause)
def execD3hotEntry (s : State) : Answer := .next s.d3hot
def execD0Return (s : State) : Answer := .next s.d0
def execPowerGate (unit : Nat) (s : State) : Answer := .next (s.gate unit)
def execPowerWake (unit : Nat) (s : State) : Answer := .next (s.wake unit)
def execFwUpdate (v : Word) (s : State) : Answer := .next (s.fwUpdate v)
def execFwUpdateDone (r : FwResult) (s : State) : Answer := .next (s.fwDone r)
def execPowerOn (s : State) : Answer := .next s.powerOn

end Sys2Proof.Machine
end

