-- ==== Sys2Proof/Machine/RunGraph.lean ====
section
/-! DEFINITION. How graphs run (R114, R136, R137, R143, R219, R224): the Steward selects a slot, fetches the word at
its pc and executes it; a vector program starts, fetches and executes; words that are reserved or undefined raise
ILLEGAL. The registers of the Steward and of the vector engine (Tables 7-8 and 11-8). -/

namespace Sys2Proof.Machine

open Sys2Proof

/-! ### The Steward's instruction words (Tables 7-3 and 7-4) -/

def wCls (w : Nat) : Nat := nfld w 28 4
def wRd (w : Nat) : Reg := Fin.ofNat 32 (nfld w 23 5)
def wRs1 (w : Nat) : Reg := Fin.ofNat 32 (nfld w 18 5)
def wRs2 (w : Nat) : Reg := Fin.ofNat 32 (nfld w 13 5)
def wFn (w : Nat) : Nat := nfld w 0 13
def wSel (w : Nat) : Nat := nfld w 15 3
def wImm (w : Nat) : Imm15 := BitVec.ofNat 15 w
def wImm23 (w : Nat) : Imm23 := BitVec.ofNat 23 w

/-- An operation of the Steward on an island. -/
abbrev StewOp := Nat → State → State

/-- ALU: function [12:0] (R137). -/
def aluWord (w : Nat) : Option StewOp :=
  let f : Option (Word → Word → Word) := match wFn w with
    | 0 => some (· + ·)
    | 1 => some (· - ·)
    | 2 => some (· &&& ·)
    | 3 => some (· ||| ·)
    | 4 => some (· ^^^ ·)
    | 5 => some (fun a b => a <<< (b.toNat % 64))
    | 6 => some (fun a b => a >>> (b.toNat % 64))
    | 7 => some (fun a b => a.sshiftRight (b.toNat % 64))
    | 8 => some (fun a b => if a.slt b then 1 else 0)
    | 9 => some (fun a b => if a.ult b then 1 else 0)
    | 10 => some (· * ·)
    | 11 => some (fun a b => BitVec.ofInt 64 (a.toInt * b.toInt / 2 ^ 64))
    | 12 => some (fun a b => if b.slt a then b else a)
    | 13 => some (fun a b => if a.slt b then b else a)
    | _ => none
  f.map (fun f n => State.aluR n (wRd w) (wRs1 w) (wRs2 w) f)

/-- ALU-I: sel [17:15] (R137). -/
def aluiWord (w : Nat) : Option StewOp :=
  let i := wImm w
  match wSel w with
  | 0 => some (fun n => State.aluI n (wRd w) (wRs1 w) i (· + ·))
  | 1 => some (fun n => State.aluI n (wRd w) (wRs1 w) i (· &&& ·))
  | 2 => some (fun n => State.aluI n (wRd w) (wRs1 w) i (· ||| ·))
  | 3 => some (fun n => State.aluI n (wRd w) (wRs1 w) i (· ^^^ ·))
  | 4 => (shamt i).map (fun c n => State.aluOp n (wRd w) (fun k s => s.greg n k (wRs1 w) <<< c))
  | 5 => (shamt i).map (fun c n => State.aluOp n (wRd w) (fun k s => s.greg n k (wRs1 w) >>> c))
  | 6 => (shamt i).map (fun c n => State.aluOp n (wRd w) (fun k s => (s.greg n k (wRs1 w)).sshiftRight c))
  | _ => some (fun n => State.aluI n (wRd w) (wRs1 w) i (fun a b => if a.slt b then 1 else 0))

/-- LOAD: sel (R137). -/
def loadWord (w : Nat) : Option StewOp :=
  let go := fun (size : Nat) (ext : Nat → Word) => some (fun n => State.loadOp n (wRd w) (wRs1 w) (wImm w) size ext)
  match wSel w with
  | 0 => go 1 (sextN 1)
  | 1 => go 2 (sextN 2)
  | 2 => go 4 (sextN 4)
  | 3 => go 8 zextN
  | 4 => go 1 zextN
  | 5 => go 2 zextN
  | 6 => go 4 zextN
  | _ => none

/-- STORE: sel; the rd field names the data (R137). -/
def storeWord (w : Nat) : Option StewOp :=
  if wSel w < 4 then some (fun n => State.storeOp n (wRd w) (wRs1 w) (wImm w) (2 ^ wSel w)) else none

def condOf : Nat → Option Cond
  | 0 => some .eq
  | 1 => some .ne
  | 2 => some .lt
  | 3 => some .ge
  | 4 => some .ltu
  | 5 => some .geu
  | _ => none

/-- SYS: function [3:0], and the CSR number or zero in [12:4] (R137). -/
def sysWord (w : Nat) : Option StewOp :=
  let hi := wFn w / 16
  let bad := fun (n : Nat) (p : Nat → State → Bool) (f : State → State) (s : State) =>
    s.onSteward n (fun k s => if p k s then s.illegal n k w else f s)
  match wFn w % 16 with
  | 0 => if 1 ≤ hi ∧ hi ≤ 7 then some (fun n => State.csrrOp n (wRd w) (BitVec.ofNat 9 hi)) else none
  | 1 => if hi = 3 ∨ hi = 4 then some (fun n => State.csrwOp n (BitVec.ofNat 9 hi) (wRs1 w)) else none
  | f =>
    if hi != 0 then none
    else match f with
      | 2 => some (fun n => State.waitOp n (wRs1 w))
      | 3 => some (fun n => State.trapOp n (wRs1 w))
      | 4 => some (fun n => bad n (fun k s => !([0, 0x12, 0x2D].contains (s.greg n k (wRs1 w)).toNat)) (State.exitOp n (wRs1 w)))
      | 5 => some (fun n => bad n (fun k s => !(s.slot n k).inHandler) (State.eretOp n))
      | 6 => some State.fenceOp
      | _ => none

/-- DMA: function [1:0], zero in [12:2] (R137). -/
def dmaWord (w : Nat) : Option StewOp :=
  match wFn w with
  | 0 => some (fun n => State.dmaOp n false (wRd w) (wRs1 w))
  | 1 => some (fun n => State.dmaOp n true (wRd w) (wRs1 w))
  | 2 => some (fun n => State.waittagOp n (wRs1 w))
  | _ => none

/-- CRATE: function [2:0], P6 in bit 3, zero in [12:4]; the crate, 0–15, in rd (R166, Table 8-3). -/
def crateInstr (w : Nat) : Option StewOp :=
  let p6 := nbit w 3
  if wFn w / 16 != 0 || decide (16 ≤ (wRd w).val) then none
  else match wFn w % 8 with
    | 0 => some (fun n => State.crateXfer n (wRd w) (wRs1 w) (wRs2 w) p6 false)
    | 1 => some (fun n => State.crateXfer n (wRd w) (wRs1 w) (wRs2 w) p6 true)
    | 2 => some (fun n => State.crateZero n (wRd w))
    | 3 => some (fun n => State.crateRelease n (wRd w))
    | 4 => some (fun n => State.crateMap n (wRd w) (wRs1 w))
    | 5 => some (fun n => State.crateUnmap n (wRd w))
    | _ => none

/-- GRID: function [1:0]; function [12:2], rd and rs2 are zero. -/
def gridInstr (w : Nat) : Option StewOp :=
  if (wRd w).val != 0 || (wRs2 w).val != 0 then none
  else match wFn w with
    | 0 => some (fun n => State.gridFmt n (wRs1 w))
    | 1 => some (fun n => State.gridOp n false (wRs1 w))
    | 2 => some (fun n => State.gridOp n true (wRs1 w))
    | _ => none

/-- VEC: function [0] (R216). -/
def vecInstr (w : Nat) : Option StewOp :=
  if (wRd w).val != 0 then none
  else match wFn w with
    | 0 => some (fun n => State.vecRunOp n (wRs1 w) (wRs2 w))
    | 1 => if (wRs1 w).val != 0 || (wRs2 w).val != 0 then none else some State.vecSyncOp
    | _ => none

/-- What an instruction word does; none where R136 raises ILLEGAL. -/
def stewWord (w : Nat) : Option StewOp :=
  match wCls w with
  | 0 => aluWord w
  | 1 => aluiWord w
  | 2 => some (fun n => State.aluOp n (wRd w) (fun _ _ => luiW (wImm23 w)))
  | 3 => loadWord w
  | 4 => storeWord w
  | 5 => (condOf (wSel w)).map (fun c n => State.branchOp n c (wRd w) (wRs1 w) (wImm w))
  | 6 => some (fun n => State.jalOp n (wRd w) (wImm23 w))
  | 7 => if wSel w = 0 then some (fun n => State.jalrOp n (wRd w) (wRs1 w) (wImm w)) else none
  | 8 => sysWord w
  | 9 => dmaWord w
  | 10 => crateInstr w
  | 11 => gridInstr w
  | 12 => vecInstr w
  | _ => none

/-- The running slot fetches and executes the word at its pc; a poisoned word ends the task (R133, R335). -/
def State.fetchRun (n : Nat) (s : State) : State :=
  s.onSteward n (fun k s =>
    let pc := (s.slot n k).pc
    if ((s.island n).shelf.poisonIn wordB pc 4).isSome then s.poisoned n k pc pc
    else
      let w := unle ((s.island n).shelf.read pc 4)
      match stewWord w with
      | some f => f n s
      | none => s.illegal n k w)

/-- The Steward runs: with no slot running it selects one under R143, unless a Sweep step holds the unit. -/
def State.runIsland (n : Nat) (s : State) : State :=
  match s.runningSlot n with
  | some _ => s.fetchRun n
  | none =>
    if s.ras.sweepBusy && s.ras.sweepUnit == 0x10 + n then s
    else match s.nextReady n with
      | some k => s.select n k
      | none => s

/-! ### Vector instruction words (Tables 11-1 and 11-3) -/

/-- What an OP does; none for an OP that is undefined. -/
def vecInstrOf (op : Nat) (f : VFields) : Option StewOp :=
  match op with
  | 0x00 => some State.vend
  | 0x01 => some State.vnop
  | 0x02 => some (fun n => State.vaddp n f)
  | 0x08 => some (fun n => State.vld n f)
  | 0x09 => some (fun n => State.vldi n f)
  | 0x0A => some (fun n => State.vecLdw n f)
  | 0x0B => some (fun n => State.vst n f)
  | 0x0C => some (fun n => State.vsti n f)
  | 0x0D => some (fun n => State.vecStw n f)
  | 0x10 => some (fun n => State.lane2 n f lAdd)
  | 0x11 => some (fun n => State.lane2 n f lSub)
  | 0x12 => some (fun n => State.lane2 n f lMul)
  | 0x13 => some (fun n => State.vfma n f)
  | 0x14 => some (fun n => State.lane2 n f (lMaxMin false))
  | 0x15 => some (fun n => State.lane2 n f (lMaxMin true))
  | 0x16 => some (fun n => State.lane1 n f lAbs)
  | 0x17 => some (fun n => State.lane1 n f lNeg)
  | 0x18 => some (fun n => State.lane2 n f lCmpLt)
  | 0x19 => some (fun n => State.vsel n f)
  | 0x1A => some (fun n => State.vbcast n f)
  | 0x1B => some (fun n => State.lane1 n f lCvtIF)
  | 0x1C => some (fun n => State.lane1 n f lCvtFI)
  | 0x20 => some (fun n => State.laneI n f (fun a b => a + b))
  | 0x21 => some (fun n => State.laneI n f (fun a b => a + 2 ^ 32 - b))
  | 0x22 => some (fun n => State.laneI n f (fun a b => a * b))
  | 0x23 => some (fun n => State.laneI n f (fun a b => a &&& b))
  | 0x24 => some (fun n => State.laneI n f (fun a b => a ||| b))
  | 0x25 => some (fun n => State.laneI n f (fun a b => a ^^^ b))
  | 0x26 => some (fun n => State.laneI n f (fun a b => a * 2 ^ (b % 32)))
  | 0x27 => some (fun n => State.laneI n f (fun a b => a / 2 ^ (b % 32)))
  | 0x28 => some (fun n => State.laneI n f lSra)
  | 0x29 => some (fun n => State.laneI n f lIMin)
  | 0x2A => some (fun n => State.laneI n f lIMax)
  | 0x2B => some (fun n => State.vimm n f)
  | 0x30 => some (fun n => State.vaddw n f)
  | 0x31 => some (fun n => State.vcvtfw n f)
  | 0x40 => some (fun n => State.sfuOp n f false)
  | 0x41 => some (fun n => State.sfuOp n f true)
  | 0x50 => some (fun n => State.vrmax n f)
  | 0x51 => some (fun n => State.vrsum n f)
  | 0x52 => some (fun n => State.rsexp n f)
  | 0x53 => some (fun n => State.vrmean n f)
  | 0x54 => some (fun n => State.vrvar n f)
  | 0x55 => some (fun n => State.vrms n f)
  | 0x58 => some (fun n => State.vtree n f)
  | 0x60 => some (fun n => State.vsdot n f)
  | 0x70 => some (fun n => State.vdw n f)
  | _ => none

/-- What a vector instruction word does; none where R219 raises ILLEGAL for its OP or its reserved bits. -/
def vecInstrWord (w : Nat) : Option StewOp := (vecWord w).bind (fun p => vecInstrOf p.1 p.2)

/-- The running program fetches and executes the instruction it stands at. -/
def State.vecFetch (n : Nat) (s : State) : State :=
  match s.vecProg n with
  | none => s
  | some (v, _) =>
    let a := v.at_
    if s.pin n < a + 8 then s.vecStop n v excAccess a
    else if ((s.island n).shelf.poisonIn wordB a 8).isSome then (s.vecEnded n).poisoned n v.slot v.epc a
    else match vecInstrWord (unle ((s.island n).shelf.read a 8)) with
      | some f => f n s
      | none => s.vecIllegal n v

/-- The head program starts, or, once it runs, goes on by one instruction. -/
def State.vecAdvance (n : Nat) (s : State) : State :=
  match (s.island n).vec with
  | v :: _ => if v.started then s.vecFetch n else s.vecStart n
  | [] => s

/-- A reserved or undefined word reached by the Steward or by the vector engine; any other word has its own command. -/
def State.reservedWord (n : Nat) (vec : Bool) (w : Word) (s : State) : State :=
  if vec then
    if (vecInstrWord w.toNat).isSome then s
    else match s.vecProg n with | some (v, _) => s.vecIllegal n v | none => s
  else if (stewWord (w.toNat % 2 ^ 32)).isSome then s
  else s.onSteward n (fun k s => s.illegal n k (w.toNat % 2 ^ 32))

/-! ### Registers (Tables 7-8 and 11-8) -/

/-- Number of a slot state in ISL_n_STEW_SLOTS. -/
def SlotSt.num : SlotSt → Nat
  | .free => 0 | .ready => 1 | .running => 2 | .waiting => 3 | .stopping => 4 | .ending => 5

/-- STEW_CYCLES as it stands: it has grown by a free amount where a slot runs or instructions have committed since the last read
(log entry 45). -/
def State.seeCycles (n : Nat) (s : State) : State :=
  let i := s.island n
  if i.instret = i.cyclesAt && (s.runningSlot n).isNone then s
  else
    let (v, s) := s.draw
    s.modIsl n (fun i => { i with stewCycles := (i.stewCycles + v.toNat % 2 ^ 32) % 2 ^ 64, cyclesAt := i.instret })

/-- No unit but the Steward has reached the island's Shelf since its reset: no transfer, DMA, vector or Grid operation committed, no
crates to swap, no span whose members write into it (R318). -/
def State.shelfAlone (s : State) (n : Nat) : Bool :=
  let i := s.island n
  i.ord == 0 && i.swSaved == 0 && i.swRestored == 0 && i.swapTo.isEmpty && i.slots.all (fun x => x.2.full.isEmpty)
    && (match s.roomOf n with | some m => !s.spanRoom m | none => true)

/-- BANKCONF as it stands: it has grown by a free amount where the Steward has committed instructions since the last read and another
unit may have wanted a bank. -/
def State.seeBanks (n : Nat) (s : State) : State :=
  let i := s.island n
  if i.instret = i.bankAt || s.shelfAlone n then s
  else
    let (v, s) := s.draw
    s.modIsl n (fun i => { i with bankConf := (i.bankConf + v.toNat % 2 ^ 32) % 2 ^ 64, bankAt := i.instret })

/-- A Steward register by its offset in the ISL page. -/
def State.readSteward (n off : Nat) (s : State) : Word × State :=
  let i := s.island n
  if 0x100 ≤ off && off < 0x140 then ((i.frame[(off - 0x100) / 8]?).getD 0, s)
  else if off = 0x140 then
    let busy := (List.range 16).map (fun k => (k, 1, b2n ((s.slot n k).st != .free)))
    (match s.runningSlot n with
      | some k => packW (busy ++ [(16, 4, k), (20, 1, 1), (21, 1, b2n (s.slot n k).inHandler)])
      | none => packW busy, s)
  else if off = 0x148 then (packW ((List.range 16).map (fun k => (3 * k, 3, (s.slot n k).st.num))), s)
  else if off = 0x150 then (s.rwt (offStewCfg n), s)
  else if off = 0x180 then let s := s.seeCycles n; (BitVec.ofNat 64 (s.island n).stewCycles, s)
  else if off = 0x1A8 then let s := s.seeBanks n; (BitVec.ofNat 64 (s.island n).bankConf, s)
  else if off = 0x188 then (BitVec.ofNat 64 i.instret, s)
  else if off = 0x190 then (packW [(0, 32, i.brRes), (32, 32, i.brMis)], s)
  else if off = 0x198 then (BitVec.ofNat 64 i.sqFetch, s)
  else if off = 0x1A0 then (BitVec.ofNat 64 i.sqExec, s)
  else if off = 0x1B0 then (BitVec.ofNat 64 i.switches, s)
  else if off = 0x1B8 then (packW [(0, 32, i.excHandled), (32, 32, i.excEnded)], s)
  else (0, s)

/-- A vector register by its offset in the ISL page. -/
def State.readVector (n off : Nat) (s : State) : Word × State :=
  let i := s.island n
  if off = 0x400 then
    (match i.vec with
      | v :: _ => packW ([(20, 3, i.vec.length)] ++ if v.started then [(0, 1, 1), (4, 4, v.slot), (8, 12, v.pc)] else [])
      | [] => 0, s)
  else if off = 0x408 then (BitVec.ofNat 64 i.vecCycles, s)
  else if off = 0x410 then (packW [(0, 32, i.sfuPwl), (32, 32, i.sfuIter)], s)
  else if off = 0x418 then (packW [(0, 32, i.vecDone), (32, 16, i.vecFaulted)], s)
  else if off = 0x420 then (BitVec.ofNat 64 i.vecStall, s)
  else (0, s)

/-! ### Commands -/

def execRun (isl : IslN) (s : State) : Answer := .next (s.runIsland isl)
def execVecProgramStart (isl : IslN) (s : State) : Answer := .next (s.vecAdvance isl)
def execReservedInstruction (isl : IslN) (vec : Bool) (w : Word) (s : State) : Answer := .next (s.reservedWord isl vec w)

end Sys2Proof.Machine
end

