-- ==== Sys2Proof/Machine/Sideband.lean ====
section
/-! DEFINITION. Attestation and the sideband: the SPDM responder and IDE_KM of PF0's DOE mailbox (R441), SMBus (R457), and
boundary scan (R452). Response codes and layouts that the manual takes from the DMTF and IEEE standards are PRESUMED
(log entry 9). -/

namespace Sys2Proof.Machine

open Sys2Proof

/-! ### SPDM (Table 20-3) -/

/-- The mailbox answers while the main domain is on. -/
def State.spdmReply (code : Nat) (fields : List Nat) (signed : Bool) (s : State) : State := s.send (.spdm code fields signed)

/-- An ERROR response: 1 InvalidRequest, 4 UnexpectedRequest, 6 DecryptError. -/
def State.spdmError (e : Nat) (s : State) : State := s.spdmReply 0x7F [e] false

/-- A request that needs the connection to have come at least as far as `need`; answered with an error otherwise. -/
def State.spdmAt (need : Nat) (f : State → State) (s : State) : State :=
  if !s.mainOn then s else if s.plat.spdm < need then s.spdmError 4 else f s

/-- GET_VERSION starts the connection afresh and ends every session. -/
def State.spdmVersion (s : State) : State :=
  if !s.mainOn then s
  else (s.modPlat (fun p => { p with spdm := 1, sessions := [] })).spdmReply 0x04 [0x12] false

def State.spdmCapabilities (s : State) : State :=
  s.spdmAt 1 (fun s => (s.modPlat (fun p => { p with spdm := max p.spdm 2 })).spdmReply 0x61 [] false)

/-- ALGORITHMS: the one suite of Table 20-3. -/
def State.spdmAlgorithms (s : State) : State :=
  s.spdmAt 2 (fun s => (s.modPlat (fun p => { p with spdm := max p.spdm 3 })).spdmReply 0x63 [] false)

def State.spdmDigests (s : State) : State := s.spdmAt 3 (fun s => s.spdmReply 0x01 [1] false)

/-- Only certificate slot 0 exists. -/
def State.spdmCertificate (slot : Nat) (s : State) : State :=
  s.spdmAt 3 (fun s => if slot = 0 then s.spdmReply 0x02 [0] false else s.spdmError 1)

def State.spdmChallenge (slot : Nat) (s : State) : State :=
  s.spdmAt 3 (fun s => if slot = 0 then s.spdmReply 0x03 [0] true else s.spdmError 1)

/-- TOP_ID (R458, R469). -/
def State.topId (s : State) : Word :=
  packW [(0, 16, 0x1F3A), (16, 16, 0x0B16), (32, 4, s.ident.step), (36, 2, s.ident.grade), (38, 2, s.ident.board)]

/-- One measurement of Table 20-3. -/
def State.measured (s : State) (i : Nat) : List Nat :=
  if i = 4 then
    s.plat.svnFuse :: s.plat.keys.flatMap (fun k => [b2n k.provisioned, b2n k.revoked, k.hash])
  else if i = 5 then [s.living.ident.toNat, s.living.slot]
  else if i = 6 then [s.topId.toNat, s.ras.record.length]
  else [Config.measurement i s.plat.image]

/-- Measurement 0 asks how many there are, 255 for all of them. -/
def State.spdmMeasurements (i : Nat) (s : State) : State :=
  s.spdmAt 3 (fun s =>
    if i = 0 then s.spdmReply 0x60 [6] true
    else if i = 255 then s.spdmReply 0x60 ((List.range 6).flatMap (fun k => (k + 1) :: s.measured (k + 1))) true
    else if i ≤ 6 then s.spdmReply 0x60 (i :: s.measured i) true
    else s.spdmError 1)

/-- A session: 1 in its handshake, 2 established. -/
def State.sessionIn (s : State) (id st : Nat) : Bool := NMap.find? s.plat.sessions id == some st

def State.keyExchange (id : Nat) (s : State) : State :=
  s.spdmAt 3 (fun s =>
    if (NMap.find? s.plat.sessions id).isSome then s.spdmError 4
    else (s.modPlat (fun p => { p with sessions := NMap.set p.sessions id 1 })).spdmReply 0x64 [id] true)

def State.finish (id : Nat) (ok : Bool) (s : State) : State :=
  s.spdmAt 3 (fun s =>
    if !s.sessionIn id 1 then s.spdmError 4
    else if ok then (s.modPlat (fun p => { p with sessions := NMap.set p.sessions id 2 })).spdmReply 0x65 [id] false
    else (s.modPlat (fun p => { p with sessions := NMap.del p.sessions id })).spdmError 6)

def State.keyUpdate (id : Nat) (s : State) : State :=
  s.spdmAt 3 (fun s => if s.sessionIn id 2 then s.spdmReply 0x69 [id] false else s.spdmError 4)

def State.endSession (id : Nat) (s : State) : State :=
  s.spdmAt 3 (fun s =>
    if s.sessionIn id 2 then (s.modPlat (fun p => { p with sessions := NMap.del p.sessions id })).spdmReply 0x6C [id] false
    else s.spdmError 4)

/-- IDE_KM over an established session, while TOP_PCIE_CFG.IDE is in force: the one Link IDE stream, no Selective one. -/
def State.ideKm (id : Nat) (op : IdeOp) (s : State) : State :=
  s.spdmAt 3 (fun s =>
    if !s.sessionIn id 2 || !bitOf s.plat.pcieNow 4 then s.spdmError 4
    else match op with
      | .query => s.spdmReply 1 [s.plat.ide] false
      | .keyProg sub => (s.modPlat (fun p => { p with ide := max p.ide 1 })).spdmReply 3 [sub] false
      | .setGo sub =>
        if s.plat.ide = 0 then s.spdmError 4 else (s.modPlat (fun p => { p with ide := 2 })).spdmReply 6 [sub] false
      | .setStop sub => (s.modPlat (fun p => { p with ide := 0 })).spdmReply 6 [sub] false)

/-! ### SMBus (Table 20-14) -/

def State.smbus (s : State) (f : State → State) : State := if s.plat.power == .off then s else f s

/-- RECORDS, then both words of each of the eight entries. -/
def State.retirement (s : State) : State :=
  s.smbus (fun s => s.send (.smbus (le 1 s.ras.record.length
    ++ (List.range 8).flatMap (fun k => match s.ras.record[k]? with
      | some e => le 8 e.a.toNat ++ le 8 e.b.toNat
      | none => List.replicate 16 0))))

/-- TOP_ID, TOP_SERIAL, TOP_CHIP.ID, running SVN and image. -/
def State.identity (s : State) : State :=
  s.smbus (fun s => s.send (.smbus (le 8 s.topId.toNat ++ le 8 s.ident.serial.toNat ++ le 2 s.cell.chip
    ++ le 1 s.plat.svnFw ++ le 1 s.plat.image)))

/-- A PLDM sensor. Quadrant temperatures and the input voltage have no register: they read a free value. -/
def State.pldm (x : PldmSensor) (s : State) : State :=
  s.smbus (fun s =>
    let say := fun (n : Nat) => s.send (.pldm n)
    match x with
    | .hottest => say s.plat.sensors.tjC
    | .hbm0 => say s.plat.sensors.hbm0C
    | .hbm1 => say s.plat.sensors.hbm1C
    | .inlet => say s.plat.sensors.inletC
    | .power => say s.plat.sensors.powerW
    | .k => say s.plat.k
    | .rasState => say s.ras.drain
    | .bootStage => say s.plat.stage
    | .lastTrip => say s.plat.lastTrip
    | .quadrant _ | .voltage =>
      let (v, s) := s.draw
      s.send (.pldm v.toNat))

/-! ### Boundary scan (R452) -/

def State.idcode (s : State) : Word := packW [(0, 1, 1), (1, 11, 0x4F5), (12, 16, 0x0B16), (28, 4, s.ident.step)]

/-- A JTAG instruction and the data register it selects; the pins that SAMPLE and EXTEST capture are free. -/
def State.jtag (j : Jtag) (s : State) : State :=
  if s.plat.power == .off then s
  else match j with
    | .bypass => (s.modPlat (fun p => { p with jtagIr := 0 })).send (.tdo 0)
    | .idcode => (s.modPlat (fun p => { p with jtagIr := 1 })).send (.tdo s.idcode)
    | .samplePreload v =>
      let (pins, s) := s.draw
      (s.modPlat (fun p => { p with jtagIr := 2, jtagBr := v })).send (.tdo pins)
    | .extest v =>
      let (pins, s) := s.draw
      (s.modPlat (fun p => { p with jtagIr := 3, jtagBr := v })).send (.tdo pins)

/-! ### Commands -/

def execGetVersion (s : State) : Answer := .next s.spdmVersion
def execGetCapabilities (s : State) : Answer := .next s.spdmCapabilities
def execNegotiateAlgorithms (s : State) : Answer := .next s.spdmAlgorithms
def execGetDigests (s : State) : Answer := .next s.spdmDigests
def execGetCertificate (slot : Nat) (s : State) : Answer := .next (s.spdmCertificate slot)
def execChallenge (slot : Nat) (s : State) : Answer := .next (s.spdmChallenge slot)
def execGetMeasurements (index : Nat) (s : State) : Answer := .next (s.spdmMeasurements index)
def execKeyExchange (session : Nat) (s : State) : Answer := .next (s.keyExchange session)
def execFinish (session : Nat) (ok : Bool) (s : State) : Answer := .next (s.finish session ok)
def execKeyUpdate (session : Nat) (s : State) : Answer := .next (s.keyUpdate session)
def execEndSession (session : Nat) (s : State) : Answer := .next (s.endSession session)
def execIdeKmRequest (session : Nat) (op : IdeOp) (s : State) : Answer := .next (s.ideKm session op)
def execGetRetirement (s : State) : Answer := .next s.retirement
def execGetIdentity (s : State) : Answer := .next s.identity
def execPldmSensorRead (x : PldmSensor) (s : State) : Answer := .next (s.pldm x)
def execBoundaryScan (j : Jtag) (s : State) : Answer := .next (s.jtag j)

end Sys2Proof.Machine
end

