-- ==== Sys2Proof/Machine/Regs.lean ====
section
/-! DEFINITION. Register accesses (R7–R10, R464–R470): what a read of each BAR0 and BAR2 register returns and what it
clears, and what a write does. A register whose write has a command of its own does the same here. -/

namespace Sys2Proof.Machine

open Sys2Proof

/-! ### TOP and HK (Tables 20-15 and 22-2) -/

def State.readTop (s : State) (off : Nat) : Word :=
  let p := s.plat
  let x := p.sensors
  if off = 0 then s.topId
  else if off = 0x8 then
    packW [(0, 1, b2n p.ready), (1, 1, b2n p.recovery), (2, 1, b2n (p.power == .d3hot)), (3, 1, b2n (decide (p.k < 32))),
      (4, 1, b2n p.degraded), (5, 2, p.lastTrip), (8, 4, s.ras.record.length), (12, 3, p.speed), (16, 5, p.width)]
  else if off = 0x10 then
    packW [(0, 4, p.stage), (4, 4, p.fail), (8, 1, p.image), (10, 6, p.svnFw), (16, 6, p.svnFuse), (32, 16, p.bootMs)]
  else if off = 0x18 then
    packW [(0, 8, x.tjC), (8, 8, x.hbm0C), (16, 8, x.hbm1C), (24, 8, x.inletC), (32, 6, p.k), (48, 16, p.throttles)]
  else if off = 0x20 then
    packW [(0, 12, x.powerW), (16, 12, p.peakW), (32, 12, fld (s.reg offPwr (packW [(32, 12, s.ratingW)])) 32 12)]
  else if off = 0x28 then s.ident.serial
  else if 0x200 ≤ off ∧ off ≤ 0x220 then s.readCell off
  else if off = 0x300 ∨ off = 0x400 ∨ off = 0x408 then s.rwt off
  else if off = 0x410 then p.nonce
  else if off = 0x418 then packW [(0, 1, b2n p.fusePending.isSome), (4, 2, p.fuseLast)]
  else if off = 0x500 then s.reg 0x500 0x64142
  else if off = 0x100 ∨ off = 0x108 ∨ (0x1000 ≤ off ∧ off < 0x2000) then s.readClk off
  else 0

def State.readHk (s : State) (off : Nat) : Word :=
  if off = 0 then s.reg offHk 0
  else if off = 8 then s.reg (offHk + 8) 0
  else if off = 0x10 then packW [(0, 1, b2n s.plat.fwBusy), (4, 4, s.plat.fwRes), (8, 1, s.plat.next)]
  else 0

/-! ### CFG (Tables 3-14 and 4-5) -/

def TxnSt.num : TxnSt → Nat
  | .idle => 0 | .opened => 1 | .loading => 2 | .validating => 3 | .hatching => 4

def HatchSt.num : HatchSt → Nat
  | .idle => 0 | .prepare => 1 | .armed => 2 | .clearing => 3 | .inDoubt => 4

def Txn.status (t : Txn) : Word :=
  packW [(0, 3, t.st.num), (8, 8, t.token), (16, 8, t.result), (24, 8, t.detail), (32, 16, t.writes)]

def State.readCfg (s : State) (off : Nat) : Word :=
  let h := s.txn.hatch
  let l := s.txn.loader
  if off = 0x8 then s.txn.chip.status
  else if off = 0x10 then s.reg 0x10010 100000
  else if off = 0x18 then packW [(0, 32, s.txn.discard), (32, 25, s.txn.discardOff)]
  else if off = 0x20 then s.reg 0x10020 0
  else if off = 0x28 then s.peek .pf0
  else if off = 0x30 then packW [(0, 1, b2n (rwtMask (fld (s.reg 0x10020 0) 0 25)).isSome)]
  else if off = 0x38 then wordOf 64 (fun m => s.roomTxns.contains m)
  else if off = 0x40 then s.txn.chip.fail
  else if off = 0x100 then s.reg 0x10100 2000
  else if off = 0x108 then
    packW [(0, 3, h.st.num), (8, 8, h.result), (16, 16, h.preempted), (32, 1, b2n h.late), (33, 7, h.queue.length)]
  else if off = 0x110 then h.blockIsl
  else if off = 0x118 then h.blockEng
  else if off = 0x120 then BitVec.ofNat 64 h.t
  else if off = 0x128 then s.hatchCell
  else if off = 0x130 then h.rooms
  else if off = 0x200 then s.reg 0x10200 0
  else if off = 0x208 then s.reg 0x10208 0
  else if off = 0x210 then
    packW [(0, 1, b2n l.busy), (1, 1, b2n (layoutNonAtomic s.attic s.living)), (2, 1, b2n l.delta), (8, 8, l.result), (16, 4, l.stage),
      (20, 16, l.section_), (36, 28, l.offset)]
  else if off = 0x218 then
    packW ((List.range 4).flatMap (fun k => match s.plat.keys[k]? with
        | some x => [(k, 1, b2n x.provisioned), (4 + k, 1, b2n x.revoked)]
        | none => []) ++ [(8, 3, s.living.slot), (11, 1, b2n s.living.dirty)])
  else if off = 0x220 then s.living.ident.setWidth 64
  else if off = 0x228 then (s.living.ident >>> 64).setWidth 64
  else if off = 0x230 then s.attic.ident.setWidth 64
  else if off = 0x238 then (s.attic.ident >>> 64).setWidth 64
  else if off = 0x300 then packW [(0, 1, b2n s.txn.quiesce), (1, 1, b2n s.txn.qforce)]
  else if off = 0x308 then
    packW [(0, 1, b2n s.quiesced), (1, 1, b2n s.txn.resetPending), (2, 16, sat 16 s.tasks.live.length)]
  else 0

/-! ### Reads of BAR0 (Tables 22-2 to 22-13) -/

/-- One island's registers. -/
def State.readIsl (n off : Nat) (s : State) : Word × State :=
  if off < 0x200 then s.readSteward n off
  else if off < 0x300 then s.readGrid n off
  else if off = 0x300 then (packW [(0, 16, fld (s.island n).nflags 0 16), (32, 16, (s.island n).trapped)], s)
  else if off < 0x500 then s.readVector n off
  else (s.readShelf n off, s)

/-- A read of BAR0: the value, and the state it leaves. -/
def State.bar0Read (off : Nat) (s : State) : Word × State :=
  if off < 0x10000 then
    (s.readTop off, if off = 0x20 then s.modPlat (fun p => { p with peakW := 0 }) else s)
  else if 0x900000 ≤ off then (s.readHk (off - 0x900000), s)
  else if !s.plat.ready then (0, s)
  else if off < 0x20000 then
    (s.readCfg (off - 0x10000), if off = 0x10018 then s.modTxn (fun u => { u with discard := 0 }) else s)
  else if off < 0x40000 then (s.readTen (off - 0x20000), s)
  else if off < 0x80000 then (s.readQmgr (off - 0x40000), s.clearQmgr (off - 0x40000))
  else if off < 0xA0000 then
    (if off = 0x80120 then s.invData else s.readLedg (off - 0x80000), if off = 0x80030 then s.clearStagePeak else s)
  else if off < 0xC0000 then (s.readRas (off - 0xA0000), s)
  else if off < 0x100000 then (s.readRepro (off - 0xC0000), s)
  else if off < 0x180000 then (s.readLink ((off - 0x100000) / 0x10000) (off % 0x10000), s)
  else if off < 0x1A0000 then (if (rwtMask off).isSome then s.rwt off else 0, s)
  else if off < 0x200000 then (if (rwtMask off).isSome then s.readSpan off else 0, s)
  else if off < 0x400000 then (s.readCellar (off - 0x200000), s)
  else if off < 0x800000 then s.readIsl ((off - 0x400000) / 0x10000) (off % 0x10000)
  else if off < 0x810000 then (s.readRce ((off - 0x800000) / 0x1000) (off % 0x1000), s)
  else if off < 0x814000 then (s.readEle ((off - 0x810000) / 0x1000) (off % 0x1000), s)
  else (0, s)

/-! ### Reads of BAR2 (Table 22-14) -/

/-- TXW_STATUS for the room that TXW_CTRL names. -/
def State.txwStatus (s : State) (fn : Nat) : Word :=
  let m := fld (s.b2 fn 0x5000) 24 6
  let own := (s.roomCfg? m).isSome && s.roomTenant m == fn
  let t := s.tenant fn
  (if own then packW [(0, 3, (s.txnAt m).st.num), (8, 8, (s.txnAt m).token), (16, 8, (s.txnAt m).result), (24, 8, (s.txnAt m).detail)]
    else packW [(16, 8, if t.txDenied = some m then 0x87 else 0)]) ||| packW [(32, 16, t.txDiscards)]

def State.bar2Read (fn off : Nat) (s : State) : Word × State :=
  if !s.plat.ready then (0, s)
  else if 0x6000 ≤ off ∧ off < 0x6030 then (s.readTrw fn (off - 0x6000), s)
  else if !s.tenActive fn then (0, s)
  else if off = 0x5000 then (s.b2 fn 0x5000, s)
  else if off = 0x5008 then (s.txwStatus fn, s)
  else if off = 0x5010 then (s.b2 fn 0x5010, s)
  else if off = 0x5018 then (s.peek (.tenant (Fin.ofNat 64 fn) 0), s)
  else (s.readQcfg fn off, if off = 0x3038 then s.clearStalls fn else s)

/-- A register read of a size that R10 admits. -/
def properAccess (a : Access) : Bool := a.size == 8 && a.off % 8 == 0

/-- What a read returns, and the state it leaves: PF0 alone reaches BAR0. -/
def State.access (a : Access) (s : State) : Word × State :=
  if !s.mainOn || !properAccess a then (0, s)
  else if a.bar2 then s.bar2Read a.fn a.off
  else if a.fn.val = 0 then s.bar0Read a.off
  else (0, s)

def State.rcRead (a : Access) (s : State) : State :=
  let (v, s) := s.access a
  s.modOut (fun o => { o with rd := v })

/-! ### Writes of BAR0 -/

/-- A plain RW register: the bits of its fields land. -/
def State.putReg (off : Nat) (mask v : Word) (s : State) : State := s.setReg off (v &&& mask)

/-- TOP_STATUS.LAST_TRIP, W1C. -/
def State.clearTrip (v : Word) (s : State) : State :=
  s.modPlat (fun p => { p with lastTrip := fld (BitVec.ofNat 64 p.lastTrip &&& ~~~ BitVec.ofNat 64 (fld v 5 2)) 0 2 })

def State.writeTop (off : Nat) (v : Word) (s : State) : State :=
  if off = 0x8 then s.clearTrip v
  else if off = 0x20 then s.putReg offPwr (maskW [(32, 12)]) v
  else if off = 0x200 then s.topChip v
  else if off = 0x500 then s.putReg 0x500 (maskW [(0, 3), (4, 3), (8, 3), (12, 8)]) v
  else s

def State.writeHk (off : Nat) (v : Word) (s : State) : State :=
  if off = 0 then s.putReg offHk (maskW [(3, 61)]) v
  else if off = 8 then s.fwUpdate v
  else s

/-- The OPs of CFG_TXN_CTRL and TXW_CTRL (R72–R79). -/
def State.txnOp (src : Src) (v : Word) (room : Bool) (s : State) : State :=
  let tok := fld v 8 8
  if fld v 0 3 = 1 then s.openTxn src (bitOf v 17 && !room)
  else if fld v 0 3 = 2 then s.commit src tok (bitOf v 16) (bitOf v 18 && !room) (bitOf v 19 && !room)
  else if fld v 0 3 = 3 then s.rollback src tok
  else if fld v 0 3 = 4 then s.keepalive src tok
  else s

/-- CFG_MAINT_CTRL: QUIESCE = 0 is discarded while RESET_PENDING is 1. -/
def State.maintCtrl (v : Word) (s : State) : State :=
  if bitOf v 0 then s.quiesce (bitOf v 1)
  else if s.txn.resetPending then s
  else s.quiesceRelease.modTxn (fun u => { u with qforce := bitOf v 1 })

def State.writeCfg (off : Nat) (v : Word) (s : State) : State :=
  if off = 0 then s.txnOp .pf0 v false
  else if off = 0x10 then s.putReg 0x10010 (maskW [(0, 24)]) v
  else if off = 0x20 then s.putReg 0x10020 (maskW [(0, 25)]) v
  else if off = 0x100 then s.putReg 0x10100 (maskW [(0, 20)]) v
  else if off = 0x128 then s.putReg 0x10128 (maskW [(0, 42)]) v
  else if off = 0x200 then s.putReg 0x10200 (maskW [(3, 61)]) v
  else if off = 0x208 then
    if bitOf v 16 then s.layoutGo (fld v 0 8) (bitOf v 8) else s.putReg 0x10208 (maskW [(0, 9)]) v
  else if off = 0x300 then s.maintCtrl v
  else s

/-- TEN_CHIP_RESET from a plain write: how a pending fuse burn reads back is not known, and drawn. -/
def State.chipReset (v : Word) (s : State) : State :=
  let (x, s) := if s.plat.fusePending.isSome then s.draw else (1, s)
  s.warmReset (.register v) (bitOf x 0)

def State.writeTen (off : Nat) (v : Word) (s : State) : State :=
  if off = 0x20 then s.putReg 0x20020 (maskW [(0, 64)]) v
  else if off = 0x28 then
    if bitOf v 24 then s.taskKill 0 (fld v 0 17) (bitOf v 20) else s.putReg 0x20028 (maskW [(0, 17), (20, 1)]) v
  else if off = 0x30 then
    if bitOf v 16 then s.islandReset (fld v 0 6) else s.putReg 0x20030 (maskW [(0, 6)]) v
  else if off = 0x38 then s.chipReset v
  else if 0x1000 ≤ off ∧ off < 0x1800 then
    let t := (off - 0x1000) / 0x20
    if off % 0x20 = 8 then s.clearFault t v
    else if off % 0x20 = 0x18 ∧ bitOf v 16 then s.tenantResetBy 0 t (bitOf v 8)
    else s
  else if 0x2000 ≤ off ∧ off < 0x2400 then
    if off % 0x10 = 8 ∧ bitOf v 16 then s.roomReset ((off - 0x2000) / 0x10) (bitOf v 8) else s
  else s

def State.writeLedg (off : Nat) (v : Word) (s : State) : State :=
  if off = 0 then s.ledgCfg v
  else if off = 8 then if s.ledg.mirror then s else s.putReg 0x80008 (maskW [(12, 52)]) v
  else if off = 0x10 then s.hostHead v
  else if off = 0x38 then s.putReg 0x80038 (maskW [(0, 64)]) v
  else if off = 0x40 then s.inject v
  else if off = 0x100 then s.auditSchedule v
  else if off = 0x108 then s.putReg 0x80108 (maskW [(0, 64)]) v
  else if off = 0x118 then s.putReg 0x80118 (maskW [(0, 21)]) v
  else if 0x1000 ≤ off ∧ off < 0x1400 then
    let t := (off - 0x1000) / 16
    if off % 16 = 0 then s.putReg (offViewAddr t) (maskW [(12, 52)]) v
    else if off % 16 = 8 then s.viewCtrl t v
    else s
  else s

/-- REPRO_TWIN_CTRL and REPRO_ROOM_n_CTRL. -/
def State.writeRepro (off : Nat) (v : Word) (s : State) : State :=
  if off = 0x108 then
    let s := if bitOf v 1 then s.unpair else s
    if bitOf v 0 then s.pair none else s
  else if 0x1000 ≤ off ∧ off < 0x1800 ∧ off % 0x20 = 0x10 then
    if bitOf v 0 then s.returnTimed ((off - 0x1000) / 0x20) else s
  else s

/-- LINK_n_CTRL and LINK_n_CREDIT_SEL. -/
def State.writeLink (p off : Nat) (v : Word) (s : State) : State :=
  if off = 0 then
    let s := if bitOf v 0 then s.linkPortReset p else s
    let s := if bitOf v 1 then s.linkQuarantine p else s
    let s := if bitOf v 2 then s.linkRelease p else s
    if bitOf v 3 then s.rekey p else s
  else if off = 0x38 then s.putReg (offCreditSel p) (maskW [(0, 4)]) v
  else s

def State.bar0Write (off : Nat) (v : Word) (s : State) : State :=
  if off < 0x10000 then (if (rwtMask off).isNone then s.writeTop off v else s.rwtWrite off v)
  else if 0x900000 ≤ off then s.writeHk (off - 0x900000) v
  else if !s.plat.ready then s
  else if (rwtMask off).isSome then s.rwtWrite off v
  else if off < 0x20000 then s.writeCfg (off - 0x10000) v
  else if off < 0x40000 then s.writeTen (off - 0x20000) v
  else if off < 0x80000 then if off = 0x40028 then s.putReg 0x40028 (maskW [(0, 17)]) v else s
  else if off < 0xA0000 then s.writeLedg (off - 0x80000) v
  else if off < 0xC0000 then
    if off = offAudit then s.auditGo v else if off = offDrain then s.putReg offDrain (maskW [(0, 16)]) v else s
  else if off < 0x100000 then s.writeRepro (off - 0xC0000) v
  else if off < 0x180000 then s.writeLink ((off - 0x100000) / 0x10000) (off % 0x10000) v
  else if 0x400000 ≤ off ∧ off < 0x800000 ∧ off % 0x10000 = 0x300 then
    s.modIsl ((off - 0x400000) / 0x10000) (fun i => { i with nflags := i.nflags &&& ~~~ v })
  else s

/-! ### Writes of BAR2 -/

/-- TXW_CTRL: ROOM lands, and the OP runs for it. -/
def State.writeTxw (fn : Nat) (v : Word) (s : State) : State :=
  let s := s.setB2 fn 0x5000 (v &&& maskW [(24, 6)])
  s.txnOp (.tenant (Fin.ofNat 64 fn) (Fin.ofNat 64 (fld v 24 6))) v true

def State.writeTrw (fn off : Nat) (v : Word) (s : State) : State :=
  if off = 0x8 then s.clearFault fn v
  else if off = 0x10 then s.setB2 fn 0x6010 v
  else if off = 0x18 then
    if bitOf v 24 then s.tenantKill fn (fld v 0 17) (bitOf v 20) else s.setB2 fn 0x6018 (v &&& maskW [(0, 17), (20, 1)])
  else if off = 0x20 then
    if bitOf v 16 then s.ownRoomReset fn (fld v 0 6) (bitOf v 8) else s.setB2 fn 0x6020 (v &&& maskW [(0, 6)])
  else if off = 0x28 ∧ bitOf v 16 then s.tenantReset fn (bitOf v 8)
  else s

def State.bar2Write (fn off : Nat) (v : Word) (s : State) : State :=
  if !s.plat.ready || !s.tenActive fn then s
  else if off = 0 then s.newTail 1 fn (fld v 0 17) (fld v 32 32)
  else if 0x2000 ≤ off ∧ off < 0x2400 then s.crHead fn ((off - 0x2000) / 8) v
  else if off = 0x3000 then s.setB2 fn off (v &&& maskW [(0, 17)])
  else if off = 0x3008 ∨ off = 0x3040 ∨ off = 0x3050 then s.setB2 fn off (v &&& maskW [(12, 52)])
  else if off = 0x3010 then s.queueCtrl fn (fld v 16 3) (fld v 0 2) (fld v 4 5)
  else if off = 0x3020 then s.setB2 fn off (v &&& maskW [(0, 7)])
  else if off = 0x3028 then s.crcfgBase fn v
  else if off = 0x3030 then s.crcfgCtrl fn v
  else if off = 0x3048 then s.ppCtrl fn v
  else if off = 0x3058 then s.scanCtrl fn v
  else if off = 0x5000 then s.writeTxw fn v
  else if off = 0x5010 then s.setB2 fn off (v &&& maskW [(0, 26), (32, 8)])
  else if off = 0x5018 then s.txwWrite fn v
  else if 0x6000 ≤ off ∧ off < 0x6030 then s.writeTrw fn (off - 0x6000) v
  else s

/-- A write: the push window takes any size (R118), every other register only what R10 admits. -/
def State.registerWrite (a : Access) (v : Word) (s : State) : State :=
  if !s.mainOn then s
  else if a.bar2 && decide (0x1000 ≤ a.off) && decide (a.off < 0x2000) then
    if s.plat.ready && decide (a.size ≤ 8) then s.pushWrite a.fn (a.off - 0x1000) (le a.size v.toNat) else s
  else if !properAccess a then s
  else if a.bar2 then s.bar2Write a.fn a.off v
  else if a.fn.val = 0 then s.bar0Write a.off v
  else s

/-! ### Commands -/

def execRegisterWrite (a : Access) (v : Word) (s : State) : Answer := .next (s.registerWrite a v)
def execRcRead (a : Access) (s : State) : Answer := .next (s.rcRead a)

end Sys2Proof.Machine
end

