-- ==== Sys2Proof/Machine/Dispatch.lean ====
section
/-! DEFINITION. One arm per command: which meaning runs. -/

namespace Sys2Proof.Machine

open Sys2Proof

def exec (i : Instr) (s : State) : Host.Outcome State Fault Refusal :=
  match i with
  -- Register accesses
  | .registerWrite a v => Sys2Proof.Machine.execRegisterWrite a v s
  | .rcRead a => Sys2Proof.Machine.execRcRead a s
  | .rwtWrite off v => Sys2Proof.Machine.execRwtWrite off v s
  | .atticPeek src => Sys2Proof.Machine.execAtticPeek src s
  -- Transactions, layout loads and the Hatch
  | .openTxn src fence => Sys2Proof.Machine.execOpenTxn src fence s
  | .commit src token force maint cell => Sys2Proof.Machine.execCommit src token force maint cell s
  | .rollback src token => Sys2Proof.Machine.execRollback src token s
  | .keepalive src token => Sys2Proof.Machine.execKeepalive src token s
  | .txwWdataWrite fn v => Sys2Proof.Machine.execTxwWdataWrite fn v s
  | .idleTimeout scope => Sys2Proof.Machine.execIdleTimeout scope s
  | .validationDone scope auth => Sys2Proof.Machine.execValidationDone scope auth s
  | .layoutGo token cellar => Sys2Proof.Machine.execLayoutGo token cellar s
  | .layoutLoadDone img fault => Sys2Proof.Machine.execLayoutLoadDone img fault s
  | .hatchPrepare => Sys2Proof.Machine.execHatchPrepare s
  | .hatchReady => Sys2Proof.Machine.execHatchReady s
  | .hatchDeadline => Sys2Proof.Machine.execHatchDeadline s
  | .hatchForceStopped => Sys2Proof.Machine.execHatchForceStopped s
  | .hatchSwap => Sys2Proof.Machine.execHatchSwap s
  | .hatchClearingDone failed => Sys2Proof.Machine.execHatchClearingDone failed s
  | .hatchVote member ready tag => Sys2Proof.Machine.execHatchVote member ready tag s
  | .hatchSwapMsg tag t => Sys2Proof.Machine.execHatchSwapMsg tag t s
  | .hatchAbortMsg tag failed => Sys2Proof.Machine.execHatchAbortMsg tag failed s
  | .inDoubt => Sys2Proof.Machine.execInDoubt s
  | .inDoubtQuery answer => Sys2Proof.Machine.execInDoubtQuery answer s
  | .quiesce qforce => Sys2Proof.Machine.execQuiesce qforce s
  | .quiesceRelease => Sys2Proof.Machine.execQuiesceRelease s
  -- Tenants, rooms and resets
  | .taskKill fn queue matchTag => Sys2Proof.Machine.execTaskKill fn queue matchTag s
  | .islandReset isl => Sys2Proof.Machine.execIslandReset isl s
  | .roomReset by_ room flush => Sys2Proof.Machine.execRoomReset by_ room flush s
  | .tenantReset by_ tenant scrub => Sys2Proof.Machine.execTenantReset by_ tenant scrub s
  | .flr fn => Sys2Proof.Machine.execFlr fn s
  | .vfEnableChange enable num => Sys2Proof.Machine.execVfEnableChange enable num s
  | .warmChipReset cause burnOk => Sys2Proof.Machine.execWarmChipReset cause burnOk s
  | .resetDone scope => Sys2Proof.Machine.execResetDone scope s
  | .scrubDone tenant => Sys2Proof.Machine.execScrubDone tenant s
  | .dispatchStall room => Sys2Proof.Machine.execDispatchStall room s
  -- Session queues and polling
  | .queueActivate fn mode log2 => Sys2Proof.Machine.execQueueActivate fn mode log2 s
  | .queueDeactivate fn => Sys2Proof.Machine.execQueueDeactivate fn s
  | .doorbell fn v => Sys2Proof.Machine.execDoorbell fn v s
  | .ringEntryFetch queue data err => Sys2Proof.Machine.execRingEntryFetch queue data err s
  | .pushWrite fn off data => Sys2Proof.Machine.execPushWrite fn off data s
  | .pushTimeout fn slot => Sys2Proof.Machine.execPushTimeout fn slot s
  | .scanCtrlWrite fn v => Sys2Proof.Machine.execScanCtrlWrite fn v s
  | .ringScan fn data err => Sys2Proof.Machine.execRingScan fn data err s
  | .contextFetchDone queue => Sys2Proof.Machine.execContextFetchDone queue s
  | .taskStart room => Sys2Proof.Machine.execTaskStart room s
  | .run isl => Sys2Proof.Machine.execRun isl s
  | .nop queue => Sys2Proof.Machine.execNop queue s
  | .stateZero queue => Sys2Proof.Machine.execStateZero queue s
  | .crcfgCtrlWrite fn v => Sys2Proof.Machine.execCrcfgCtrlWrite fn v s
  | .crHeadWrite fn ring v => Sys2Proof.Machine.execCrHeadWrite fn ring v s
  | .ppEnable fn v => Sys2Proof.Machine.execPpEnable fn v s
  | .pollUpdate fn => Sys2Proof.Machine.execPollUpdate fn s
  | .backlogUpdate fn => Sys2Proof.Machine.execBacklogUpdate fn s
  -- Steward instructions: the RUNNING slot of an island executes one
  | .add isl rd rs1 rs2 => Sys2Proof.Machine.execAdd isl rd rs1 rs2 s
  | .sub isl rd rs1 rs2 => Sys2Proof.Machine.execSub isl rd rs1 rs2 s
  | .andR isl rd rs1 rs2 => Sys2Proof.Machine.execAndR isl rd rs1 rs2 s
  | .orR isl rd rs1 rs2 => Sys2Proof.Machine.execOrR isl rd rs1 rs2 s
  | .xorR isl rd rs1 rs2 => Sys2Proof.Machine.execXorR isl rd rs1 rs2 s
  | .sll isl rd rs1 rs2 => Sys2Proof.Machine.execSll isl rd rs1 rs2 s
  | .srl isl rd rs1 rs2 => Sys2Proof.Machine.execSrl isl rd rs1 rs2 s
  | .sra isl rd rs1 rs2 => Sys2Proof.Machine.execSra isl rd rs1 rs2 s
  | .slt isl rd rs1 rs2 => Sys2Proof.Machine.execSlt isl rd rs1 rs2 s
  | .sltu isl rd rs1 rs2 => Sys2Proof.Machine.execSltu isl rd rs1 rs2 s
  | .mul isl rd rs1 rs2 => Sys2Proof.Machine.execMul isl rd rs1 rs2 s
  | .mulh isl rd rs1 rs2 => Sys2Proof.Machine.execMulh isl rd rs1 rs2 s
  | .minR isl rd rs1 rs2 => Sys2Proof.Machine.execMinR isl rd rs1 rs2 s
  | .maxR isl rd rs1 rs2 => Sys2Proof.Machine.execMaxR isl rd rs1 rs2 s
  | .addi isl rd rs1 imm => Sys2Proof.Machine.execAddi isl rd rs1 imm s
  | .andi isl rd rs1 imm => Sys2Proof.Machine.execAndi isl rd rs1 imm s
  | .ori isl rd rs1 imm => Sys2Proof.Machine.execOri isl rd rs1 imm s
  | .xori isl rd rs1 imm => Sys2Proof.Machine.execXori isl rd rs1 imm s
  | .slli isl rd rs1 imm => Sys2Proof.Machine.execSlli isl rd rs1 imm s
  | .srli isl rd rs1 imm => Sys2Proof.Machine.execSrli isl rd rs1 imm s
  | .srai isl rd rs1 imm => Sys2Proof.Machine.execSrai isl rd rs1 imm s
  | .slti isl rd rs1 imm => Sys2Proof.Machine.execSlti isl rd rs1 imm s
  | .lui isl rd imm => Sys2Proof.Machine.execLui isl rd imm s
  | .lb isl rd rs1 imm => Sys2Proof.Machine.execLb isl rd rs1 imm s
  | .lh isl rd rs1 imm => Sys2Proof.Machine.execLh isl rd rs1 imm s
  | .lw isl rd rs1 imm => Sys2Proof.Machine.execLw isl rd rs1 imm s
  | .ld isl rd rs1 imm => Sys2Proof.Machine.execLd isl rd rs1 imm s
  | .lbu isl rd rs1 imm => Sys2Proof.Machine.execLbu isl rd rs1 imm s
  | .lhu isl rd rs1 imm => Sys2Proof.Machine.execLhu isl rd rs1 imm s
  | .lwu isl rd rs1 imm => Sys2Proof.Machine.execLwu isl rd rs1 imm s
  | .sb isl rs2 rs1 imm => Sys2Proof.Machine.execSb isl rs2 rs1 imm s
  | .sh isl rs2 rs1 imm => Sys2Proof.Machine.execSh isl rs2 rs1 imm s
  | .sw isl rs2 rs1 imm => Sys2Proof.Machine.execSw isl rs2 rs1 imm s
  | .sd isl rs2 rs1 imm => Sys2Proof.Machine.execSd isl rs2 rs1 imm s
  | .branch isl cond rs1 rs2 imm => Sys2Proof.Machine.execBranch isl cond rs1 rs2 imm s
  | .jal isl rd imm => Sys2Proof.Machine.execJal isl rd imm s
  | .jalr isl rd rs1 imm => Sys2Proof.Machine.execJalr isl rd rs1 imm s
  | .csrr isl rd csr => Sys2Proof.Machine.execCsrr isl rd csr s
  | .csrw isl csr rs1 => Sys2Proof.Machine.execCsrw isl csr rs1 s
  | .wait isl rs1 => Sys2Proof.Machine.execWait isl rs1 s
  | .trap isl rs1 => Sys2Proof.Machine.execTrap isl rs1 s
  | .exit isl rs1 => Sys2Proof.Machine.execExit isl rs1 s
  | .eret isl => Sys2Proof.Machine.execEret isl s
  | .fence isl => Sys2Proof.Machine.execFence isl s
  | .dmaRd isl rd rs1 => Sys2Proof.Machine.execDmaRd isl rd rs1 s
  | .dmaWr isl rd rs1 => Sys2Proof.Machine.execDmaWr isl rd rs1 s
  | .dmaWaittag isl rs1 => Sys2Proof.Machine.execDmaWaittag isl rs1 s
  -- Task slots and DMA
  | .waitSatisfied isl slot => Sys2Proof.Machine.execWaitSatisfied isl slot s
  | .dmaComplete isl slot tag r => Sys2Proof.Machine.execDmaComplete isl slot tag r s
  | .stopRequest isl slot => Sys2Proof.Machine.execStopRequest isl slot s
  | .stopComplete isl slot => Sys2Proof.Machine.execStopComplete isl slot s
  | .taskEnd isl slot => Sys2Proof.Machine.execTaskEnd isl slot s
  -- Crates and the Grid
  | .crateLoad isl cr rs1 rs2 p6 => Sys2Proof.Machine.execCrateLoad isl cr rs1 rs2 p6 s
  | .crateStore isl cr rs1 rs2 p6 => Sys2Proof.Machine.execCrateStore isl cr rs1 rs2 p6 s
  | .crateZero isl cr => Sys2Proof.Machine.execCrateZero isl cr s
  | .crateRelease isl cr => Sys2Proof.Machine.execCrateRelease isl cr s
  | .crateMap isl cr rs1 => Sys2Proof.Machine.execCrateMap isl cr rs1 s
  | .crateUnmap isl cr => Sys2Proof.Machine.execCrateUnmap isl cr s
  | .crateXferDone isl x => Sys2Proof.Machine.execCrateXferDone isl x s
  | .crateSwapDone x => Sys2Proof.Machine.execCrateSwapDone x s
  | .gridFmt isl rs1 => Sys2Proof.Machine.execGridFmt isl rs1 s
  | .gridMm isl rs1 => Sys2Proof.Machine.execGridMm isl rs1 s
  | .gridMma isl rs1 => Sys2Proof.Machine.execGridMma isl rs1 s
  | .gridOpStart isl => Sys2Proof.Machine.execGridOpStart isl s
  | .gridOpDone isl x => Sys2Proof.Machine.execGridOpDone isl x s
  -- Vector engine
  | .vecRun isl rs1 rs2 => Sys2Proof.Machine.execVecRun isl rs1 rs2 s
  | .vecSync isl => Sys2Proof.Machine.execVecSync isl s
  | .vecProgramStart isl => Sys2Proof.Machine.execVecProgramStart isl s
  | .vend isl f => Sys2Proof.Machine.execVend isl f s
  | .vnop isl f => Sys2Proof.Machine.execVnop isl f s
  | .vaddp isl f => Sys2Proof.Machine.execVaddp isl f s
  | .vld isl f => Sys2Proof.Machine.execVld isl f s
  | .vldi isl f => Sys2Proof.Machine.execVldi isl f s
  | .vldw isl f => Sys2Proof.Machine.execVldw isl f s
  | .vst isl f => Sys2Proof.Machine.execVst isl f s
  | .vsti isl f => Sys2Proof.Machine.execVsti isl f s
  | .vstw isl f => Sys2Proof.Machine.execVstw isl f s
  | .vadd isl f => Sys2Proof.Machine.execVadd isl f s
  | .vsub isl f => Sys2Proof.Machine.execVsub isl f s
  | .vmul isl f => Sys2Proof.Machine.execVmul isl f s
  | .vfma isl f => Sys2Proof.Machine.execVfma isl f s
  | .vmax isl f => Sys2Proof.Machine.execVmax isl f s
  | .vmin isl f => Sys2Proof.Machine.execVmin isl f s
  | .vabs isl f => Sys2Proof.Machine.execVabs isl f s
  | .vneg isl f => Sys2Proof.Machine.execVneg isl f s
  | .vcmplt isl f => Sys2Proof.Machine.execVcmplt isl f s
  | .vsel isl f => Sys2Proof.Machine.execVsel isl f s
  | .vbcast isl f => Sys2Proof.Machine.execVbcast isl f s
  | .vcvtif isl f => Sys2Proof.Machine.execVcvtif isl f s
  | .vcvtfi isl f => Sys2Proof.Machine.execVcvtfi isl f s
  | .viadd isl f => Sys2Proof.Machine.execViadd isl f s
  | .visub isl f => Sys2Proof.Machine.execVisub isl f s
  | .vimul isl f => Sys2Proof.Machine.execVimul isl f s
  | .vand isl f => Sys2Proof.Machine.execVand isl f s
  | .vor isl f => Sys2Proof.Machine.execVor isl f s
  | .vxor isl f => Sys2Proof.Machine.execVxor isl f s
  | .vshl isl f => Sys2Proof.Machine.execVshl isl f s
  | .vshrl isl f => Sys2Proof.Machine.execVshrl isl f s
  | .vshra isl f => Sys2Proof.Machine.execVshra isl f s
  | .vimin isl f => Sys2Proof.Machine.execVimin isl f s
  | .vimax isl f => Sys2Proof.Machine.execVimax isl f s
  | .vimm isl f => Sys2Proof.Machine.execVimm isl f s
  | .vaddw isl f => Sys2Proof.Machine.execVaddw isl f s
  | .vcvtfw isl f => Sys2Proof.Machine.execVcvtfw isl f s
  | .vsfu isl f => Sys2Proof.Machine.execVsfu isl f s
  | .vgate isl f => Sys2Proof.Machine.execVgate isl f s
  | .vrmax isl f => Sys2Proof.Machine.execVrmax isl f s
  | .vrsum isl f => Sys2Proof.Machine.execVrsum isl f s
  | .vrsexp isl f => Sys2Proof.Machine.execVrsexp isl f s
  | .vrmean isl f => Sys2Proof.Machine.execVrmean isl f s
  | .vrvar isl f => Sys2Proof.Machine.execVrvar isl f s
  | .vrms isl f => Sys2Proof.Machine.execVrms isl f s
  | .vtree isl f => Sys2Proof.Machine.execVtree isl f s
  | .vsdot isl f => Sys2Proof.Machine.execVsdot isl f s
  | .vdw isl f => Sys2Proof.Machine.execVdw isl f s
  -- Range coding and edge layers
  | .rceJobSubmit isl slot ord => Sys2Proof.Machine.execRceJobSubmit isl slot ord s
  | .encode rce => Sys2Proof.Machine.execEncode rce s
  | .decode rce => Sys2Proof.Machine.execDecode rce s
  | .substreamRequest rce => Sys2Proof.Machine.execSubstreamRequest rce s
  | .frameAssembly rce => Sys2Proof.Machine.execFrameAssembly rce s
  | .rceRestart rce => Sys2Proof.Machine.execRceRestart rce s
  | .eleLayerStart ele rows cols => Sys2Proof.Machine.execEleLayerStart ele rows cols s
  | .eleChunk ele => Sys2Proof.Machine.execEleChunk ele s
  | .eleLayerDone ele => Sys2Proof.Machine.execEleLayerDone ele s
  | .eleRestart ele => Sys2Proof.Machine.execEleRestart ele s
  -- Reproducibility and twins
  | .responseRelease isl slot tag => Sys2Proof.Machine.execResponseRelease isl slot tag s
  | .rearm room => Sys2Proof.Machine.execRearm room s
  | .pair peer => Sys2Proof.Machine.execPair peer s
  | .unpair => Sys2Proof.Machine.execUnpair s
  | .pairingTimeout => Sys2Proof.Machine.execPairingTimeout s
  | .twinStartMsg queue no outcome => Sys2Proof.Machine.execTwinStartMsg queue no outcome s
  | .twinCompare queue no m => Sys2Proof.Machine.execTwinCompare queue no m s
  | .twinSoloTimeout => Sys2Proof.Machine.execTwinSoloTimeout s
  | .digestRefetch isl slot data err => Sys2Proof.Machine.execDigestRefetch isl slot data err s
  -- Cellar, Pantry and BAR4
  | .load win before total => Sys2Proof.Machine.execLoad win before total s
  | .unload win => Sys2Proof.Machine.execUnload win s
  | .graphLoadDone win => Sys2Proof.Machine.execGraphLoadDone win s
  | .bar4Read fn off len => Sys2Proof.Machine.execBar4Read fn off len s
  | .bar4Write fn off data => Sys2Proof.Machine.execBar4Write fn off data s
  | .cellarScrub ctl line e => Sys2Proof.Machine.execCellarScrub ctl line e s
  | .shelfScrub isl word e => Sys2Proof.Machine.execShelfScrub isl word e s
  -- Mesh, time and clocks
  | .meshPacketArrive p => Sys2Proof.Machine.execMeshPacketArrive p s
  | .requestTimeout isl slot unit tag => Sys2Proof.Machine.execRequestTimeout isl slot unit tag s
  | .passageStall passage => Sys2Proof.Machine.execPassageStall passage s
  | .gtcFullValue src value => Sys2Proof.Machine.execGtcFullValue src value s
  | .gtcErrMeasure src err after => Sys2Proof.Machine.execGtcErrMeasure src err after s
  | .refLost => Sys2Proof.Machine.execRefLost s
  | .refRestored => Sys2Proof.Machine.execRefRestored s
  | .thermalStep r => Sys2Proof.Machine.execThermalStep r s
  | .dcoRetune src => Sys2Proof.Machine.execDcoRetune src s
  | .gtcStepApply => Sys2Proof.Machine.execGtcStepApply s
  -- Hatal Link
  | .heartbeatSend port => Sys2Proof.Machine.execHeartbeatSend port s
  | .heartbeat port h epoch chip gtc echo => Sys2Proof.Machine.execHeartbeat port h epoch chip gtc echo s
  | .heartbeatTimeout port => Sys2Proof.Machine.execHeartbeatTimeout port s
  | .lossOfSignal port lane => Sys2Proof.Machine.execLossOfSignal port lane s
  | .nak port h seq => Sys2Proof.Machine.execNak port h seq s
  | .creditFrame port h => Sys2Proof.Machine.execCreditFrame port h s
  | .trainingStart port => Sys2Proof.Machine.execTrainingStart port s
  | .trainingDone port p => Sys2Proof.Machine.execTrainingDone port p s
  | .trainingTimeout port => Sys2Proof.Machine.execTrainingTimeout port s
  | .probationEnd port uncorr crcFails corrected => Sys2Proof.Machine.execProbationEnd port uncorr crcFails corrected s
  | .backoffReset port => Sys2Proof.Machine.execBackoffReset port s
  | .linkPortReset port => Sys2Proof.Machine.execLinkPortReset port s
  | .linkQuarantine port => Sys2Proof.Machine.execLinkQuarantine port s
  | .linkRelease port => Sys2Proof.Machine.execLinkRelease port s
  | .rekey port => Sys2Proof.Machine.execRekey port s
  | .read port h t => Sys2Proof.Machine.execRead port h t s
  | .readResp port h t data => Sys2Proof.Machine.execReadResp port h t data s
  | .write port h t data => Sys2Proof.Machine.execWrite port h t data s
  | .writeAck port h t => Sys2Proof.Machine.execWriteAck port h t s
  | .coll port h t data => Sys2Proof.Machine.execColl port h t data s
  | .msg port h t m => Sys2Proof.Machine.execMsg port h t m s
  | .leaseReq port h t win => Sys2Proof.Machine.execLeaseReq port h t win s
  | .leaseGrant port h t win leaseUs => Sys2Proof.Machine.execLeaseGrant port h t win leaseUs s
  | .leaseRenew port h t wins => Sys2Proof.Machine.execLeaseRenew port h t wins s
  | .leaseAck port h t wins => Sys2Proof.Machine.execLeaseAck port h t wins s
  | .leaseRelease port h t win => Sys2Proof.Machine.execLeaseRelease port h t win s
  | .leaseRenewTimer grantor => Sys2Proof.Machine.execLeaseRenewTimer grantor s
  | .leaseExpiry side chip win => Sys2Proof.Machine.execLeaseExpiry side chip win s
  | .leaseIdleRelease chip win => Sys2Proof.Machine.execLeaseIdleRelease chip win s
  | .remoteReqTimeout tag => Sys2Proof.Machine.execRemoteReqTimeout tag s
  -- Cells, yards and spans
  | .portMap chip ver ports => Sys2Proof.Machine.execPortMap chip ver ports s
  | .portMapTimer => Sys2Proof.Machine.execPortMapTimer s
  | .ptpSync ptp => Sys2Proof.Machine.execPtpSync ptp s
  | .ptpLoss => Sys2Proof.Machine.execPtpLoss s
  | .topChipWrite v => Sys2Proof.Machine.execTopChipWrite v s
  | .spanCheck room pos ans => Sys2Proof.Machine.execSpanCheck room pos ans s
  | .spanCheckTimer room => Sys2Proof.Machine.execSpanCheckTimer room s
  | .spanStart room st => Sys2Proof.Machine.execSpanStart room st s
  | .spanStop room ref => Sys2Proof.Machine.execSpanStop room ref s
  | .headUnreachable room => Sys2Proof.Machine.execHeadUnreachable room s
  -- Sweep, Audit, verification and drain
  | .sweepSlotEnd => Sys2Proof.Machine.execSweepSlotEnd s
  | .sweepForce => Sys2Proof.Machine.execSweepForce s
  | .sweepStepStart => Sys2Proof.Machine.execSweepStepStart s
  | .sweepStepDone pass_ => Sys2Proof.Machine.execSweepStepDone pass_ s
  | .sweepYield => Sys2Proof.Machine.execSweepYield s
  | .auditGo v => Sys2Proof.Machine.execAuditGo v s
  | .auditTestDone room failed => Sys2Proof.Machine.execAuditTestDone room failed s
  | .auditAbort => Sys2Proof.Machine.execAuditAbort s
  | .verifyStart unit => Sys2Proof.Machine.execVerifyStart unit s
  | .verifyDone unit failed => Sys2Proof.Machine.execVerifyDone unit failed s
  | .drainLimit => Sys2Proof.Machine.execDrainLimit s
  | .drainComplete => Sys2Proof.Machine.execDrainComplete s
  -- The Ledger and the Inventory
  | .ledgerEvent src cls code ten sev payload => Sys2Proof.Machine.execLedgerEvent src cls code ten sev payload s
  | .ledgerSeal => Sys2Proof.Machine.execLedgerSeal s
  | .coalesceClose src cls code ten => Sys2Proof.Machine.execCoalesceClose src cls code ten s
  | .mirrorCopy => Sys2Proof.Machine.execMirrorCopy s
  | .hostHeadWrite v => Sys2Proof.Machine.execHostHeadWrite v s
  | .ledgCfgWrite v => Sys2Proof.Machine.execLedgCfgWrite v s
  | .inject v => Sys2Proof.Machine.execInject v s
  | .inventoryAudit v => Sys2Proof.Machine.execInventoryAudit v s
  | .auditInstant wrong => Sys2Proof.Machine.execAuditInstant wrong s
  -- Boot, power and attestation
  | .perst ns hotC => Sys2Proof.Machine.execPerst ns hotC s
  | .bootReady b => Sys2Proof.Machine.execBootReady b s
  | .mainInputRemoved => Sys2Proof.Machine.execMainInputRemoved s
  | .thermalTrip cause => Sys2Proof.Machine.execThermalTrip cause s
  | .d3hotEntry => Sys2Proof.Machine.execD3hotEntry s
  | .d0Return => Sys2Proof.Machine.execD0Return s
  | .powerGate unit => Sys2Proof.Machine.execPowerGate unit s
  | .powerWake unit => Sys2Proof.Machine.execPowerWake unit s
  | .completionTimeout isl slot tag => Sys2Proof.Machine.execCompletionTimeout isl slot tag s
  | .fwUpdate v => Sys2Proof.Machine.execFwUpdate v s
  | .fwUpdateDone r => Sys2Proof.Machine.execFwUpdateDone r s
  | .getVersion => Sys2Proof.Machine.execGetVersion s
  | .getCapabilities => Sys2Proof.Machine.execGetCapabilities s
  | .negotiateAlgorithms => Sys2Proof.Machine.execNegotiateAlgorithms s
  | .getDigests => Sys2Proof.Machine.execGetDigests s
  | .getCertificate slot => Sys2Proof.Machine.execGetCertificate slot s
  | .challenge slot => Sys2Proof.Machine.execChallenge slot s
  | .getMeasurements index => Sys2Proof.Machine.execGetMeasurements index s
  | .keyExchange session => Sys2Proof.Machine.execKeyExchange session s
  | .finish session ok => Sys2Proof.Machine.execFinish session ok s
  | .keyUpdate session => Sys2Proof.Machine.execKeyUpdate session s
  | .endSession session => Sys2Proof.Machine.execEndSession session s
  | .getRetirement => Sys2Proof.Machine.execGetRetirement s
  | .getIdentity => Sys2Proof.Machine.execGetIdentity s
  | .pldmSensorRead sensor => Sys2Proof.Machine.execPldmSensorRead sensor s
  | .corruptFrame port k h => Sys2Proof.Machine.execCorruptFrame port k h s
  | .powerOn => Sys2Proof.Machine.execPowerOn s
  | .ideKmRequest session op => Sys2Proof.Machine.execIdeKmRequest session op s
  | .boundaryScan j => Sys2Proof.Machine.execBoundaryScan j s
  | .ratePacedSend port => Sys2Proof.Machine.execRatePacedSend port s
  | .reservedInstruction isl vec w => Sys2Proof.Machine.execReservedInstruction isl vec w s

end Sys2Proof.Machine
end

