-- ==== Sys2Proof/Laws/Maps.lean ====
section
/-! SUPPORT. Laws of sparse maps and of memory: a read after a write, a write that leaves every other place alone, and
the canonical form that every memory operation keeps. -/

namespace Sys2Proof.Machine

open Sys2Proof

/-! ### Sparse maps -/

@[simp] theorem NMap.find?_set {α : Type} (m : NMap α) (k : Nat) (v : α) (j : Nat) :
    NMap.find? (NMap.set m k v) j = if k = j then some v else NMap.find? m j := by
  induction m with
  | nil => simp [NMap.set, NMap.find?]
  | cons e r ih =>
    obtain ⟨i, w⟩ := e
    simp only [NMap.set]
    split
    · simp [NMap.find?]
    · split
      · subst_vars; simp only [NMap.find?]; split <;> rfl
      · simp only [NMap.find?, ih]
        split <;> split <;> simp_all

theorem NMap.find?_set_self {α : Type} (m : NMap α) (k : Nat) (v : α) : NMap.find? (NMap.set m k v) k = some v := by simp

@[simp] theorem NMap.find?_del {α : Type} (m : NMap α) (k j : Nat) :
    NMap.find? (NMap.del m k) j = if k = j then none else NMap.find? m j := by
  induction m with
  | nil => simp [NMap.del, NMap.find?]
  | cons e r ih =>
    obtain ⟨i, w⟩ := e
    simp only [NMap.del] at ih
    by_cases h : i = k
    · subst h
      simp only [NMap.del, List.filter_cons, bne_self_eq_false, Bool.false_eq_true, if_false, ih, NMap.find?]
      split <;> simp_all
    · simp only [NMap.del, List.filter_cons, bne_iff_ne, ne_eq, h, not_false_eq_true, if_true, NMap.find?, ih]
      split <;> split <;> simp_all

@[simp] theorem NMap.getD_set {α : Type} (m : NMap α) (k : Nat) (v : α) (j : Nat) (d : α) :
    NMap.getD (NMap.set m k v) j d = if k = j then v else NMap.getD m j d := by
  simp only [NMap.getD, NMap.find?_set]
  split <;> rfl

@[simp] theorem NMap.getD_upd {α : Type} (m : NMap α) (k : Nat) (d : α) (f : α → α) (j : Nat) :
    NMap.getD (NMap.upd m k d f) j d = if k = j then f (NMap.getD m k d) else NMap.getD m j d := by
  simp [NMap.upd]

@[simp] theorem NMap.getD_del {α : Type} (m : NMap α) (k j : Nat) (d : α) :
    NMap.getD (NMap.del m k) j d = if k = j then d else NMap.getD m j d := by
  simp only [NMap.getD, NMap.find?_del]
  split <;> rfl

/-! ### Memory: reads after writes -/

theorem Mem.byte_put (m : Mem) (a : Nat) (v : Byte) (b : Nat) :
    Mem.byte (Mem.put m a v) b = if a = b then v else Mem.byte m b := by
  unfold Mem.put Mem.byte
  split
  · subst_vars; simp
  · simp

@[simp] theorem Mem.byte_put_self (m : Mem) (a : Nat) (v : Byte) : Mem.byte (Mem.put m a v) a = v := by
  simp [Mem.byte_put]

/-- A write stores its bytes and leaves every other byte alone. -/
theorem Mem.byte_write (d : Bytes) (m : Mem) (a b : Nat) :
    Mem.byte (Mem.write m a d) b = if a ≤ b ∧ b < a + d.length then d.getD (b - a) 0 else Mem.byte m b := by
  induction d generalizing m a with
  | nil => simp [Mem.write]
  | cons x r ih =>
    simp only [Mem.write, ih, Mem.byte_put, List.length_cons]
    by_cases h : a = b
    · subst h
      simp
    · by_cases h1 : a + 1 ≤ b ∧ b < a + 1 + r.length
      · have h2 : a ≤ b ∧ b < a + (r.length + 1) := by omega
        have h3 : b - a = (b - (a + 1)) + 1 := by omega
        simp [h1, h2, h3]
      · have h2 : ¬(a ≤ b ∧ b < a + (r.length + 1)) := by omega
        rw [if_neg h1, if_neg h2, if_neg h]

theorem Mem.byte_write_outside (m : Mem) (a : Nat) (d : Bytes) (b : Nat) (h : b < a ∨ a + d.length ≤ b) :
    Mem.byte (Mem.write m a d) b = Mem.byte m b := by
  rw [Mem.byte_write, if_neg (by omega)]

/-- Reading what has just been written gives it back. -/
theorem Mem.read_eq (m : Mem) (a n : Nat) : Mem.read m a n = (List.range n).map (fun i => Mem.byte m (a + i)) := by
  induction n generalizing a with
  | zero => rfl
  | succ n ih =>
    rw [Mem.read, ih, List.range_succ_eq_map]
    simp [List.map_map, Function.comp_def, Nat.add_comm, Nat.add_left_comm]

theorem Mem.read_write_self (m : Mem) (a : Nat) (d : Bytes) : Mem.read (Mem.write m a d) a d.length = d := by
  rw [Mem.read_eq]
  apply List.ext_getElem
  · simp
  · intro i h1 h2
    simp only [List.getElem_map, List.getElem_range, Mem.byte_write]
    have : i < d.length := h2
    simp [this, List.getD_eq_getElem?_getD]

/-- A range cleared reads as zero, and nothing else changes. -/
theorem Mem.byte_clear (m : Mem) (a len b : Nat) :
    Mem.byte (Mem.clear m a len) b = if a ≤ b ∧ b < a + len then 0 else Mem.byte m b := by
  unfold Mem.byte NMap.getD Mem.clear
  induction m with
  | nil => simp [NMap.find?]
  | cons e r ih =>
    obtain ⟨i, w⟩ := e
    by_cases hi : i < a ∨ a + len ≤ i
    · have : (decide (i < a) || decide (a + len ≤ i)) = true := by simpa using hi
      simp only [List.filter_cons, this, if_true, NMap.find?]
      by_cases hb : i = b
      · subst hb
        have : ¬(a ≤ i ∧ i < a + len) := by omega
        simp [this]
      · simp only [hb, if_false]; exact ih
    · have : (decide (i < a) || decide (a + len ≤ i)) = false := by simpa using hi
      simp only [List.filter_cons, this, Bool.false_eq_true, if_false, NMap.find?]
      by_cases hb : i = b
      · subst hb
        have h3 : a ≤ i ∧ i < a + len := by omega
        rw [ih]; simp [h3]
      · simp only [hb, if_false]; exact ih

/-! ### The canonical form -/

/-- Addresses strictly above a bound, rising, and no byte zero. -/
def Mem.above (lo : Nat) : Mem → Prop
  | [] => True
  | (a, v) :: r => lo ≤ a ∧ v ≠ 0 ∧ Mem.above (a + 1) r

theorem Mem.above_mono {m : Mem} {lo lo' : Nat} (h : Mem.above lo m) (hl : lo' ≤ lo) : Mem.above lo' m := by
  cases m with
  | nil => trivial
  | cons e r => exact ⟨Nat.le_trans hl h.1, h.2⟩

theorem Mem.wf_iff (m : Mem) : Mem.wf m = true ↔ Mem.above 0 m := by
  suffices h : ∀ (m : Mem) a (v : Byte), Mem.wf ((a, v) :: m) = true ↔ v ≠ 0 ∧ Mem.above (a + 1) m by
    cases m with
    | nil => simp [Mem.wf, Mem.above]
    | cons e r => obtain ⟨a, v⟩ := e; simp [h, Mem.above]
  intro m
  induction m with
  | nil => intro a v; simp [Mem.wf, Mem.above]
  | cons e r ih =>
    obtain ⟨b, w⟩ := e
    intro a v
    simp only [Mem.wf, Bool.and_eq_true, bne_iff_ne, ne_eq, decide_eq_true_eq, ih, Mem.above, Nat.succ_le_iff, and_assoc]

theorem Mem.above_filter {m : Mem} {lo : Nat} (p : Nat × Byte → Bool) (h : Mem.above lo m) :
    Mem.above lo (m.filter p) := by
  induction m generalizing lo with
  | nil => exact h
  | cons e r ih =>
    obtain ⟨a, v⟩ := e
    simp only [List.filter_cons]
    split
    · exact ⟨h.1, h.2.1, ih h.2.2⟩
    · exact ih (Mem.above_mono h.2.2 (by have := h.1; omega))

theorem Mem.above_set {m : Mem} {lo a : Nat} {v : Byte} (h : Mem.above lo m) (ha : lo ≤ a) (hv : v ≠ 0) :
    Mem.above lo (NMap.set m a v) := by
  induction m generalizing lo with
  | nil => exact ⟨ha, hv, trivial⟩
  | cons e r ih =>
    obtain ⟨b, w⟩ := e
    simp only [NMap.set]
    split
    · next hb => exact ⟨ha, hv, Nat.succ_le_of_lt hb, h.2.1, h.2.2⟩
    · split
      · next hb => subst hb; exact ⟨h.1, hv, h.2.2⟩
      · exact ⟨h.1, h.2.1, ih h.2.2 (by omega)⟩

theorem Mem.wf_put {m : Mem} (a : Nat) (v : Byte) (h : Mem.wf m = true) : Mem.wf (Mem.put m a v) = true := by
  rw [Mem.wf_iff] at *
  unfold Mem.put
  split
  · exact Mem.above_filter _ h
  · exact Mem.above_set h (Nat.zero_le _) ‹_›

theorem Mem.wf_write {m : Mem} (a : Nat) (d : Bytes) (h : Mem.wf m = true) : Mem.wf (Mem.write m a d) = true := by
  induction d generalizing m a with
  | nil => exact h
  | cons x r ih => exact ih _ (Mem.wf_put a x h)

theorem Mem.wf_clear {m : Mem} (a len : Nat) (h : Mem.wf m = true) : Mem.wf (Mem.clear m a len) = true := by
  rw [Mem.wf_iff] at *
  exact Mem.above_filter _ h

/-- Canonical memories that read alike are the same list. -/
theorem Mem.above_ext {m m' : Mem} {lo : Nat} (h : Mem.above lo m) (h' : Mem.above lo m')
    (e : ∀ a, lo ≤ a → Mem.byte m a = Mem.byte m' a) : m = m' := by
  have low : ∀ {m : Mem} {lo : Nat}, Mem.above lo m → ∀ a, a < lo → Mem.byte m a = 0 := by
    intro m
    induction m with
    | nil => intros; rfl
    | cons x r ih =>
      obtain ⟨b, w⟩ := x
      intro lo h a ha
      have : b ≠ a := by have := h.1; omega
      have hr := ih h.2.2 a (by have := h.1; omega)
      simpa [Mem.byte, NMap.getD, NMap.find?, this] using hr
  induction m generalizing m' lo with
  | nil =>
    cases m' with
    | nil => rfl
    | cons x r =>
      obtain ⟨b, w⟩ := x
      have := e b h'.1
      simp [Mem.byte, NMap.getD, NMap.find?] at this
      exact absurd this.symm h'.2.1
  | cons x r ih =>
    obtain ⟨a, v⟩ := x
    cases m' with
    | nil =>
      have := e a h.1
      simp [Mem.byte, NMap.getD, NMap.find?] at this
      exact absurd this h.2.1
    | cons y r' =>
      obtain ⟨b, w⟩ := y
      have hab : a = b := by
        rcases Nat.lt_trichotomy a b with hl | he | hl
        · have := e a h.1
          have hb : b ≠ a := by omega
          have z := low h'.2.2 a (by omega)
          simp [Mem.byte, NMap.getD, NMap.find?, hb] at this z
          rw [z] at this
          exact absurd this h.2.1
        · exact he
        · have := e b h'.1
          have hb : a ≠ b := by omega
          have z := low h.2.2 b (by omega)
          simp [Mem.byte, NMap.getD, NMap.find?, hb] at this z
          rw [z] at this
          exact absurd this.symm h'.2.1
      subst hab
      have hv : v = w := by
        have := e a h.1
        simpa [Mem.byte, NMap.getD, NMap.find?] using this
      subst hv
      congr 1
      refine ih h.2.2 h'.2.2 (fun c hc => ?_)
      have := e c (by have := h.1; omega)
      have hne : a ≠ c := by omega
      simpa [Mem.byte, NMap.getD, NMap.find?, hne] using this

theorem Mem.wf_ext {m m' : Mem} (h : Mem.wf m = true) (h' : Mem.wf m' = true) (e : ∀ a, Mem.byte m a = Mem.byte m' a) :
    m = m' :=
  Mem.above_ext ((Mem.wf_iff m).mp h) ((Mem.wf_iff m').mp h') (fun a _ => e a)

/-! ### Stores -/

@[simp] theorem Store.write_mem (n : Nat) (st : Store) (a : Nat) (d : Bytes) :
    (st.write n a d).mem = Mem.write st.mem a d := rfl
@[simp] theorem Store.mark_mem (st : Store) (us : List Nat) : (st.mark us).mem = st.mem := rfl
@[simp] theorem Store.land_mem (n : Nat) (st : Store) (a : Nat) (d : Bytes) (bad : List (Nat × Nat)) :
    (st.land n a d bad).mem = Mem.write st.mem a d := rfl
@[simp] theorem Store.wipe_mem (n : Nat) (st : Store) (a len : Nat) : (st.wipe n a len).mem = Mem.clear st.mem a len := rfl

/-- Every operation on a store keeps the canonical form of its memory. -/
theorem Store.wf_write {st : Store} (n a : Nat) (d : Bytes) (h : Mem.wf st.mem = true) :
    Mem.wf (st.write n a d).mem = true := Mem.wf_write a d h
theorem Store.wf_land {st : Store} (n a : Nat) (d : Bytes) (bad : List (Nat × Nat)) (h : Mem.wf st.mem = true) :
    Mem.wf (st.land n a d bad).mem = true := Mem.wf_write a d h
theorem Store.wf_wipe {st : Store} (n a len : Nat) (h : Mem.wf st.mem = true) : Mem.wf (st.wipe n a len).mem = true :=
  Mem.wf_clear a len h

end Sys2Proof.Machine
end

