-- ==== Sys2Proof/WellFormed.lean ====
section
/-! DEFINITION. Which commands are well formed: every operand lies within the field that carries it. The field widths
are those of the tables each check names; a command whose operands are of finite types is always well formed. -/

namespace Sys2Proof

/-- Bytes of BAR0 (Table 22-1), of a BAR2 page (Table 6-1), of BAR4 at its largest (R320), and of a layout image
(Table 3-1). -/
def bar0Size : Nat := 0x2000000
def bar2Size : Nat := 0x10000
def bar4Size : Nat := 2 ^ 36
def layoutMax : Nat := 0x100000

/-- A queue number is 17 bits (R15). -/
def isQueue (q : Nat) : Bool := decide (q < 2 ^ 17)

/-- An SPDM session identifier is 32 bits. -/
def isSession (x : Nat) : Bool := decide (x < 2 ^ 32)

/-- An access of 1, 2, 4 or 8 bytes within its BAR; R10 says which of them reach a register. -/
def Access.wellFormed (a : Access) : Bool :=
  (a.size == 1 || a.size == 2 || a.size == 4 || a.size == 8) && a.off % a.size == 0
    && decide (a.off + a.size ≤ (if a.bar2 then bar2Size else bar0Size))

def Doubt.wellFormed : Doubt → Bool
  | .none => true
  | .swap t => decide (t < 2 ^ 64)
  | .abort failed => decide (failed < 2 ^ 16)
  | .noRecord => true

def DmaResult.wellFormed (r : DmaResult) : Bool :=
  decide (r.data.length ≤ 2 ^ 21) && r.bad.all (fun b => decide (b.1 + b.2 ≤ r.data.length))

def Residue.wellFormed : Residue → Bool
  | .clean => true
  | .once row => decide (row < 256)
  | .twice row again => decide (row < 256) && decide (again < 256)

def TwinCheck.wellFormed (c : TwinCheck) : Bool :=
  decide (c.chip < 2 ^ 15) && decide (c.peer < 2 ^ 15) && c.words.all (fun w => decide (w.1 < 64) && decide (w.2.1 < 3))

def TwinMsg.wellFormed (m : TwinMsg) : Bool :=
  decide (m.status < 256) && decide (m.detail < 65536) && decide (m.outLen < 2 ^ 32) && decide (m.nflags < 65536)
    && (m.digest.length == 16) && decide (m.checksum < 2 ^ 64)

/-- Readings fit the fields of TOP_THERM and TOP_PWR (Table 20-15). -/
def Sensors.wellFormed (r : Sensors) : Bool :=
  decide (r.tjC < 256) && decide (r.hbm0C < 256) && decide (r.hbm1C < 256) && decide (r.inletC < 256)
    && decide (r.powerW < 4096)

/-- Table 16-1. -/
def LHdr.wellFormed (h : LHdr) : Bool :=
  decide (h.vc < 16) && decide (h.seq < 4096) && decide (h.ack < 4096) && decide (h.epoch < 256) && decide (h.nblk ≤ 8)
    && decide (h.poison < 256) && decide (h.crvc < 16) && decide (h.crcnt < 64)

/-- Table 16-2. -/
def THdr.wellFormed (t : THdr) : Bool :=
  decide (t.status < 256) && decide (t.len ≤ 512) && decide (t.src < 2 ^ 15) && decide (t.tag < 65536)
    && decide (t.e2e < 2 ^ 32) && decide (t.addr < 2 ^ 64)

def Partner.wellFormed (p : Partner) : Bool :=
  decide (p.epoch < 2 ^ 32) && decide (p.chip < 2 ^ 15) && decide (p.mode < 4) && decide (p.ownerHash < 2 ^ 384)
    && (p.pools.length == 16)

def SpanAns.wellFormed (a : SpanAns) : Bool :=
  decide (a.ndev ≤ 16) && decide (a.level < 3) && a.devs.all (fun d => decide (d.1 < 2 ^ 15) && decide (d.2 < 64))

def SpanStartMsg.wellFormed (m : SpanStartMsg) : Bool :=
  isQueue m.queue && (m.gd.length == 32) && (m.wd.length == 32) && (m.desc.length == 64) && decide (m.graph < 65536)

def LMsg.wellFormed : LMsg → Bool
  | .vote member _ _ => decide (member < 16)
  | .swap _ t => decide (t < 2 ^ 64)
  | .abort _ failed => decide (failed < 2 ^ 16)
  | .query _ member => decide (member < 16)
  | .answer _ d => d.wellFormed
  | .portMap chip _ ports => decide (chip < 2 ^ 15) && ports.length == 8
  | .spanAsk head room pos => decide (head < 64) && decide (room < 64) && decide (pos < 16)
  | .spanCheck head pos a => decide (head < 64) && decide (pos < 16) && a.wellFormed
  | .spanStart room st => decide (room < 64) && st.wellFormed
  | .spanStop room _ => decide (room < 64)
  | .spanEnd _ status _ _ => status.all (fun x => decide (x.1 < 256) && decide (x.2 < 65536))
  | .twinStart queue _ outcome => isQueue queue && decide (outcome < 3)
  | .twinCompare queue _ m => isQueue queue && m.wellFormed
  | .twinPair c => c.wellFormed
  | .align chip level => decide (chip < 2 ^ 15) && decide (level < 8)
  | .lease opc wins us => decide (0x10 ≤ opc) && decide (opc ≤ 0x14) && wins.all (fun w => decide (w < 256)) && decide (us < 2 ^ 32)

def BootIn.wellFormed (b : BootIn) : Bool :=
  decide (b.bootMs < 65536) && decide (b.speed < 8) && decide (b.width < 32)

def FwResult.wellFormed : FwResult → Bool
  | .fetchFault => true
  | .badSignature => true
  | .lowSvn => true
  | .flashFail => true
  | .staged svn => decide (svn < 64)

def IdeOp.wellFormed : IdeOp → Bool
  | .query => true
  | .keyProg sub => decide (sub < 8)
  | .setGo sub => decide (sub < 8)
  | .setStop sub => decide (sub < 8)

/-- A command whose every operand lies within its field. -/
def Instr.wellFormed : Instr → Bool
  -- Register accesses
  | .registerWrite a v => a.wellFormed && decide (v.toNat < 256 ^ a.size)
  | .rcRead a => a.wellFormed
  | .rwtWrite off _ => decide (off < bar0Size) && off % 8 == 0
  | .atticPeek _ => true
  -- Transactions, layout loads and the Hatch
  | .openTxn _ _ => true
  | .commit _ token _ _ _ => decide (token < 256)
  | .rollback _ token => decide (token < 256)
  | .keepalive _ token => decide (token < 256)
  | .txwWdataWrite _ _ => true
  | .idleTimeout scope => decide (scope ≤ 64)
  | .validationDone scope auth => decide (scope ≤ 64) && (!auth.fetched || auth.block.length == 256)
  | .layoutGo token _ => decide (token < 256)
  | .layoutLoadDone img fault => decide (img.length ≤ layoutMax) && (fault.all (fun x => decide (x < layoutMax)))
  | .hatchPrepare => true
  | .hatchReady => true
  | .hatchDeadline => true
  | .hatchForceStopped => true
  | .hatchSwap => true
  | .hatchClearingDone _ => true
  | .hatchVote member _ _ => decide (member < 16)
  | .hatchSwapMsg _ t => decide (t < 2 ^ 64)
  | .hatchAbortMsg _ failed => decide (failed < 2 ^ 16)
  | .inDoubt => true
  | .inDoubtQuery answer => answer.wellFormed
  | .quiesce _ => true
  | .quiesceRelease => true
  -- Tenants, rooms and resets
  | .taskKill _ queue _ => isQueue queue
  | .islandReset _ => true
  | .roomReset _ _ _ => true
  | .tenantReset _ _ _ => true
  | .flr _ => true
  | .vfEnableChange _ num => decide (num < 65536)
  | .warmChipReset _ _ => true
  | .resetDone _ => true
  | .scrubDone _ => true
  | .dispatchStall _ => true
  -- Session queues and polling
  | .queueActivate _ mode log2 => decide (mode < 4) && decide (log2 < 32)
  | .queueDeactivate _ => true
  | .doorbell _ _ => true
  | .ringEntryFetch queue data err => isQueue queue && (err || (data.length % 64 == 0 && decide (0 < data.length)))
  | .pushWrite _ off data => decide (0 < data.length) && decide (off + data.length ≤ 4096)
  | .pushTimeout _ slot => decide (slot < 64)
  | .scanCtrlWrite _ _ => true
  | .ringScan _ data err => err || (data.length % 4 == 0 && decide (data.length ≤ 16384))
  | .contextFetchDone queue => isQueue queue
  | .taskStart _ => true
  | .run _ => true
  | .nop queue => isQueue queue
  | .stateZero queue => isQueue queue
  | .crcfgCtrlWrite _ _ => true
  | .crHeadWrite _ ring _ => decide (ring < 128)
  | .ppEnable _ _ => true
  | .pollUpdate _ => true
  | .backlogUpdate _ => true
  -- Steward instructions: the RUNNING slot of an island executes one
  | .add _ _ _ _ => true
  | .sub _ _ _ _ => true
  | .andR _ _ _ _ => true
  | .orR _ _ _ _ => true
  | .xorR _ _ _ _ => true
  | .sll _ _ _ _ => true
  | .srl _ _ _ _ => true
  | .sra _ _ _ _ => true
  | .slt _ _ _ _ => true
  | .sltu _ _ _ _ => true
  | .mul _ _ _ _ => true
  | .mulh _ _ _ _ => true
  | .minR _ _ _ _ => true
  | .maxR _ _ _ _ => true
  | .addi _ _ _ _ => true
  | .andi _ _ _ _ => true
  | .ori _ _ _ _ => true
  | .xori _ _ _ _ => true
  | .slli _ _ _ _ => true
  | .srli _ _ _ _ => true
  | .srai _ _ _ _ => true
  | .slti _ _ _ _ => true
  | .lui _ _ _ => true
  | .lb _ _ _ _ => true
  | .lh _ _ _ _ => true
  | .lw _ _ _ _ => true
  | .ld _ _ _ _ => true
  | .lbu _ _ _ _ => true
  | .lhu _ _ _ _ => true
  | .lwu _ _ _ _ => true
  | .sb _ _ _ _ => true
  | .sh _ _ _ _ => true
  | .sw _ _ _ _ => true
  | .sd _ _ _ _ => true
  | .branch _ _ _ _ _ => true
  | .jal _ _ _ => true
  | .jalr _ _ _ _ => true
  | .csrr _ _ _ => true
  | .csrw _ _ _ => true
  | .wait _ _ => true
  | .trap _ _ => true
  | .exit _ _ => true
  | .eret _ => true
  | .fence _ => true
  | .dmaRd _ _ _ => true
  | .dmaWr _ _ _ => true
  | .dmaWaittag _ _ => true
  -- Task slots and DMA
  | .waitSatisfied _ _ => true
  | .dmaComplete _ _ _ r => r.wellFormed
  | .stopRequest _ _ => true
  | .stopComplete _ _ => true
  | .taskEnd _ _ => true
  -- Crates and the Grid
  | .crateLoad _ _ _ _ _ => true
  | .crateStore _ _ _ _ _ => true
  | .crateZero _ _ => true
  | .crateRelease _ _ => true
  | .crateMap _ _ _ => true
  | .crateUnmap _ _ => true
  | .crateXferDone _ _ => true
  | .crateSwapDone _ => true
  | .gridFmt _ _ => true
  | .gridMm _ _ => true
  | .gridMma _ _ => true
  | .gridOpStart _ => true
  | .gridOpDone _ x => x.res.wellFormed
  -- Vector engine
  | .vecRun _ _ _ => true
  | .vecSync _ => true
  | .vecProgramStart _ => true
  | .vend _ _ => true
  | .vnop _ _ => true
  | .vaddp _ _ => true
  | .vld _ _ => true
  | .vldi _ _ => true
  | .vldw _ _ => true
  | .vst _ _ => true
  | .vsti _ _ => true
  | .vstw _ _ => true
  | .vadd _ _ => true
  | .vsub _ _ => true
  | .vmul _ _ => true
  | .vfma _ _ => true
  | .vmax _ _ => true
  | .vmin _ _ => true
  | .vabs _ _ => true
  | .vneg _ _ => true
  | .vcmplt _ _ => true
  | .vsel _ _ => true
  | .vbcast _ _ => true
  | .vcvtif _ _ => true
  | .vcvtfi _ _ => true
  | .viadd _ _ => true
  | .visub _ _ => true
  | .vimul _ _ => true
  | .vand _ _ => true
  | .vor _ _ => true
  | .vxor _ _ => true
  | .vshl _ _ => true
  | .vshrl _ _ => true
  | .vshra _ _ => true
  | .vimin _ _ => true
  | .vimax _ _ => true
  | .vimm _ _ => true
  | .vaddw _ _ => true
  | .vcvtfw _ _ => true
  | .vsfu _ _ => true
  | .vgate _ _ => true
  | .vrmax _ _ => true
  | .vrsum _ _ => true
  | .vrsexp _ _ => true
  | .vrmean _ _ => true
  | .vrvar _ _ => true
  | .vrms _ _ => true
  | .vtree _ _ => true
  | .vsdot _ _ => true
  | .vdw _ _ => true
  -- Range coding and edge layers
  | .rceJobSubmit _ _ _ => true
  | .encode _ => true
  | .decode _ => true
  | .substreamRequest _ => true
  | .frameAssembly _ => true
  | .rceRestart _ => true
  | .eleLayerStart _ _ _ => true
  | .eleChunk _ => true
  | .eleLayerDone _ => true
  | .eleRestart _ => true
  -- Reproducibility and twins
  | .responseRelease _ _ _ => true
  | .rearm _ => true
  | .pair peer => peer.all TwinCheck.wellFormed
  | .unpair => true
  | .pairingTimeout => true
  | .twinStartMsg queue _ outcome => isQueue queue && decide (outcome < 3)
  | .twinCompare queue _ m => isQueue queue && m.wellFormed
  | .twinSoloTimeout => true
  | .digestRefetch _ _ data _ => decide (data.length < 2 ^ 32)
  -- Cellar, Pantry and BAR4
  | .load _ _ _ => true
  | .unload _ => true
  | .graphLoadDone _ => true
  | .bar4Read _ off len => decide (0 < len) && decide (off + len ≤ bar4Size)
  | .bar4Write _ off data => decide (0 < data.length) && decide (off + data.length ≤ bar4Size)
  | .cellarScrub _ line _ => decide (line < 2 ^ 58)
  | .shelfScrub _ word _ => decide (word < 2 ^ 18)
  -- Mesh, time and clocks
  | .meshPacketArrive p =>
    decide (p.src < 4096) && decide (p.dst < 4096) && decide (p.flits.length ≤ 8) && p.flits.all (fun f => f.data.length == 32)
  | .requestTimeout _ _ unit tag => decide (unit < 4096) && decide (tag < 8)
  | .passageStall passage => decide (passage < 1024)
  | .gtcFullValue src value => decide (src < 4096) && decide (value < 2 ^ 64)
  | .gtcErrMeasure src _ _ => decide (src < 4096)
  | .refLost => true
  | .refRestored => true
  | .thermalStep r => r.wellFormed
  | .dcoRetune src => decide (src < 4096)
  | .gtcStepApply => true
  -- Hatal Link
  | .heartbeatSend _ => true
  | .heartbeat _ h epoch chip gtc echo => h.wellFormed && decide (epoch < 2 ^ 32) && decide (chip < 2 ^ 15) && decide (gtc < 2 ^ 64) && decide (echo < 2 ^ 64)
  | .heartbeatTimeout _ => true
  | .lossOfSignal _ _ => true
  | .nak _ h seq => h.wellFormed && decide (seq < 4096)
  | .creditFrame _ h => h.wellFormed
  | .trainingStart _ => true
  | .trainingDone _ p => p.wellFormed
  | .trainingTimeout _ => true
  | .probationEnd _ _ _ _ => true
  | .backoffReset _ => true
  | .linkPortReset _ => true
  | .linkQuarantine _ => true
  | .linkRelease _ => true
  | .rekey _ => true
  | .read _ h t => h.wellFormed && t.wellFormed
  | .readResp _ h t data => h.wellFormed && t.wellFormed && data.length == t.len
  | .write _ h t data => h.wellFormed && t.wellFormed && data.length == t.len
  | .writeAck _ h t => h.wellFormed && t.wellFormed
  | .coll _ h t data => h.wellFormed && t.wellFormed && data.length == t.len
  | .msg _ h t m => h.wellFormed && t.wellFormed && m.wellFormed
  | .leaseReq _ h t win => h.wellFormed && t.wellFormed && decide (win < 256)
  | .leaseGrant _ h t win leaseUs => h.wellFormed && t.wellFormed && decide (win < 256) && decide (leaseUs < 2 ^ 32)
  | .leaseRenew _ h t wins => h.wellFormed && t.wellFormed && wins.all (fun w => decide (w < 256))
  | .leaseAck _ h t wins => h.wellFormed && t.wellFormed && wins.all (fun w => decide (w < 256))
  | .leaseRelease _ h t win => h.wellFormed && t.wellFormed && decide (win < 256)
  | .leaseRenewTimer grantor => decide (grantor < 2 ^ 15)
  | .leaseExpiry _ chip win => decide (chip < 2 ^ 15) && decide (win < 256)
  | .leaseIdleRelease chip win => decide (chip < 2 ^ 15) && decide (win < 256)
  | .remoteReqTimeout tag => decide (tag < 65536)
  -- Cells, yards and spans
  | .portMap chip _ ports => decide (chip < 2 ^ 15) && ports.length == 8
  | .portMapTimer => true
  | .ptpSync ptp => decide (ptp < 2 ^ 64)
  | .ptpLoss => true
  | .topChipWrite _ => true
  | .spanCheck _ pos ans => decide (pos < 16) && ans.wellFormed
  | .spanCheckTimer _ => true
  | .spanStart _ st => st.wellFormed
  | .spanStop _ _ => true
  | .headUnreachable _ => true
  -- Sweep, Audit, verification and drain
  | .sweepSlotEnd => true
  | .sweepForce => true
  | .sweepStepStart => true
  | .sweepStepDone _ => true
  | .sweepYield => true
  | .auditGo _ => true
  | .auditTestDone _ failed => failed.all (fun x => decide (x < 65536))
  | .auditAbort => true
  | .verifyStart unit => decide (unit < 4096)
  | .verifyDone unit failed => decide (unit < 4096) && failed.all (fun x => decide (x < 65536))
  | .drainLimit => true
  | .drainComplete => true
  -- The Ledger and the Inventory
  | .ledgerEvent src cls code ten sev payload => decide (src < 4096) && decide (cls < 256) && decide (code < 65536) && decide (ten < 128) && decide (sev ≤ 4)
      && payload.length == 42
  | .ledgerSeal => true
  | .coalesceClose src cls code ten => decide (src < 4096) && decide (cls < 256) && decide (code < 65536) && decide (ten < 128)
  | .mirrorCopy => true
  | .hostHeadWrite _ => true
  | .ledgCfgWrite _ => true
  | .inject _ => true
  | .inventoryAudit _ => true
  | .auditInstant wrong => wrong.all (fun b => decide (b.q < 16))
  -- Boot, power and attestation
  | .perst _ hotC => decide (hotC < 256)
  | .bootReady b => b.wellFormed
  | .mainInputRemoved => true
  | .thermalTrip _ => true
  | .d3hotEntry => true
  | .d0Return => true
  | .powerGate unit => decide (unit < 4096)
  | .powerWake unit => decide (unit < 4096)
  | .completionTimeout _ _ _ => true
  | .fwUpdate _ => true
  | .fwUpdateDone r => r.wellFormed
  | .getVersion => true
  | .getCapabilities => true
  | .negotiateAlgorithms => true
  | .getDigests => true
  | .getCertificate slot => decide (slot < 8)
  | .challenge slot => decide (slot < 8)
  | .getMeasurements index => decide (index < 256)
  | .keyExchange session => isSession session
  | .finish session _ => isSession session
  | .keyUpdate session => isSession session
  | .endSession session => isSession session
  | .getRetirement => true
  | .getIdentity => true
  | .pldmSensorRead _ => true
  | .corruptFrame _ _ h => h.wellFormed
  | .powerOn => true
  | .ideKmRequest session op => isSession session && op.wellFormed
  | .boundaryScan _ => true
  | .ratePacedSend _ => true
  | .reservedInstruction _ _ _ => true

end Sys2Proof
end

