-- ==== Sys2Proof/Safety.lean ====
section
/-! DEFINITION. What counts as a safe state, and the terms in which claims are stated: which slot runs, what commits, and
what an effect leaves unchanged. -/

namespace Sys2Proof.Machine

open Sys2Proof

/-! ### Frames -/

/-- Everything outside the islands is unchanged. -/
def State.onlyIsls (s t : State) : Prop := { t with isl := s.isl } = s

/-- Nothing outside island `n` changes. -/
def State.onlyIsl (n : Nat) (s t : State) : Prop := s.onlyIsls t ∧ ∀ m, m ≠ n → t.island m = s.island m

/-- Nothing changes outside slot `k` of island `n` and the island's count of committed instructions. -/
def State.onlySlot (n k : Nat) (s t : State) : Prop :=
  s.onlyIsl n t ∧ { t.island n with slots := (s.island n).slots, instret := (s.island n).instret } = s.island n
    ∧ ∀ j, j ≠ k → t.slot n j = s.slot n j

/-- One island's Shelf: the bytes of a range hold `d`, every other byte reads as before. -/
def Mem.stores (m m' : Mem) (a : Nat) (d : Bytes) : Prop :=
  Mem.read m' a d.length = d ∧ ∀ b, b < a ∨ a + d.length ≤ b → Mem.byte m' b = Mem.byte m b

/-- One range of a poisonable storage now holds `d`, with units of `u` bytes: units rewritten whole are clean, every
other unit is poisoned or clean as before. -/
def Store.stored (u a : Nat) (d : Bytes) (st st' : Store) : Prop :=
  Mem.stores st.mem st'.mem a d ∧ ∀ x, x ∈ st'.poison ↔ x ∈ st.poison ∧ ¬(a ≤ x ∧ x + u ≤ a + d.length)

/-- An event is raised in `s`, and `t` holds it: stamped by its source, and staged (R36, R420). -/
def State.raises (src cls code ten sev : Nat) (words : List Nat) (s t : State) : Prop :=
  t.ledg = (s.emit src cls code ten sev words).ledg ∧ t.clk = (s.emit src cls code ten sev words).clk

/-- The value `v` lands in the bits `mask` of one RWT register of the Attic, and in nothing else of it: the mark that clock
settings differ from what an image gave follows the register (R64). -/
def State.atticTakes (off : Nat) (mask v : Word) (s t : State) : Prop :=
  t.rwtOf t.attic off = (s.rwtOf s.attic off &&& ~~~mask) ||| (v &&& mask)
    ∧ (∀ o, o ≠ off → t.rwtOf t.attic o = s.rwtOf s.attic o)
    ∧ t.attic.dirty = (s.attic.dirty || (decide (0x1000 ≤ off) && decide (off < 0x2000)))
    ∧ { t.attic with rwt := s.attic.rwt, dirty := s.attic.dirty } = s.attic

/-! ### The Steward -/

/-- Slot `k` of island `n` is RUNNING, at a pc from which instructions are fetched (R133). -/
def State.runsAt (s : State) (n k : Nat) : Prop := s.runningSlot n = some k ∧ s.fetchable n (s.slot n k).pc = true

/-- One instruction of the slot commits: the slot becomes `x`, the instruction counts, nothing else changes. -/
def State.commits (n k : Nat) (x : Slot) (s t : State) : Prop :=
  t.slot n k = x ∧ (t.island n).instret = ((s.island n).instret + 1) % 2 ^ 64 ∧ s.onlySlot n k t

/-- The slot after an instruction that writes `v` to register `rd`: g0 discards it (R135). -/
def Slot.after (x : Slot) (rd : Nat) (v : Word) : Slot := { x.setReg rd v with pc := x.pc + 4 }

/-- A branch condition on two registers, as Table 7-3 and R137 give it. -/
def condTaken (c : Cond) (a b : Word) : Prop :=
  match c with
  | .eq => a = b
  | .ne => a ≠ b
  | .lt => a.toInt < b.toInt
  | .ge => b.toInt ≤ a.toInt
  | .ltu => a.toNat < b.toNat
  | .geu => b.toNat ≤ a.toNat

/-- Bit `i` of the TASK word of a frame comes from the task's queue, room, tenant and session (Table 7-7). -/
def State.frameTask (s : State) (n k : Nat) : Nat :=
  match s.task? (s.slot n k).task with
  | some t => t.queue % 2 ^ 17 + t.room % 64 * 2 ^ 17 + t.tenant % 64 * 2 ^ 23 + dSession t.ent.raw * 2 ^ 32
  | none => 0

/-- sp can take a frame (R149): its 64 bytes lie in the stack window, aligned, under no overlay, and none of their
words carries poison. -/
def State.spValid (s : State) (n k : Nat) : Prop :=
  let x := s.slot n k
  let sp := (x.getReg 30).toNat
  s.stackLo n k + 64 ≤ sp ∧ sp ≤ s.stackHi n k ∧ sp % 64 = 0
    ∧ (∀ m ∈ x.maps, sp ≤ m.2 ∨ m.2 + 4096 + 64 ≤ sp)
    ∧ ∀ u ∈ (s.island n).shelf.poison, ∀ i < 8, u ≠ sp - 64 + 8 * i

/-- The frame of Table 7-7, as the eight words pushed: the fault-frame additions are 0. -/
def State.frameWords (s : State) (n k code epc tval : Nat) : List Nat :=
  let x := s.slot n k
  [epc, code + b2n x.inHandler * 256 + k * 4096, tval, (x.getReg 30).toNat, (x.getReg 31).toNat, s.frameTask n k,
   s.view (0x10 + n), (wordOf 16 x.full.contains).toNat]

/-- A handler-group cause is taken (R148): the frame lies at sp − 64, sp has moved down to it, the slot is in its
handler, the entry is counted, `c` says whether the instruction itself committed, and nothing else has changed. -/
def State.entersHandler (s : State) (n k code epc tval : Nat) (c : Bool) (t : State) : Prop :=
  let x := s.slot n k
  let sp := x.getReg 30 - 64
  t.slot n k = { x.setReg 30 sp with inHandler := true, pc := x.evec.toNat }
    ∧ Store.stored wordB sp.toNat ((s.frameWords n k code epc tval).flatMap (le 8)) (s.island n).shelf (t.island n).shelf
    ∧ (t.island n).excHandled = ((s.island n).excHandled + 1) % 2 ^ 32
    ∧ (t.island n).instret = (if c then ((s.island n).instret + 1) % 2 ^ 64 else (s.island n).instret)
    ∧ { t.island n with slots := (s.island n).slots, shelf := (s.island n).shelf, excHandled := (s.island n).excHandled,
                        instret := (s.island n).instret } = s.island n
    ∧ s.onlyIsl n t ∧ ∀ j, j ≠ k → t.slot n j = s.slot n j

/-- The slot can enter its handler: it is not in it, it has one, and sp is valid. -/
def State.handles (s : State) (n k : Nat) : Prop :=
  (s.slot n k).inHandler = false ∧ (s.slot n k).evec ≠ 0 ∧ s.spValid n k

/-! ### DMA and tasks -/

/-- Data with poisoned parts `bad` (offset and length) now lie at `a`: the bytes are `d`, units of `u` bytes that a
poisoned part touches are poisoned, other units rewritten whole are clean, everything else is as before. -/
def Store.landed (u a : Nat) (d : Bytes) (bad : List (Nat × Nat)) (st st' : Store) : Prop :=
  Mem.stores st.mem st'.mem a d
    ∧ ∀ x, x ∈ st'.poison ↔ (x ∈ st.poison ∧ ¬(a ≤ x ∧ x + u ≤ a + d.length))
        ∨ ∃ b ∈ bad, x ∈ unitsOf u (a + b.1) (min b.2 (d.length - b.1))

/-- Slot `k` of island `n` issues request `d` under tag `g`: rd holds the tag, the slot holds the request, the
instruction commits, the island's commit order moves on, one free value is drawn, and nothing else changes. -/
def State.issues (n k rd g : Nat) (d : Dma) (s t : State) : Prop :=
  let x := s.slot n k
  t.slot n k = { (x.setReg rd (BitVec.ofNat 64 g)) with pc := x.pc + 4, tags := NMap.set x.tags g d }
    ∧ (∀ j, j ≠ k → t.slot n j = s.slot n j)
    ∧ (t.island n).instret = ((s.island n).instret + 1) % 2 ^ 64 ∧ (t.island n).ord = (s.island n).ord + 1
    ∧ t.free = s.free + 1 ∧ { t with isl := s.isl, free := s.free } = s ∧ (∀ m, m ≠ n → t.island m = s.island m)
    ∧ { t.island n with slots := (s.island n).slots, instret := (s.island n).instret, ord := (s.island n).ord } = s.island n

/-- No tied transfer of the slot waits in the DMA unit (R256). -/
def State.noneWaits (s : State) (n k : Nat) : Prop := ∀ e ∈ (s.slot n k).tags, e.2.waits = false

/-- A request that is out: it has not completed, no response of it is held, and no packet that serves it is lost (R32, R295). -/
def Dma.isOut (d : Dma) : Prop := d.done = false ∧ d.held = none ∧ d.lost = false

/-- Tag `g` of the slot completes, with or without an error; nothing else of the slots changes. -/
def State.tagCompletes (n k g : Nat) (err : Bool) (s t : State) : Prop :=
  (∀ d, s.tag? n k g = some d → t.tag? n k g = some { d with done := true, err := err && !d.drop, held := none })
    ∧ (∀ j, j ≠ g → t.tag? n k j = s.tag? n k j)
    ∧ { t.slot n k with tags := (s.slot n k).tags } = s.slot n k ∧ ∀ j, j ≠ k → t.slot n j = s.slot n j

/-- The slot is stopped or ended by a task's end where it was READY, RUNNING or WAITING. -/
def SlotSt.live (x : SlotSt) : Prop := x = .ready ∨ x = .running ∨ x = .waiting

/-! ### Crates, the Grid and the vector engine -/

/-- The state of an island apart from its slots, counted instructions and commit order is unchanged but for `f`, which
puts back what changed; nothing outside the island changes, and no slot but `k`. -/
def State.onlyUnit (n k : Nat) (f : Isl → Isl) (s t : State) : Prop :=
  s.onlyIsl n t ∧ (∀ j, j ≠ k → t.slot n j = s.slot n j)
    ∧ { f (t.island n) with slots := (s.island n).slots, instret := (s.island n).instret, ord := (s.island n).ord } = s.island n

/-- `x` is the next transfer of its slot to complete: it has not completed, the slot's other transfers came later and have not
either, and the queue lists no transfer that is over and no other of its commit order. -/
def Isl.xferNext (i : Isl) (x : Xfer) : Prop :=
  x ∈ i.xfers ∧ x.done = false ∧ ∀ y ∈ i.xfers, y ≠ x →
    y.ord ≠ x.ord ∧ ¬(y.done = true ∧ y.moved = true) ∧ (y.slot = x.slot → x.ord < y.ord ∧ y.done = false)

/-- No earlier Grid operation of the slot shares a row with the transfer that one of them writes, and a load has no earlier
vector program before it (R169, R221). -/
def Isl.xferFree (i : Isl) (x : Xfer) : Prop :=
  (∀ g ∈ i.grid, g.slot = x.slot → g.ord < x.ord → x.clashes g = false)
    ∧ (x.store = false → ∀ v ∈ i.vec, v.slot = x.slot → x.ord ≤ v.ord)

/-- The running program's instruction ends in the program `v'`, in so many cycles, with the flags `w` in the layout of
R213, in a room that traps none: the program stands at its next instruction, the flags stick in the slot, in its task
and in the island, and nothing else changes. -/
def State.vecSteps (n : Nat) (v v' : VecOp) (cycles : Nat) (w : Word) (s t : State) : Prop :=
  (t.island n).vec = (s.island n).vec.map (fun u =>
      if u.ord = v'.ord then { v' with pc := v'.pc + 1, full := u.full } else u)
    ∧ (t.island n).vecCycles = ((s.island n).vecCycles + cycles) % 2 ^ 64
    ∧ (t.island n).nflags = (s.island n).nflags ||| w
    ∧ t.slot n v.slot = { s.slot n v.slot with nflags := (s.slot n v.slot).nflags ||| w }
    ∧ (∀ tk, s.task? (s.slot n v.slot).task = some tk →
        t.task? (s.slot n v.slot).task = some { tk with nflags := tk.nflags ||| w })
    ∧ (∀ j, j ≠ (s.slot n v.slot).task → t.task? j = s.task? j)
    ∧ (∀ j, j ≠ v.slot → t.slot n j = s.slot n j)
    ∧ (∀ m, m ≠ n → t.island m = s.island m)
    ∧ { t with isl := s.isl, tasks := s.tasks } = s
    ∧ { t.island n with slots := (s.island n).slots, vec := (s.island n).vec, vecCycles := (s.island n).vecCycles,
                        nflags := (s.island n).nflags } = s.island n

/-- The head program of the island runs `v` for the live task `tk`, stands in the pinned region and within its 4,096
instructions, and its room traps no flag. -/
def State.vecRuns (s : State) (n : Nat) (v : VecOp) (tk : Task) : Prop :=
  s.vecProg n = some (v, tk) ∧ v.at_ + 8 ≤ s.pin n ∧ v.pc < 4095 ∧ (s.numeric tk.room).traps = 0

/-- Lanes 0 to 127 of a register from a function of the lane number, and the flags of all lanes together. -/
def lanesOf (f : Nat → Nat × Flags) : List Nat × Flags :=
  ((List.range 128).map (fun l => (f l).1), (List.range 128).foldl (fun a l => a ||| (f l).2) 0)

/-! ### Instruction words (Tables 7-3, 7-4, 8-3, 11-1 and 11-3; R137, R166, R216) -/

def condNum : Cond → Nat
  | .eq => 0 | .ne => 1 | .lt => 2 | .ge => 3 | .ltu => 4 | .geu => 5

/-- The word of a Steward instruction, with its island: class in bits 31 to 28, then the fields of its form. -/
def stewEncode : Instr → Option (IslN × Nat)
  | .add n rd a b => some (n, wR 0 rd.val a.val b.val 0)
  | .sub n rd a b => some (n, wR 0 rd.val a.val b.val 1)
  | .andR n rd a b => some (n, wR 0 rd.val a.val b.val 2)
  | .orR n rd a b => some (n, wR 0 rd.val a.val b.val 3)
  | .xorR n rd a b => some (n, wR 0 rd.val a.val b.val 4)
  | .sll n rd a b => some (n, wR 0 rd.val a.val b.val 5)
  | .srl n rd a b => some (n, wR 0 rd.val a.val b.val 6)
  | .sra n rd a b => some (n, wR 0 rd.val a.val b.val 7)
  | .slt n rd a b => some (n, wR 0 rd.val a.val b.val 8)
  | .sltu n rd a b => some (n, wR 0 rd.val a.val b.val 9)
  | .mul n rd a b => some (n, wR 0 rd.val a.val b.val 10)
  | .mulh n rd a b => some (n, wR 0 rd.val a.val b.val 11)
  | .minR n rd a b => some (n, wR 0 rd.val a.val b.val 12)
  | .maxR n rd a b => some (n, wR 0 rd.val a.val b.val 13)
  | .addi n rd a i => some (n, wI 1 rd.val a.val 0 i)
  | .andi n rd a i => some (n, wI 1 rd.val a.val 1 i)
  | .ori n rd a i => some (n, wI 1 rd.val a.val 2 i)
  | .xori n rd a i => some (n, wI 1 rd.val a.val 3 i)
  | .slli n rd a i => some (n, wI 1 rd.val a.val 4 i)
  | .srli n rd a i => some (n, wI 1 rd.val a.val 5 i)
  | .srai n rd a i => some (n, wI 1 rd.val a.val 6 i)
  | .slti n rd a i => some (n, wI 1 rd.val a.val 7 i)
  | .lui n rd i => some (n, 2 * 2 ^ 28 + rd.val * 2 ^ 23 + i.toNat)
  | .lb n rd a i => some (n, wI 3 rd.val a.val 0 i)
  | .lh n rd a i => some (n, wI 3 rd.val a.val 1 i)
  | .lw n rd a i => some (n, wI 3 rd.val a.val 2 i)
  | .ld n rd a i => some (n, wI 3 rd.val a.val 3 i)
  | .lbu n rd a i => some (n, wI 3 rd.val a.val 4 i)
  | .lhu n rd a i => some (n, wI 3 rd.val a.val 5 i)
  | .lwu n rd a i => some (n, wI 3 rd.val a.val 6 i)
  | .sb n d a i => some (n, wI 4 d.val a.val 0 i)
  | .sh n d a i => some (n, wI 4 d.val a.val 1 i)
  | .sw n d a i => some (n, wI 4 d.val a.val 2 i)
  | .sd n d a i => some (n, wI 4 d.val a.val 3 i)
  | .branch n c a b i => some (n, wI 5 a.val b.val (condNum c) i)
  | .jal n rd i => some (n, 6 * 2 ^ 28 + rd.val * 2 ^ 23 + i.toNat)
  | .jalr n rd a i => some (n, wI 7 rd.val a.val 0 i)
  | .csrr n rd c => some (n, wR 8 rd.val 0 0 (c.toNat * 16))
  | .csrw n c a => some (n, wR 8 0 a.val 0 (c.toNat * 16 + 1))
  | .wait n a => some (n, wR 8 0 a.val 0 2)
  | .trap n a => some (n, wR 8 0 a.val 0 3)
  | .exit n a => some (n, wR 8 0 a.val 0 4)
  | .eret n => some (n, wR 8 0 0 0 5)
  | .fence n => some (n, wR 8 0 0 0 6)
  | .dmaRd n rd a => some (n, wR 9 rd.val a.val 0 0)
  | .dmaWr n rd a => some (n, wR 9 rd.val a.val 0 1)
  | .dmaWaittag n a => some (n, wR 9 0 a.val 0 2)
  | .crateLoad n c a b p => some (n, wR 10 c.val a.val b.val (8 * b2n p))
  | .crateStore n c a b p => some (n, wR 10 c.val a.val b.val (1 + 8 * b2n p))
  | .crateZero n c => some (n, wR 10 c.val 0 0 2)
  | .crateRelease n c => some (n, wR 10 c.val 0 0 3)
  | .crateMap n c a => some (n, wR 10 c.val a.val 0 4)
  | .crateUnmap n c => some (n, wR 10 c.val 0 0 5)
  | .gridFmt n a => some (n, wR 11 0 a.val 0 0)
  | .gridMm n a => some (n, wR 11 0 a.val 0 1)
  | .gridMma n a => some (n, wR 11 0 a.val 0 2)
  | .vecRun n a b => some (n, wR 12 0 a.val b.val 0)
  | .vecSync n => some (n, wR 12 0 0 0 1)
  | _ => none

/-- The fields of a vector instruction word with an OP (Table 11-1). -/
def vecBits (op : Nat) (f : VFields) : Nat :=
  op + f.vd.val * 2 ^ 8 + f.va.val * 2 ^ 13 + f.vb.val * 2 ^ 18 + f.vc.val * 2 ^ 23 + f.fmt.val * 2 ^ 28 + f.p.val * 2 ^ 33
    + f.imm.toNat * 2 ^ 40

/-- The word of a vector instruction, with its island. -/
def vecEncode : Instr → Option (IslN × Nat)
  | .vend n f => some (n, vecBits 0x00 f)
  | .vnop n f => some (n, vecBits 0x01 f)
  | .vaddp n f => some (n, vecBits 0x02 f)
  | .vld n f => some (n, vecBits 0x08 f)
  | .vldi n f => some (n, vecBits 0x09 f)
  | .vldw n f => some (n, vecBits 0x0A f)
  | .vst n f => some (n, vecBits 0x0B f)
  | .vsti n f => some (n, vecBits 0x0C f)
  | .vstw n f => some (n, vecBits 0x0D f)
  | .vadd n f => some (n, vecBits 0x10 f)
  | .vsub n f => some (n, vecBits 0x11 f)
  | .vmul n f => some (n, vecBits 0x12 f)
  | .vfma n f => some (n, vecBits 0x13 f)
  | .vmax n f => some (n, vecBits 0x14 f)
  | .vmin n f => some (n, vecBits 0x15 f)
  | .vabs n f => some (n, vecBits 0x16 f)
  | .vneg n f => some (n, vecBits 0x17 f)
  | .vcmplt n f => some (n, vecBits 0x18 f)
  | .vsel n f => some (n, vecBits 0x19 f)
  | .vbcast n f => some (n, vecBits 0x1A f)
  | .vcvtif n f => some (n, vecBits 0x1B f)
  | .vcvtfi n f => some (n, vecBits 0x1C f)
  | .viadd n f => some (n, vecBits 0x20 f)
  | .visub n f => some (n, vecBits 0x21 f)
  | .vimul n f => some (n, vecBits 0x22 f)
  | .vand n f => some (n, vecBits 0x23 f)
  | .vor n f => some (n, vecBits 0x24 f)
  | .vxor n f => some (n, vecBits 0x25 f)
  | .vshl n f => some (n, vecBits 0x26 f)
  | .vshrl n f => some (n, vecBits 0x27 f)
  | .vshra n f => some (n, vecBits 0x28 f)
  | .vimin n f => some (n, vecBits 0x29 f)
  | .vimax n f => some (n, vecBits 0x2A f)
  | .vimm n f => some (n, vecBits 0x2B f)
  | .vaddw n f => some (n, vecBits 0x30 f)
  | .vcvtfw n f => some (n, vecBits 0x31 f)
  | .vsfu n f => some (n, vecBits 0x40 f)
  | .vgate n f => some (n, vecBits 0x41 f)
  | .vrmax n f => some (n, vecBits 0x50 f)
  | .vrsum n f => some (n, vecBits 0x51 f)
  | .vrsexp n f => some (n, vecBits 0x52 f)
  | .vrmean n f => some (n, vecBits 0x53 f)
  | .vrvar n f => some (n, vecBits 0x54 f)
  | .vrms n f => some (n, vecBits 0x55 f)
  | .vtree n f => some (n, vecBits 0x58 f)
  | .vsdot n f => some (n, vecBits 0x60 f)
  | .vdw n f => some (n, vecBits 0x70 f)
  | _ => none

/-! ### The Hatch -/

/-- No start message of a span waits at this device (R380). -/
def State.noStartWaits (s : State) : Prop := ∀ m, (s.spanRt m).waits = []

/-- Rooms of `rooms` that were HELD start tasks again, unless a quiesce or D3hot holds every room; no other state of a
room changes (Table 5-2). -/
def State.resumes (rooms : Word) (s t : State) : Prop :=
  ∀ m, t.room m = if bitOf rooms m = true ∧ (s.room m).st = .held ∧ s.txn.quiesce = false ∧ s.plat.power ≠ .d3hot
    then { s.room m with st := .serving } else s.room m

/-- Rooms of `rooms` that were SERVING are HELD; no other state of a room changes. -/
def State.holds (rooms : Word) (s t : State) : Prop :=
  ∀ m, t.room m = if bitOf rooms m = true ∧ (s.room m).st = .serving then { s.room m with st := .held } else s.room m

/-- The Hatch in progress, whose commit is of the scope `sc`, has aborted with a result: the commit is open again, the
resources that were not ready are recorded, the affected rooms resume and an event tells it; both sets stay (R84, R88). -/
def State.hatchAborts (sc result failed : Nat) (s t : State) : Prop :=
  t.txn.hatch.st = .idle ∧ t.txn.hatch.result = result ∧ t.txn.hatch.blockIsl = s.blockers.1
    ∧ t.txn.hatch.blockEng = s.blockers.2 ||| packW [(32, 16, failed)]
    ∧ t.txnAt sc = { s.txnAt sc with st := .opened, result := result, detail := 0, lastGtc := s.clk.gtc }
    ∧ s.resumes s.txn.hatch.rooms t ∧ s.raises 0xA0 1 2 (s.scopeTenant sc) 2 [0xA0] t
    ∧ { t with txn := s.txn, ten := s.ten, ledg := s.ledg, clk := s.clk } = s

/-! ### Links -/

/-- A port has left its link: it holds no frame and no lane, and the Ledger is as `l` says. -/
def State.portLeft (p : Nat) (st : PortSt) (l : Ledger) (t : State) : Prop :=
  (t.port p).st = st ∧ (t.port p).lanesUp = 0 ∧ (t.port p).retry = [] ∧ (t.port p).wait = [] ∧ t.ledg = l

/-- A port enters QUARANTINED with a cause: its frames leave it, leases through it are revoked, an event tells it. -/
def State.portQuarantined (p cause : Nat) (s t : State) : Prop :=
  t.portLeft p .quarantined (s.emit (0x70 + p) 6 3 noTenant 3 [cause]).ledg ∧ (t.port p).qcause = cause
    ∧ (∀ l ∈ t.link.granted, l.port ≠ p) ∧ (∀ l ∈ t.link.held, l.port ≠ p)

/-- Entries to DOWN of a port that is live, within the last second and with one now (R349). -/
def State.downsNow (s : State) (p : Nat) : List Nat :=
  if (s.port p).live then (s.port p).downs.filter (fun g => decide (s.clk.gtc < g + 1000000000)) ++ [s.clk.gtc] else (s.port p).downs

/-- A port goes DOWN with a cause; from PROBATION or UP more often within 1 s than LINK_n_CFG allows, it is QUARANTINED
with cause 4 instead (R349). -/
def State.portDowned (p cause : Nat) (s t : State) : Prop :=
  if (s.port p).live = true ∧ fld (s.rwt (offLinkCfg p)) 24 4 < (s.downsNow p).length then s.portQuarantined p 4 t
  else t.portLeft p .down (s.emit (0x70 + p) 6 2 noTenant 2 [cause]).ledg ∧ (t.port p).dcause = cause

/-- A violation of a kind is counted and told, and takes a live port to QUARANTINED at the limits of R352: four TAG
violations in a row, or as many of all kinds within 1 ms as LINK_n_CFG says. -/
def State.violated (p kind : Nat) (s t : State) : Prop :=
  let l := s.port p
  let recent := (l.violAt.filter (fun g => decide (s.clk.gtc < g + 1000000))).length + 1
  let over1 := kind = 4 ∧ 4 ≤ l.tagRun + 1
  let over2 := fld (s.rwt (offLinkCfg p)) 16 8 ≤ recent
  (t.port p).viol = setAt l.viol kind (sat1 8 ((l.viol[kind]?).getD 0))
    ∧ (l.live = true → over1 → (t.port p).st = .quarantined ∧ (t.port p).qcause = 2)
    ∧ (l.live = true → ¬over1 → over2 → (t.port p).st = .quarantined ∧ (t.port p).qcause = 1)
    ∧ ((l.live = true → ¬over1 ∧ ¬over2) → (t.port p).st = l.st ∧ t.ledg = (s.emit (0x70 + p) 6 1 noTenant 2 [p, kind]).ledg)

/-- A frame for a chip is on its way from this device: it waits without a route, or at its port behind its channel, or
has left under the port's next SEQ; nothing else changes (R343, R344, R346, R362, R368). -/
def State.carries (dst poison : Nat) (c : Carry) (s t : State) : Prop :=
  let h : Held := { seq := 0, vc := 0, nblk := c.blocks, poison := poison, ctr := 0, replays := 0, dst := dst, cost := c.cost,
                    task := none, via := none, what := c }
  { t with link := s.link, out := s.out } = s ∧ { t.link with ports := s.link.ports, stranded := s.link.stranded } = s.link
    ∧ match s.routeTo dst with
      | none => t.link = { s.link with stranded := s.link.stranded ++ [h] } ∧ t.out = s.out
      | some (q, dist) =>
        let h := { h with vc := 4 * opClass c.opc + dist }
        let l := s.port q
        t.link.stranded = s.link.stranded ∧ (∀ j, j ≠ q → t.port j = s.port j)
          ∧ if (∀ w ∈ l.wait, w.vc ≠ h.vc) ∧ s.canSend q h = true then
              (t.port q).retry = l.retry ++ [{ h with seq := l.txSeq, ctr := l.txCtr }] ∧ (t.port q).txSeq = (l.txSeq + 1) % 4096
                ∧ (t.port q).wait = l.wait
                ∧ NMap.getD (t.port q).credits h.vc 0 = NMap.getD l.credits h.vc 0 - (h.nblk + 1)
                ∧ t.out = { s.out with msgs := s.out.msgs ++
                    [.frame q 1 (l.hdr h.vc l.txSeq h.nblk poison ((s.linkPol q).protect == 1) 0 0) (some c)] }
            else t.port q = { l with wait := l.wait ++ [h] } ∧ t.out = s.out

/-- Messages to chips are on their way, in order. -/
def State.carriesAll : List (Nat × LMsg) → State → State → Prop
  | [], s, t => t = s
  | (d, m) :: r, s, t => ∃ v, s.carries d 0 (.msg (s.msgHdr d 0) m) v ∧ State.carriesAll r v t

/-- A data frame that its port takes: UP, of its epoch, in sequence, well formed, with room in the receive buffer, no
credits with it and nothing waiting at the port (R342–R346). -/
def State.takesFrame (s : State) (p : Nat) (h : LHdr) : Prop :=
  let l := s.port p
  l.st = .up ∧ h.epoch = l.epoch % 256 ∧ h.seq = l.rxSeq ∧ h.nblk ≤ 8 ∧ h.vc < 16 ∧ h.prot = ((s.linkPol p).protect == 1)
    ∧ h.crcnt = 0 ∧ l.wait = [] ∧ NMap.getD l.rxUsed h.vc 0 + h.nblk + 1 ≤ ownPool

/-- The state once the port has taken the frame: acknowledged frames have left the retry buffer, the next SEQ is
expected, and the credits of its blocks have gone back. -/
def State.tookFrame (s : State) (p : Nat) (h : LHdr) : State :=
  ((s.takeHdr p h).modPort p (fun l =>
    { l with rxSeq := (l.rxSeq + 1) % 4096, tagRun := 0, rxBlocks := (l.rxBlocks + h.nblk) % 2 ^ 32
             rxUsed := NMap.upd l.rxUsed h.vc 0 (· + (h.nblk + 1)) })).freeBlocks p h.vc (h.nblk + 1)

/-- An end-to-end number of a source is new: ahead of the highest, or within 4,096 behind it and not seen (R353). -/
def State.e2eNew (s : State) (src n : Nat) : Prop :=
  ∀ e, NMap.find? s.link.rxE2e src = some e →
    (0 < (n + 2 ^ 32 - e.high) % 2 ^ 32 ∧ (n + 2 ^ 32 - e.high) % 2 ^ 32 < 2 ^ 31)
      ∨ ((e.high + 2 ^ 32 - n) % 2 ^ 32 < 4096 ∧ n ∉ e.seen)

/-- An end-to-end number of a source has been seen (R353). -/
def State.e2eSeen (s : State) (src n : Nat) : Prop :=
  ∃ e, NMap.find? s.link.rxE2e src = some e ∧ n ∈ e.seen ∧ (e.high + 2 ^ 32 - n) % 2 ^ 32 < 4096
    ∧ ¬(0 < (n + 2 ^ 32 - e.high) % 2 ^ 32 ∧ (n + 2 ^ 32 - e.high) % 2 ^ 32 < 2 ^ 31)

/-! ### Units under RAS -/

/-- The unit `u`, as `x` before, has taken a margin step of its room's kind; or, at its limit, it is FAILED, waits for its
retirement entry, and the device drains: no queue holds a waiting descriptor (R400, R401, R403). -/
def State.marginTaken (u : Nat) (x : UnitRt) (s t : State) : Prop :=
  let rule := s.marginRule u
  let limit := rule.2 ≤ x.vstep + x.cstep ∨ 4 ≤ (if rule.1 then x.cstep else x.vstep)
  (limit → t.unit u = { x with health := .failed } ∧ t.ras.toRetire = s.ras.toRetire ++ [(u, s.view 0)]
      ∧ (s.ras.drain = 0 → t.ras.drain = 1 ∧ t.ras.drainAt = s.view 0 ∧ t.ras.stopped = 0 ∧ ∀ q, (t.queue q).waiting = []))
    ∧ (¬limit → t.unit u = (if rule.1 then { x with cstep := x.cstep + 1 } else { x with vstep := x.vstep + 1 })
      ∧ t.ras.drain = s.ras.drain ∧ t.ras.toRetire = s.ras.toRetire)

/-- A healthy unit after an event of Table 18-4 at a GTC; any other unit is as it was. -/
def UnitRt.suspected (x : UnitRt) (cause now : Nat) : UnitRt :=
  if x.health = .healthy then
    { x with health := .suspect, cause := cause, firstCause := if x.firstCause = 0 then cause else x.firstCause,
             suspicions := sat1 16 x.suspicions, since := now }
  else x

/-! ### The whole device -/

/-- The thermal factor lies in its range (R447). -/
def State.throttleOk (s : State) : Prop := 8 ≤ s.plat.k ∧ s.plat.k ≤ 32

/-- All state is at its reset value but what the fuses, the flash, the auxiliary domain and the retirement record hold:
what every loss of the main domain leaves (R101, R406, Table 5-6). The queue of waiting commands and what has left the
device are no state of the main domain. -/
def State.mainLost (s t : State) : Prop :=
  { t with pending := s.pending, ident := s.ident, out := s.out, free := s.free, ras := s.ras, plat := s.plat }
      = { State.reset with pending := s.pending, ident := s.ident, out := s.out, free := s.free, ras := s.ras, plat := s.plat }
    ∧ t.pending = s.pending ∧ t.ident = s.ident ∧ t.out = s.out ∧ t.ras.record = s.ras.record
    ∧ t.ras.drain = (if 8 ≤ s.ras.record.length then 2 else 0)
    ∧ t.plat.keys = s.plat.keys ∧ t.plat.svnFuse = s.plat.svnFuse ∧ t.plat.imgs = s.plat.imgs ∧ t.plat.next = s.plat.next
    ∧ t.plat.pcieCfg = s.plat.pcieCfg ∧ t.plat.pcieNow = s.plat.pcieCfg ∧ t.plat.fusePending = none
    ∧ t.plat.ready = false ∧ t.plat.stage = 0 ∧ t.plat.k = 32

/-- A reply leaves the device; nothing else changes. -/
def State.replies (m : OutMsg) (s t : State) : Prop :=
  t.out = { s.out with msgs := s.out.msgs ++ [m] } ∧ { t with out := s.out } = s

end Sys2Proof.Machine
end

