-- ==== Sys2Proof/Certificates/Slice0/Obligations.lean ====
section
/-! DEFINITION. The statements for the provers, family by family: what each command does when its conditions hold, what
it leaves unchanged, and what every step keeps. -/

open Sys2Proof Sys2Proof.Machine

/-- A general register reads back what was last written to it, and g0 reads as zero whatever is written (R135). For
every slot, register r, value v and register j: after writing v to r, reading j gives 0 where j is g0, v where j is r,
and otherwise what j held before. -/
def Obligations.RegisterReadsBackWhatWasWritten : Prop :=
  ∀ (x : Slot) (r j : Nat) (v : Word), (x.setReg r v).getReg j = if j = 0 then 0 else if j = r then v else x.getReg j

/-- Each of the 14 ALU instructions commits, writes its result to rd and changes nothing else (R135, R137 (ALU),
R138). For ADD, SUB, AND, OR, XOR, SLL, SRL, SRA, SLT, SLTU, MUL, MULH, MIN and MAX, in every state in which a slot of
the island runs at a pc it may fetch from, and for all registers: exec answers a next state in which the slot holds in
rd the result that R137 gives (a write to g0 is discarded), its pc is 4 further, the island's instruction count is one
more, and nothing else of the machine has changed. (Where the spec leaves a point open the statement takes the model's
choice: log entry 42.) It concludes that these commands answer a next state: add, sub, andR, orR, xorR, sll, srl, sra,
slt, sltu, mul, mulh, minR, maxR. -/
def Obligations.AluInstructionsWriteRd : Prop :=
  let does := fun (c : IslN → Reg → Reg → Reg → Instr) (f : Word → Word → Word) =>
    ∀ (s : State) (n : IslN) (k : Nat) (rd rs1 rs2 : Reg), s.runsAt n k →
      ∃ t, exec (c n rd rs1 rs2) s = .next t
        ∧ s.commits n k ((s.slot n k).after rd (f (s.greg n k rs1) (s.greg n k rs2))) t
  does .add (fun a b => BitVec.ofNat 64 (a.toNat + b.toNat))
    ∧ does .sub (fun a b => BitVec.ofInt 64 (a.toInt - b.toInt))
    ∧ does .andR (fun a b => a &&& b) ∧ does .orR (fun a b => a ||| b) ∧ does .xorR (fun a b => a ^^^ b)
    ∧ does .sll (fun a b => BitVec.ofNat 64 (a.toNat * 2 ^ (b.toNat % 64)))
    ∧ does .srl (fun a b => BitVec.ofNat 64 (a.toNat / 2 ^ (b.toNat % 64)))
    ∧ does .sra (fun a b => BitVec.ofInt 64 (a.toInt / 2 ^ (b.toNat % 64)))
    ∧ does .slt (fun a b => if a.toInt < b.toInt then 1 else 0)
    ∧ does .sltu (fun a b => if a.toNat < b.toNat then 1 else 0)
    ∧ does .mul (fun a b => BitVec.ofNat 64 (a.toNat * b.toNat))
    ∧ does .mulh (fun a b => BitVec.ofInt 64 (a.toInt * b.toInt / 2 ^ 64))
    ∧ does .minR (fun a b => if b.toInt < a.toInt then b else a)
    ∧ does .maxR (fun a b => if a.toInt < b.toInt then b else a)

/-- Each ALU-I instruction and LUI commits, writes its result to rd and changes nothing else (R135, R137 (ALU-I and
LUI), R138). For ADDI, ANDI, ORI, XORI and SLTI with every immediate, for SLLI, SRLI and SRAI with every immediate
whose bits 14 to 6 are zero, and for LUI: exec answers a next state in which rd holds the result that R137 gives on
the sign-extended immediate (the shifts: on its low six bits), the pc is 4 further, one instruction more is counted,
and nothing else has changed. (Where the spec leaves a point open the statement takes the model's choice: log entry
42.) It concludes that these commands answer a next state: addi, andi, ori, xori, slli, srli, srai, slti, lui. -/
def Obligations.ImmediateInstructionsWriteRd : Prop :=
  let does := fun (c : IslN → Reg → Reg → Imm15 → Instr) (ok : Imm15 → Prop) (f : Word → Imm15 → Word) =>
    ∀ (s : State) (n : IslN) (k : Nat) (rd rs1 : Reg) (imm : Imm15), s.runsAt n k → ok imm →
      ∃ t, exec (c n rd rs1 imm) s = .next t ∧ s.commits n k ((s.slot n k).after rd (f (s.greg n k rs1) imm)) t
  does .addi (fun _ => True) (fun a i => BitVec.ofInt 64 (a.toInt + i.toInt))
    ∧ does .andi (fun _ => True) (fun a i => a &&& BitVec.ofInt 64 i.toInt)
    ∧ does .ori (fun _ => True) (fun a i => a ||| BitVec.ofInt 64 i.toInt)
    ∧ does .xori (fun _ => True) (fun a i => a ^^^ BitVec.ofInt 64 i.toInt)
    ∧ does .slti (fun _ => True) (fun a i => if a.toInt < i.toInt then 1 else 0)
    ∧ does .slli (fun i => i.toNat < 64) (fun a i => BitVec.ofNat 64 (a.toNat * 2 ^ i.toNat))
    ∧ does .srli (fun i => i.toNat < 64) (fun a i => BitVec.ofNat 64 (a.toNat / 2 ^ i.toNat))
    ∧ does .srai (fun i => i.toNat < 64) (fun a i => BitVec.ofInt 64 (a.toInt / 2 ^ i.toNat))
    ∧ ∀ (s : State) (n : IslN) (k : Nat) (rd : Reg) (imm : Imm23), s.runsAt n k →
        ∃ t, exec (.lui n rd imm) s = .next t
          ∧ s.commits n k ((s.slot n k).after rd (BitVec.ofInt 64 (imm.toInt * 2 ^ 15))) t

/-- Each load reads its bytes from the Shelf, or from the crate overlaid on its page, and extends them (R133, R134,
R137 (LOAD), Table 7-1). For LB, LH, LW, LD, LBU, LHU and LWU at a naturally aligned address within the task's load
access: where no overlay covers the address and none of its words carries poison, rd gets the Shelf's bytes, sign- or
zero-extended; where an overlay covers it and the slot's crates are in place, rd gets the bytes of that crate. The pc
is 4 further, one instruction more is counted, and nothing else has changed: every byte of memory reads as before.
(Where the spec leaves a point open the statement takes the model's choice: log entries 13, 42.) It concludes that
these commands answer a next state: lb, lh, lw, ld, lbu, lhu, lwu. -/
def Obligations.LoadsReadShelfOrOverlay : Prop :=
  let does := fun (c : IslN → Reg → Reg → Imm15 → Instr) (size : Nat) (ext : Nat → Word) =>
    ∀ (s : State) (n : IslN) (k : Nat) (rd rs1 : Reg) (imm : Imm15), s.runsAt n k →
      let a := (s.greg n k rs1 + BitVec.ofInt 64 imm.toInt).toNat
      a % size = 0 → s.canLoad n k a size = true →
      ((s.slot n k).overlay a = none → (s.island n).shelf.poisonIn wordB a size = none →
        ∃ t, exec (c n rd rs1 imm) s = .next t
          ∧ s.commits n k ((s.slot n k).after rd (ext (unle (Mem.read (s.island n).shelf.mem a size)))) t)
      ∧ ∀ cr off, (s.slot n k).overlay a = some (cr, off) → (s.island n).inPlace k = true →
          ((s.island n).crate cr).poisonIn wordB off size = none →
        ∃ t, exec (c n rd rs1 imm) s = .next t
          ∧ s.commits n k ((s.slot n k).after rd (ext (unle (Mem.read ((s.island n).crate cr).mem off size)))) t
  let sx := fun (bits v : Nat) => BitVec.ofInt 64 (if v < 2 ^ (bits - 1) then (v : Int) else (v : Int) - 2 ^ bits)
  does .lb 1 (sx 8) ∧ does .lh 2 (sx 16) ∧ does .lw 4 (sx 32) ∧ does .ld 8 (BitVec.ofNat 64)
    ∧ does .lbu 1 (BitVec.ofNat 64) ∧ does .lhu 2 (BitVec.ofNat 64) ∧ does .lwu 4 (BitVec.ofNat 64)

/-- Each store writes the low bytes of its register at its address and leaves every other byte alone (R133, R134, R137
(STORE), R336, Table 7-1). For SB, SH, SW and SD at a naturally aligned address within the task's store access: where
no overlay covers the address, the Shelf's bytes at rs1 + imm become the low bytes of the source register, every other
Shelf byte reads as before, and a word written whole is clean; where an overlay covers it and the slot's crates are in
place, the same holds of the overlaid crate and every other crate is unchanged. The pc is 4 further, one instruction
more is counted, no register changes, and nothing else changes. (Where the spec leaves a point open the statement
takes the model's choice: log entry 42.) It concludes that these commands answer a next state: sb, sh, sw, sd. -/
def Obligations.StoresWriteTheirBytesOnly : Prop :=
  let does := fun (c : IslN → Reg → Reg → Imm15 → Instr) (size : Nat) =>
    ∀ (s : State) (n : IslN) (k : Nat) (rs2 rs1 : Reg) (imm : Imm15), s.runsAt n k →
      let a := (s.greg n k rs1 + BitVec.ofInt 64 imm.toInt).toNat
      let d := le size (s.greg n k rs2).toNat
      let rest := fun (t : State) =>
        t.slot n k = { s.slot n k with pc := (s.slot n k).pc + 4 }
          ∧ (t.island n).instret = ((s.island n).instret + 1) % 2 ^ 64 ∧ s.onlyIsl n t ∧ ∀ j, j ≠ k → t.slot n j = s.slot n j
      a % size = 0 → s.canStore n k a size = true →
      ((s.slot n k).overlay a = none →
        ∃ t, exec (c n rs2 rs1 imm) s = .next t ∧ rest t ∧ Store.stored wordB a d (s.island n).shelf (t.island n).shelf
          ∧ { t.island n with slots := (s.island n).slots, instret := (s.island n).instret, shelf := (s.island n).shelf }
              = s.island n)
      ∧ ∀ cr off, (s.slot n k).overlay a = some (cr, off) → (s.island n).inPlace k = true →
        ∃ t, exec (c n rs2 rs1 imm) s = .next t ∧ rest t
          ∧ Store.stored wordB off d ((s.island n).crate cr) ((t.island n).crate cr)
          ∧ (∀ b, b ≠ cr → (t.island n).crate b = (s.island n).crate b)
          ∧ { t.island n with slots := (s.island n).slots, instret := (s.island n).instret, crates := (s.island n).crates }
              = s.island n
  does .sb 1 ∧ does .sh 2 ∧ does .sw 4 ∧ does .sd 8

/-- Branches and jumps set the pc, write the return address, and train the predictor and return stack of R153 (R137
(BRANCH, JAL, JALR), R153, R155, R157). BRANCH continues at pc + 4 x offset where its condition of Table 7-3 holds and
4 further otherwise, moves the counter of its pc one up (at most 3) or one down (at least 0), leaves every other
counter, and counts one resolved branch, and one mispredicted branch just when the counter predicted otherwise; a
right prediction leaves the squash counts and draws no free value, a wrong one fetches at most SPEC_DEPTH wrong-path
instructions. JAL and JALR continue at their target (JALR with bits 1 and 0 cleared) with pc + 4 in rd; with rd = g31
they push it on the return stack of 8; a JALR with rd = g0 and rs1 = g31 pops one. Nothing else changes but the
instruction count. (Where the spec leaves a point open the statement takes the model's choice: log entries 42, 45.) It
concludes that these commands answer a next state: branch, jal, jalr. -/
def Obligations.BranchesAndJumpsSetThePc : Prop :=
  (∀ (s : State) (n : IslN) (k : Nat) (c : Cond) (rs1 rs2 : Reg) (imm : Imm15), s.runsAt n k →
    let x := s.slot n k
    let i := s.island n
    ∃ t, exec (.branch n c rs1 rs2 imm) s = .next t
      ∧ (condTaken c (s.greg n k rs1) (s.greg n k rs2) →
          t.slot n k = { x with pc := (BitVec.ofInt 64 (x.pc + 4 * imm.toInt)).toNat }
          ∧ (t.island n).counter x.pc = min (i.counter x.pc + 1) 3
          ∧ (t.island n).brMis = if 2 ≤ i.counter x.pc then i.brMis else (i.brMis + 1) % 2 ^ 32)
      ∧ (¬condTaken c (s.greg n k rs1) (s.greg n k rs2) →
          t.slot n k = { x with pc := x.pc + 4 } ∧ (t.island n).counter x.pc = i.counter x.pc - 1
          ∧ (t.island n).brMis = if 2 ≤ i.counter x.pc then (i.brMis + 1) % 2 ^ 32 else i.brMis)
      ∧ (∀ p, p / 4 % 256 ≠ x.pc / 4 % 256 → (t.island n).counter p = i.counter p)
      ∧ (t.island n).brRes = (i.brRes + 1) % 2 ^ 32 ∧ (t.island n).instret = (i.instret + 1) % 2 ^ 64
      ∧ ((t.island n).brMis = i.brMis → t.free = s.free ∧ (t.island n).sqFetch = i.sqFetch ∧ (t.island n).sqExec = i.sqExec)
      ∧ ((t.island n).brMis ≠ i.brMis → ∃ f ≤ min (fld (s.rwt (offStewCfg n)) 0 3) 6, ∃ e ≤ f,
          (t.island n).sqFetch = (i.sqFetch + f) % 2 ^ 64 ∧ (t.island n).sqExec = (i.sqExec + e) % 2 ^ 64)
      ∧ { t with isl := s.isl, free := s.free } = s ∧ (∀ m, m ≠ n.val → t.island m = s.island m)
      ∧ (∀ j, j ≠ k → t.slot n j = s.slot n j)
      ∧ { t.island n with slots := i.slots, pred := i.pred, brRes := i.brRes, brMis := i.brMis, sqFetch := i.sqFetch,
                          sqExec := i.sqExec, instret := i.instret } = i)
  ∧ (∀ (s : State) (n : IslN) (k : Nat) (rd : Reg) (imm : Imm23), s.runsAt n k →
    let x := s.slot n k
    let i := s.island n
    ∃ t, exec (.jal n rd imm) s = .next t
      ∧ t.slot n k = { x.setReg rd (BitVec.ofNat 64 (x.pc + 4)) with pc := (BitVec.ofInt 64 (x.pc + 4 * imm.toInt)).toNat }
      ∧ (t.island n).rstack = (if rd = 31 then ((x.pc + 4) :: i.rstack).take 8 else i.rstack)
      ∧ (t.island n).instret = (i.instret + 1) % 2 ^ 64 ∧ s.onlyIsl n t ∧ (∀ j, j ≠ k → t.slot n j = s.slot n j)
      ∧ { t.island n with slots := i.slots, rstack := i.rstack, instret := i.instret } = i)
  ∧ ∀ (s : State) (n : IslN) (k : Nat) (rd rs1 : Reg) (imm : Imm15), s.runsAt n k →
    let x := s.slot n k
    let i := s.island n
    let target := (s.greg n k rs1 + BitVec.ofInt 64 imm.toInt).toNat / 4 * 4
    let pops := rd = 0 ∧ rs1 = 31
    ∃ t, exec (.jalr n rd rs1 imm) s = .next t
      ∧ t.slot n k = { x.setReg rd (BitVec.ofNat 64 (x.pc + 4)) with pc := target }
      ∧ (t.island n).rstack = (if rd = 31 then ((x.pc + 4) :: i.rstack).take 8 else if pops then i.rstack.tail else i.rstack)
      ∧ (pops → (t.island n).brRes = (i.brRes + 1) % 2 ^ 32
          ∧ (t.island n).brMis = if i.rstack.headD (x.pc + 4) = target then i.brMis else (i.brMis + 1) % 2 ^ 32)
      ∧ (¬pops → (t.island n).brRes = i.brRes ∧ (t.island n).brMis = i.brMis ∧ t.free = s.free
          ∧ (t.island n).sqFetch = i.sqFetch ∧ (t.island n).sqExec = i.sqExec)
      ∧ (t.island n).instret = (i.instret + 1) % 2 ^ 64
      ∧ { t with isl := s.isl, free := s.free } = s ∧ (∀ m, m ≠ n.val → t.island m = s.island m)
      ∧ (∀ j, j ≠ k → t.slot n j = s.slot n j)
      ∧ { t.island n with slots := i.slots, rstack := i.rstack, brRes := i.brRes, brMis := i.brMis, sqFetch := i.sqFetch,
                          sqExec := i.sqExec, instret := i.instret } = i

/-- CSRR reads each word of Table 7-2 and CSRW writes EVEC and OUT_LEN (Table 7-2, R137 (SYS), R126). For a running
slot whose task is live: CSRR of TASK_ID, SWIN, EVEC, OUT_LEN, GTC and EXSTATE writes to rd the value that Table 7-2
gives, and CSRR of CYCLE a free value, drawn once; CSRW of EVEC writes rs1, CSRW of OUT_LEN its low 32 bits, which in
the lead slot also become the task's OUT_LEN. Each commits and changes nothing else. CSRR of any other number, and
CSRW of any other number or of a read-only word, enters the handler with ILLEGAL where the slot can take a frame.
(Where the spec leaves a point open the statement takes the model's choice: log entries 4, 42.) It concludes that
these commands answer a next state: csrr, csrw. -/
def Obligations.TaskControlWordsReadAndWrite : Prop :=
  (∀ (s : State) (n : IslN) (k : Nat) (rd : Reg), s.runsAt n k →
    let x := s.slot n k
    let reads := fun (csr : Csr) (v : Word) =>
      ∃ t, exec (.csrr n rd csr) s = .next t ∧ s.commits n k (x.after rd v) t
    (∀ tk, s.task? x.task = some tk →
      reads 1 (BitVec.ofNat 64 (k % 16 + n.val * 2 ^ 8 + tk.room % 64 * 2 ^ 16 + tk.tenant % 64 * 2 ^ 24
        + if s.isLead n k then 2 ^ 30 else 0)))
    ∧ reads 2 (BitVec.ofNat 64 (s.stackLo n k % 2 ^ 32 + s.stackHi n k % 2 ^ 32 * 2 ^ 32))
    ∧ reads 3 x.evec ∧ reads 4 (BitVec.ofNat 64 x.outLen) ∧ reads 5 (BitVec.ofNat 64 (s.view (0x10 + n.val)))
    ∧ reads 7 (if x.inHandler then 1 else 0)
    ∧ ∃ v t, exec (.csrr n rd 6) s = .next t ∧ t.free = s.free + 1 ∧ v = Config.freeValue s.free
        ∧ s.commits n k (x.after rd v) { t with free := s.free })
  ∧ (∀ (s : State) (n : IslN) (k : Nat) (rs1 : Reg), s.runsAt n k →
    let x := s.slot n k
    let v := s.greg n k rs1
    (∃ t, exec (.csrw n 3 rs1) s = .next t ∧ s.commits n k { x with evec := v, pc := x.pc + 4 } t)
    ∧ ∃ t, exec (.csrw n 4 rs1) s = .next t
        ∧ s.commits n k { x with outLen := v.toNat % 2 ^ 32, pc := x.pc + 4 } { t with tasks := s.tasks }
        ∧ (s.isLead n k = false → t.tasks = s.tasks)
        ∧ (s.isLead n k = true → t.tasks.next = s.tasks.next
            ∧ ∀ j, t.task? j = if j = x.task then (s.task? j).map (fun y => { y with outLen := v.toNat % 2 ^ 32 }) else s.task? j))
  ∧ ∀ (s : State) (n : IslN) (k : Nat) (r : Reg) (csr : Csr), s.runsAt n k → s.handles n k →
    (csr = 0 ∨ 7 < csr.toNat → ∃ t, exec (.csrr n r csr) s = .next t
      ∧ s.entersHandler n k 1 (s.slot n k).pc (0x80000000 + r.val * 2 ^ 23 + csr.toNat * 16) false t)
    ∧ (csr ≠ 3 ∧ csr ≠ 4 → ∃ t, exec (.csrw n csr r) s = .next t
      ∧ s.entersHandler n k 1 (s.slot n k).pc (0x80000000 + r.val * 2 ^ 18 + csr.toNat * 16 + 1) false t)

/-- The Steward finds no SPREASON exactly when sp can take a frame (R149). In every state, for every island and slot:
SPREASON is zero exactly when the 64 bytes below sp lie in the slot's stack window, sp is a multiple of 64, no
overlaid page meets the range and none of its eight words carries poison. -/
def Obligations.SpReasonZeroExactlyWhenSpIsValid : Prop :=
  ∀ (s : State) (n k : Nat), s.spReason n k = 0 ↔ s.spValid n k

/-- Handler-group causes push the frame of Table 7-7 and enter the handler, and ERET returns from it (R136, R146,
R147, R148, Tables 7-6 and 7-7). For a running slot that is not in its handler, has one, and whose sp is valid: TRAP
enters the handler with code 4, EPC the next instruction and TVAL rs1, after committing; a reserved Steward word
enters it with ILLEGAL and the word as TVAL; a load or store at an address not naturally aligned with MISALIGNED and
the address, one outside the task's access with ACCESS and the address, an immediate shift whose count field has bits
14 to 6 set and an ERET outside a handler with ILLEGAL. The frame lies at sp - 64 and nothing else changes. ERET in a
handler, with a frame it may load that carries no poison, continues at the frame's EPC with sp 64 higher and
IN_HANDLER clear, and changes nothing else. (Where the spec leaves a point open the statement takes the model's
choice: log entries 41, 42, 44.) It concludes that these commands answer a next state: trap, eret. -/
def Obligations.ExceptionsEnterTheHandler : Prop :=
  (∀ (s : State) (n : IslN) (k : Nat), s.runsAt n k → s.handles n k →
    let pc := (s.slot n k).pc
    (∀ rs1, ∃ t, exec (.trap n rs1) s = .next t ∧ s.entersHandler n k 4 (pc + 4) (s.greg n k rs1).toNat true t)
    ∧ (∀ w : Word, stewWord (w.toNat % 2 ^ 32) = none →
        ∃ t, exec (.reservedInstruction n false w) s = .next t ∧ s.entersHandler n k 1 pc (w.toNat % 2 ^ 32) false t)
    ∧ (∃ t, exec (.eret n) s = .next t ∧ s.entersHandler n k 1 pc 0x80000005 false t)
    ∧ (∀ rd rs1 (imm : Imm15), 64 ≤ imm.toNat →
        ∃ t, exec (.slli n rd rs1 imm) s = .next t ∧ s.entersHandler n k 1 pc
          (0x10000000 + rd.val * 2 ^ 23 + rs1.val * 2 ^ 18 + 4 * 2 ^ 15 + imm.toNat) false t)
    ∧ ∀ rd rs1 (imm : Imm15),
        let a := (s.greg n k rs1 + BitVec.ofInt 64 imm.toInt).toNat
        (a % 8 ≠ 0 → (∃ t, exec (.ld n rd rs1 imm) s = .next t ∧ s.entersHandler n k 2 pc a false t)
          ∧ ∃ t, exec (.sd n rd rs1 imm) s = .next t ∧ s.entersHandler n k 2 pc a false t)
        ∧ (a % 8 = 0 → s.canLoad n k a 8 = false →
            ∃ t, exec (.ld n rd rs1 imm) s = .next t ∧ s.entersHandler n k 3 pc a false t)
        ∧ (a % 8 = 0 → s.canStore n k a 8 = false →
            ∃ t, exec (.sd n rd rs1 imm) s = .next t ∧ s.entersHandler n k 3 pc a false t))
  ∧ ∀ (s : State) (n : IslN) (k : Nat), s.runsAt n k →
    let x := s.slot n k
    let sp := (x.getReg 30).toNat
    ∀ b, x.inHandler = true → sp % 8 = 0 → s.canLoad n k sp 64 = true → s.stewRead n k sp 64 = some (b, false) →
      ∃ t, exec (.eret n) s = .next t
        ∧ s.commits n k { x.setReg 30 (x.getReg 30 + 64) with inHandler := false, pc := unle (b.take 8) } t

/-- A word that is no instruction leaves the machine to the ILLEGAL rule of its unit, and a word that is one does
nothing here (R136, R219, R222). RESERVED_INSTRUCTION with a word that spells a Steward instruction, or a vector
instruction, changes nothing: that word has its own command. With a word that spells no vector instruction while a
vector program runs, the programs of its task are dropped and its slot holds ILLEGAL, with the instruction's address,
until it next meets the vector engine; nothing outside the island changes, but that a program which may have waited
draws one free value for its count of cycles. (Where the spec leaves a point open the statement takes the model's
choice: log entries 41, 45, 50.) It concludes that these commands answer a next state: reservedInstruction. -/
def Obligations.ReservedVectorWordsRaiseIllegal : Prop :=
  (∀ (s : State) (n : IslN) (w : Word), (stewWord (w.toNat % 2 ^ 32)).isSome = true →
    exec (.reservedInstruction n false w) s = .next s)
  ∧ (∀ (s : State) (n : IslN) (w : Word), (vecInstrWord w.toNat).isSome = true →
    exec (.reservedInstruction n true w) s = .next s)
  ∧ ∀ (s : State) (n : IslN) (w : Word) v x, (vecInstrWord w.toNat).isSome = false → s.vecProg n = some (v, x) →
    ∃ t, exec (.reservedInstruction n true w) s = .next t
      ∧ (t.slot n v.slot).vfault = some (1, v.at_) ∧ (t.island n).vec = (s.island n).vec.filter (fun y => y.slot != v.slot)
      ∧ (t.island n).vecFaulted = sat1 16 (s.island n).vecFaulted
      ∧ t.free = s.free + (if v.late then 1 else 0) ∧ s.onlyIsl n { t with free := s.free }

/-- WAIT, DMA.WAITTAG and FENCE complete when their conditions hold, yield or stall when they do not, and deliver DMA
errors (R137 (DMA, SYS), R139, R141, R143, Table 7-5). WAIT on conditions that hold commits, frees the named tags that
completed without error, and changes nothing else; with no condition it also gives the Steward to the READY slot whose
task started earliest, where there is one; on conditions that do not hold the slot becomes WAITING on them and the
Steward runs no slot. A named tag that completed with an error is freed and its DMA_ERROR enters the handler with the
request block as TVAL. DMA.WAITTAG does the same with its mask, and leaves the state as it is while a named tag has
not completed; so does FENCE while a DMA write of the slot has not. WAIT_SATISFIED makes a WAITING slot READY once its
conditions hold and changes nothing else. (Where the spec leaves a point open the statement takes the model's choice:
log entries 42, 43.) It concludes that these commands answer a next state: wait, fence, dmaWaittag, waitSatisfied. -/
def Obligations.WaitsHoldUntilTheirConditions : Prop :=
  (∀ (s : State) (n : IslN) (k : Nat) (rs1 : Reg), s.runsAt n k →
    let x := s.slot n k
    let w := s.greg n k rs1
    let freed : Slot := { x with wait := 0, pc := x.pc + 4,
                                 tags := x.tags.filter (fun e => !(bitOf w e.1 && decide (e.1 < 8) && e.2.done && !e.2.err)) }
    ((bitOf w 9 = true → x.vfault = none) → s.waitHolds n k w = true → x.badTag (tagsOf w) = none →
      (w.toNat % 4096 ≠ 0 ∨ s.nextReady n = none) →
      ∃ t, exec (.wait n rs1) s = .next t ∧ s.commits n k freed t)
    ∧ (∀ j, w.toNat % 4096 = 0 → s.nextReady n = some j → (s.slot n j).st = .ready → x.full.length ≤ x.hold →
      ∃ t, exec (.wait n rs1) s = .next t ∧ t.slot n k = { x with st := .ready, wait := 0, pc := x.pc + 4 }
        ∧ t.slot n j = { s.slot n j with st := .running } ∧ t.runningSlot n = some j
        ∧ (t.island n).instret = ((s.island n).instret + 1) % 2 ^ 64 ∧ s.onlyIsl n t
        ∧ ∀ i, i ≠ j → i ≠ k → t.slot n i = s.slot n i)
    ∧ ((bitOf w 9 = true → x.vfault = none) → s.waitHolds n k w = false → x.full.length ≤ x.hold →
      ∃ t, exec (.wait n rs1) s = .next t ∧ t.slot n k = { x with st := .waiting, wait := w } ∧ t.runningSlot n = none
        ∧ s.onlyIsl n t ∧ (∀ j, j ≠ k → t.slot n j = s.slot n j)
        ∧ { t.island n with slots := (s.island n).slots, run := (s.island n).run } = s.island n)
    ∧ (∀ g d, (bitOf w 9 = true → x.vfault = none) → s.waitHolds n k w = true → x.badTag (tagsOf w) = some (g, d) →
        s.handles n k →
      ∃ t, exec (.wait n rs1) s = .next t
        ∧ State.entersHandler (s.modSlot n k (fun y => { y with tags := NMap.del y.tags g, wait := 0 })) n k 5 x.pc d.blk false t)
    ∧ ((tagsOf w).all x.tagDone = true → x.badTag (tagsOf w) = none →
      ∃ t, exec (.dmaWaittag n rs1) s = .next t ∧ s.commits n k { freed with wait := x.wait } t)
    ∧ ((tagsOf w).all x.tagDone = false → exec (.dmaWaittag n rs1) s = .next s))
  ∧ (∀ (s : State) (n : IslN) (k : Nat), s.runsAt n k →
    ((s.slot n k).tags.all (fun e => !e.2.write || e.2.done) = true →
      ∃ t, exec (.fence n) s = .next t ∧ s.commits n k { s.slot n k with pc := (s.slot n k).pc + 4 } t)
    ∧ ((s.slot n k).tags.all (fun e => !e.2.write || e.2.done) = false → exec (.fence n) s = .next s))
  ∧ ∀ (s : State) (n : IslN) (k : SlotN), (s.slot n k).st = .waiting → s.waitHolds n k (s.slot n k).wait = true →
    ∃ t, exec (.waitSatisfied n k) s = .next t ∧ t.slot n k = { s.slot n k with st := .ready } ∧ s.onlySlot n k t
      ∧ (t.island n).instret = (s.island n).instret

/-- EXIT ends the task, except that OK in a slot that is not the lead ends only the island's segment (R141, R144,
R151, Table 7-5). For a running slot with nothing outstanding and no undelivered vector fault, of a task that is no
part of another device's: EXIT with OK, OUTPUT_TOO_SMALL or STEWARD_FAULT in the lead slot commits, gives the task
that status (with the island in bits 13 to 8 of DETAIL for STEWARD_FAULT) unless it already has one, turns the lead
slot to ENDING and every other slot of the task that was READY, RUNNING or WAITING to STOPPING, and leaves all other
slots and every other task alone; with a status other than OK in another slot that slot becomes STOPPING and the task
has the status. EXIT with OK in another slot commits and frees that slot alone: the task no longer lists it. Any other
value enters the handler with ILLEGAL. (Where the spec leaves a point open the statement takes the model's choice: log
entries 42, 43.) It concludes that these commands answer a next state: exit. -/
def Obligations.ExitEndsTheTaskOrTheSegment : Prop :=
  ∀ (s : State) (n : IslN) (k : Nat) (rs1 : Reg) (tk : Task), s.runsAt n k → s.task? (s.slot n k).task = some tk →
    let x := s.slot n k
    let v := (s.greg n k rs1).toNat
    ((v = 0 ∨ v = 0x12 ∨ v = 0x2D) → x.vfault = none → s.idle n k = true → s.isLead n k = true →
      ∃ t, exec (.exit n rs1) s = .next t
        ∧ t.task? x.task = some { tk with status := some (tk.status.getD (v, if v = 0x2D then n.val * 256 else 0)) }
        ∧ (∀ j, j ≠ x.task → t.task? j = s.task? j)
        ∧ (t.slot n k).st = .ending ∧ (t.slot n k).pc = x.pc + 4 ∧ (t.slot n k).regs = x.regs ∧ t.runningSlot n = none
        ∧ (∀ m j, (m, j) ∈ tk.slots → (m, j) ≠ (n.val, k) → (s.slot m j).st.live → (t.slot m j).st = .stopping)
        ∧ (∀ m j, (m, j) ∉ tk.slots → t.slot m j = s.slot m j)
        ∧ (t.island n).instret = ((s.island n).instret + 1) % 2 ^ 64
        ∧ { t with isl := s.isl, tasks := s.tasks, eng := s.eng } = s)
    ∧ (v = 0 → x.vfault = none → s.idle n k = true → s.isLead n k = false → tk.span = none →
      ∃ t, exec (.exit n rs1) s = .next t ∧ t.slot n k = .reset
        ∧ t.task? x.task = some { tk with slots := tk.slots.filter (· != (n.val, k)) }
        ∧ (∀ j, j ≠ x.task → t.task? j = s.task? j) ∧ t.runningSlot n = none
        ∧ (∀ m j, (m, j) ≠ (n.val, k) → t.slot m j = s.slot m j)
        ∧ (t.island n).instret = ((s.island n).instret + 1) % 2 ^ 64
        ∧ { t with isl := s.isl, tasks := s.tasks } = s)
    ∧ ((v = 0x12 ∨ v = 0x2D) → x.vfault = none → s.idle n k = true → s.isLead n k = false →
      ∃ t, exec (.exit n rs1) s = .next t ∧ (t.slot n k).st = .stopping
        ∧ t.task? x.task = some { tk with status := some (tk.status.getD (v, if v = 0x2D then n.val * 256 else 0)) })
    ∧ (v ≠ 0 → v ≠ 0x12 → v ≠ 0x2D → s.handles n k →
      ∃ t, exec (.exit n rs1) s = .next t
        ∧ s.entersHandler n k 1 x.pc (0x80000004 + rs1.val * 2 ^ 18) false t)

/-- RUN on an island with no running slot gives the Steward to the READY slot whose task started earliest (R143, R154,
Table 7-5). Where no slot of the island runs, no Sweep step holds it and some slot is READY: the READY slot with the
lowest task number, which is the order of start instants, becomes RUNNING and is otherwise unchanged; a switch from
another slot empties the predictor and the return stack, and counts one where a slot had run before; all else outside
the crate unit's swap state is unchanged. With no READY slot, nothing changes. (Where the spec leaves a point open the
statement takes the model's choice: log entry 42.) It concludes that these commands answer a next state: run. -/
def Obligations.RunSelectsTheEarliestReadySlot : Prop :=
  ∀ (s : State) (n : IslN), s.runningSlot n = none → (s.ras.sweepBusy = false ∨ s.ras.sweepUnit ≠ 0x10 + n.val) →
    let i := s.island n
    (∀ k, s.nextReady n = some k →
      ∃ t, exec (.run n) s = .next t ∧ t.slot n k = { s.slot n k with st := .running } ∧ t.runningSlot n = some k
        ∧ (∀ e ∈ i.slots, e.2.st = .ready → ∃ f ∈ i.slots, f.1 = k ∧ f.2.st = .ready ∧ f.2.task ≤ e.2.task)
        ∧ (∀ j, j ≠ k → t.slot n j = s.slot n j)
        ∧ (i.lastRun ≠ some k → (t.island n).pred = [] ∧ (t.island n).rstack = [])
        ∧ (t.island n).lastRun = some k
        ∧ (t.island n).switches = (if i.lastRun.isSome ∧ i.lastRun ≠ some k then (i.switches + 1) % 2 ^ 64 else i.switches)
        ∧ s.onlyIsl n t
        ∧ { t.island n with slots := i.slots, pred := i.pred, rstack := i.rstack, run := i.run, lastRun := i.lastRun,
                            switches := i.switches, owner := i.owner, swapTo := i.swapTo } = i)
    ∧ (s.nextReady n = none → exec (.run n) s = .next s)

/-- Running the word that encodes a Steward instruction is executing that instruction (R136, R137, R166, R216, Tables
7-3, 7-4, 8-3). For every Steward instruction command, with every operand at every value its encoding admits (the
registers of all forms, every immediate, condition, control-word number, crate number and P6): in every state in which
a slot of its island runs at a pc it may fetch from, and the four Shelf bytes there carry no poison and hold the
instruction's word as Tables 7-3, 7-4, 8-3 and R137, R166 and R216 encode it, RUN of the island has exactly the effect
of the command. (Where the spec leaves a point open the statement takes the model's choice: log entry 42.) It
concludes that these commands answer a next state: run. -/
def Obligations.RunExecutesTheWordAtThePc : Prop :=
  ∀ (s : State) (i : Instr) (n : IslN) (w k : Nat), stewEncode i = some (n, w) → s.runsAt n k →
    (s.island n).shelf.poisonIn wordB (s.slot n k).pc 4 = none → (s.island n).shelf.read (s.slot n k).pc 4 = le 4 w →
    exec (.run n) s = exec i s

/-- Advancing a running vector program executes the vector instruction its word encodes (R219, R222, Tables 11-1 and
11-3). For every vector instruction command with every value of its fields: in every state in which the island's head
program runs, its task is live, and the eight pinned bytes it stands at carry no poison and hold the word that Table
11-1 spells for the instruction, VEC_PROGRAM_START has exactly the effect of that instruction. (Where the spec leaves
a point open the statement takes the model's choice: log entries 42, 50.) It concludes that these commands answer a
next state: vecProgramStart. -/
def Obligations.VectorStepExecutesTheWordAtTheProgram : Prop :=
  ∀ (s : State) (i : Instr) (n : IslN) (w : Nat) (v : VecOp) (tk : Task), vecEncode i = some (n, w) →
    s.vecProg n = some (v, tk) → v.at_ + 8 ≤ s.pin n → (s.island n).shelf.poisonIn wordB v.at_ 8 = none →
    (s.island n).shelf.read v.at_ 8 = le 8 w → exec (.vecProgramStart n) s = exec i s

/-- DMA.RD and DMA.WR take a free tag, commit, and send a host read on its way (R138, R139, R140). For a running slot
of a live task with a free tag, a request block at a multiple of 32 that it may load and that carries no poison, LEN
from 1 to 16 MiB, a Shelf range within the task's access and a far address that R139 and R140 admit: a DMA of class 4
(local Cellar), and a host write, takes a free tag, writes it to rd, records the request as issued and commits, and
changes nothing else; a host read also sends its read of host memory; a stream (class 3) also lets its passage move
what its two ends stand ready for; a job block (class 1) also leaves for its engine, read at once with its first
poisoned word if it has one. Without a free tag the Steward stalls: nothing changes. A far address outside the limits
enters the handler with ACCESS, and a host write that runs past OUT_CAP with OUTPUT_OVER and the offset it would have
reached. (Where the spec leaves a point open the statement takes the model's choice: log entries 4, 42, 46, 47, 53.)
It concludes that these commands answer a next state: dmaRd, dmaWr. -/
def Obligations.DmaIssueTakesATag : Prop :=
  ∀ (s : State) (n : IslN) (k : Nat) (rd rs1 : Reg) (tk : Task), s.runsAt n k → s.task? (s.slot n k).task = some tk →
    let x := s.slot n k
    let a := (s.greg n k rs1).toNat
    let r := ReqBlock.of ((s.island n).shelf.read a 32)
    let d := fun (wr : Bool) =>
      { write := wr, blk := a, shelf := r.shelf, len := r.len, chip := r.chip, far := r.far, cls := r.cls,
        issued := s.view (0x10 + n.val), done := false, err := false,
        drop := wr && tk.withhold && (r.cls == 0 || r.cls == 2), held := none, moved := 0, buf := [], bufBad := [],
        epc := x.pc, retried := false, ord := (s.island n).ord, waits := false, meshBad := [], lost := false : Dma }
    let go := fun (wr : Bool) => if wr then Instr.dmaWr n rd rs1 else .dmaRd n rd rs1
    let may := fun (wr : Bool) => if wr then s.canLoad n k r.shelf r.len = true else s.canStore n k r.shelf r.len = true
    (∀ wr, x.freeTags ≠ [] → a % 32 = 0 → s.canLoad n k a 32 = true → (s.island n).shelf.poisonIn wordB a 32 = none →
      1 ≤ r.len → r.len ≤ 2 ^ 24 → may wr →
      (s.farCheck n tk wr r = .ok → (r.cls = 4 ∨ (r.cls = 0 ∧ wr = true)) →
        ∃ t g, exec (go wr) s = .next t ∧ g ∈ x.freeTags ∧ s.issues n k rd g (d wr) t)
      ∧ (s.farCheck n tk wr r = .ok → r.cls = 3 →
        ∃ t g key p, s.streamOf n (d wr) = some (key, p) ∧ exec (go wr) s = .next (t.flow key) ∧ g ∈ x.freeTags
          ∧ s.issues n k rd g (d wr) t)
      ∧ (s.farCheck n tk wr r = .ok → r.cls = 1 →
        ∃ t g, exec (go wr) s = .next (t.modEng (fun e =>
            { e with rceIn := e.rceIn ++ [{ eng := r.far % 16, isl := n, slot := k, task := x.task, room := tk.room,
                                            block := (s.island n).shelf.read r.shelf 64, addr := r.shelf, tag := g,
                                            epc := x.pc, bad := (s.island n).shelf.poisonIn wordB r.shelf 64, ord := e.ord }]
                     ord := e.ord + 1 })) ∧ g ∈ x.freeTags
          ∧ s.issues n k rd g (d wr) t)
      ∧ (s.farCheck n tk wr r = .ok → r.cls = 0 → wr = false →
        ∃ t g, exec (go wr) s = .next (t.send (.hostRead tk.tenant (r.far % 2 ^ 61) r.len)) ∧ g ∈ x.freeTags
          ∧ s.issues n k rd g (d wr) t)
      ∧ (∀ v, s.farCheck n tk wr r = .access v → s.handles n k →
        ∃ t, exec (go wr) s = .next t ∧ s.entersHandler n k 3 x.pc v false t)
      ∧ (∀ v, s.farCheck n tk wr r = .past v → s.handles n k →
        ∃ t, exec (go wr) s = .next t ∧ s.entersHandler n k 7 x.pc v false t))
    ∧ (∀ wr, x.freeTags = [] → exec (go wr) s = .next s)

/-- A host DMA request that the Steward issues lies in the task's input buffer or output buffer (R139). For every
state, task and request block of class 0 or 2: a read that R139's check admits lies within IN_ADDR and IN_LEN, a write
within OUT_ADDR and OUT_CAP; a write that starts in the output buffer and runs past its end is answered OUTPUT_OVER
with the offset it would have reached, and every other one ACCESS with the host address. (Where the spec leaves a
point open the statement takes the model's choice: log entry 46.) -/
def Obligations.HostDmaStaysInItsBuffers : Prop :=
  ∀ (s : State) (n : Nat) (tk : Task) (wr : Bool) (r : ReqBlock), r.cls = 0 ∨ r.cls = 2 →
    let d := tk.ent.raw
    let a := r.far % 2 ^ 61
    (s.farCheck n tk wr r = .ok → if wr then dOutAddr d ≤ a ∧ a + r.len ≤ dOutAddr d + dOutCap d
      else dInAddr d ≤ a ∧ a + r.len ≤ dInAddr d + dInLen d)
    ∧ (∀ v, s.farCheck n tk wr r = .past v → wr = true ∧ dOutAddr d ≤ a ∧ a < dOutAddr d + dOutCap d
        ∧ dOutAddr d + dOutCap d < a + r.len ∧ v = a + r.len - dOutAddr d)
    ∧ ∀ v, s.farCheck n tk wr r = .access v → v = a

/-- A DMA request that completes moves its data with their poison and completes its tag, and one that fails only
completes it (R32, R133, R139, R145, R295, R334, R335, R438). For a request that is out, of a slot that holds no tied
transfer back, in a room that is not at Level T, with no refresh stall: the completion of a local Cellar read puts the
Cellar's bytes, as the task sees them, into the Shelf at the request's address, that of a host read the bytes that
arrived, each with its poisoned parts and those that the mesh marked; both complete the tag. A Cellar access that met
an error completes the tag with an error and moves nothing; so does a host read whose completion timed out. At Level T
a Cellar read that comes before its release is held until then, with its data, and the Shelf waits; a held response
lands at its release. Tags already complete are left alone. Outside the island, the task and the Cellar's counts
nothing changes. (Where the spec leaves a point open the statement takes the model's choice: log entries 46, 47.) It
concludes that these commands answer a next state: dmaComplete, responseRelease, completionTimeout. -/
def Obligations.DmaCompletionMovesTheData : Prop :=
  ∀ (s : State) (n : IslN) (k : SlotN) (g : Tag) (d : Dma) (tk : Task), s.tag? n k g = some d →
    s.task? (s.slot n k).task = some tk → s.noneWaits n k →
    (∀ r : DmaResult, d.isOut → s.levelT tk.room = false → d.write = false → d.drop = false →
      (d.cls = 4 → r.stall = 0 → r.err = false →
        ∃ t, exec (.dmaComplete n k g r) s = .next t ∧ s.tagCompletes n k g false t
          ∧ Store.landed wordB d.shelf ((s.cellarView tk).read (d.far % 2 ^ 49) d.len)
              ((s.cellarView tk).badIn lineB (d.far % 2 ^ 49) d.len ++ d.meshBad) (s.island n).shelf (t.island n).shelf
          ∧ t.cellar.store = s.cellar.store ∧ { t with isl := s.isl, cellar := s.cellar } = s)
      ∧ (d.cls = 0 → r.stall = 0 →
        ∃ t, exec (.dmaComplete n k g r) s = .next t ∧ s.tagCompletes n k g r.err t
          ∧ Store.landed wordB d.shelf (r.data.take d.len) (r.bad ++ d.meshBad) (s.island n).shelf (t.island n).shelf
          ∧ (∀ j, j ≠ (s.slot n k).task → t.task? j = s.task? j)
          ∧ { t with isl := s.isl, tasks := s.tasks } = s))
    ∧ (∀ r : DmaResult, d.isOut → s.levelT tk.room = false → d.cls = 4 → r.err = true → r.stall = 0 →
        ∃ t, exec (.dmaComplete n k g r) s = .next t ∧ s.tagCompletes n k g true t ∧ s.onlyIsl n t
          ∧ (t.island n).shelf = (s.island n).shelf)
    ∧ (∀ r : DmaResult, d.isOut → s.levelT tk.room = true → d.write = false → d.drop = false → d.cls = 4 →
        r.err = false → r.stall = 0 →
        let rel := d.issued + (fld (s.rwt offReproCfg) 20 12 + 2 * cdiv d.len 64)
        s.view (0x10 + n.val) < rel →
        ∃ t, exec (.dmaComplete n k g r) s = .next t
          ∧ (let v := s.cellarView tk
             let bad := v.badIn lineB (d.far % 2 ^ 49) d.len ++ d.meshBad
             t.tag? n k g = some { d with held := some { rel := rel, data := v.read (d.far % 2 ^ 49) d.len, bad := bad, err := false } })
          ∧ (∀ j, j ≠ g.val → t.tag? n k j = s.tag? n k j) ∧ (t.island n).shelf = (s.island n).shelf)
    ∧ (∀ r : DmaResult, d.done = true → exec (.dmaComplete n k g r) s = .next s)
    ∧ (d.write = false → d.done = false → d.held = none → (d.cls = 0 ∨ d.cls = 2) →
        ∃ t, exec (.completionTimeout n k g) s = .next t ∧ s.tagCompletes n k g true t ∧ s.onlyIsl n t
          ∧ (t.island n).shelf = (s.island n).shelf)
    ∧ ∀ r, d.held = some r → d.done = false → d.cls = 4 → d.write = false → d.drop = false →
        ∃ t, exec (.responseRelease n k g) s = .next t ∧ s.tagCompletes n k g r.err t
          ∧ Store.landed wordB d.shelf r.data r.bad (s.island n).shelf (t.island n).shelf
          ∧ (s.clk.valid = true → t.clk.gtc = max s.clk.gtc r.rel)
          ∧ { t with isl := s.isl, clk := s.clk } = s ∧ { t.clk with gtc := s.clk.gtc } = s.clk

/-- A stop request turns a slot to STOPPING, a slot that has stopped is freed, and a lead slot that has ended hands
its record over (R32, R126, R144, R145, Tables 6-8 and 7-5). STOP_REQUEST turns a READY, RUNNING or WAITING slot to
STOPPING, discards its queued crate, Grid and vector operations and leaves every other slot alone; a lead slot's task
gets ROOM_RESET as its status unless it has one. STOP_COMPLETE frees a STOPPING slot that is no lead and whose
requests are done, and takes it from its task. TASK_END of an ENDING lead slot with nothing outstanding, of an
untwinned task that owes no digest refetch and is not requeued, in a room where no start message of a span waits, ends
the task: it is live no more, its slots are free and its queue runs one task less. A mesh request of a live task that
is lost ends the task's slot with INTERNAL and completes its tag; a job block's job is given up with it. It concludes
that these commands answer a next state: stopRequest, stopComplete, taskEnd, requestTimeout. -/
def Obligations.StoppingSlotsAreReleased : Prop :=
  (∀ (s : State) (n : IslN) (k : SlotN), (s.slot n k).st.live →
    ∃ t, exec (.stopRequest n k) s = .next t ∧ (t.slot n k).st = .stopping
      ∧ (∀ m j, (m, j) ≠ (n.val, k.val) → t.slot m j = s.slot m j)
      ∧ (∀ x ∈ (t.island n).xfers, x.slot ≠ k.val) ∧ (∀ x ∈ (t.island n).grid, x.slot ≠ k.val)
      ∧ (∀ x ∈ (t.island n).vec, x.slot ≠ k.val)
      ∧ (∀ tk, s.isLead n k = true → s.task? (s.slot n k).task = some tk →
          t.task? (s.slot n k).task = some { tk with status := some (tk.status.getD (0x31, 0)) })
      ∧ { t with isl := s.isl, tasks := s.tasks, eng := s.eng } = s)
  ∧ (∀ (s : State) (n : IslN) (k : SlotN), (s.slot n k).st = .stopping → (s.slot n k).drained = true → s.isLead n k = false →
      (∀ tk, s.task? (s.slot n k).task = some tk → tk.span = none) →
    ∃ t, exec (.stopComplete n k) s = .next t ∧ t.slot n k = .reset
      ∧ (∀ tk, s.task? (s.slot n k).task = some tk →
          t.task? (s.slot n k).task = some { tk with slots := tk.slots.filter (· != (n.val, k.val)) })
      ∧ (∀ m j, (m, j) ≠ (n.val, k.val) → t.slot m j = s.slot m j) ∧ { t with isl := s.isl, tasks := s.tasks } = s)
  ∧ (∀ (s : State) (n : IslN) (k : SlotN) (tk : Task), (s.slot n k).st = .ending → s.isLead n k = true →
      s.task? (s.slot n k).task = some tk → tk.slots = [(n.val, k.val)] → (s.slot n k).drained = true →
      tk.comparing = false → tk.requeue = false → tk.noRecord = false → tk.ent.twin = none →
      tk.digestDue tk.final.1 = false → (s.spanRt tk.room).waits = [] →
    ∃ t, exec (.taskEnd n k) s = .next t ∧ t.task? (s.slot n k).task = none ∧ t.slot n k = .reset
      ∧ (∀ j, j ≠ (s.slot n k).task → t.task? j = s.task? j)
      ∧ (t.queue tk.queue).running = (s.queue tk.queue).running - 1 ∧ (t.queue tk.queue).stateBusy = false)
  ∧ ∀ (s : State) (n : IslN) (k : SlotN) (g : Nat) (d : Dma) (tk : Task), s.task? (s.slot n k).task = some tk →
      s.tag? n k g = some d → d.done = false → d.held = none →
    ∃ t, exec (.requestTimeout n k (0x10 + n.val) g) s = .next t
      ∧ ∃ u, s.tagCompletes n k g false u ∧ t = u.slotFault n k 0x7F 0 ∧ { u with isl := s.isl, eng := s.eng } = s
        ∧ (d.cls ≠ 1 → u.eng = s.eng)

/-- The CRATE instructions queue transfers, zero, release and overlay crates, and fault on crates in the wrong state
(R134, R164, R165, R166, R167, R168, R169, Tables 8-3 and 8-4). For a running slot and a crate 0 to 15: CRATE.LOAD and
CRATE.STORE with a row word that R168 admits, on a crate that is not overlaid (FULL for a store), at an aligned
address whose rows the task may reach, commit and queue one transfer with those operands, a load making the crate
FULL. CRATE.ZERO makes the crate FULL and zero, CRATE.RELEASE makes it EMPTY and drops its overlay, CRATE.MAP overlays
it on a page of the stack window or the working pages, zeroing it first where it was EMPTY, and CRATE.UNMAP drops the
overlay; each commits at once when the slot's crates are in place and no earlier operation of the slot names the
crate, and stalls (nothing changes) while one does. Nothing else changes. A store from an EMPTY crate, an unmap of a
crate that is not mapped, a transfer of an overlaid crate and a row word that is refused enter the handler with
CRATE_FAULT, the crate in bits 7 to 0 of TVAL and the reason above. (Where the spec leaves a point open the statement
takes the model's choice: log entries 42, 48, 49.) It concludes that these commands answer a next state: crateLoad,
crateStore, crateZero, crateRelease, crateMap, crateUnmap. -/
def Obligations.CrateInstructionsFollowTheirStates : Prop :=
  ∀ (s : State) (n : IslN) (k : Nat) (cr rs1 rs2 : Reg) (p6 : Bool), s.runsAt n k → cr.val < 16 →
    let x := s.slot n k
    let i := s.island n
    let a := (s.greg n k rs1).toNat
    let next : Slot := { x with pc := x.pc + 4 }
    let free := i.inPlace k = true ∧ i.crateBusy k cr = false
    let rb := if p6 then 96 else 128
    (∀ r, RowWord.of (s.greg n k rs2) = some r → x.isMapped cr = false → a % 8 = 0 →
      ((∀ j < r.count, s.canLoad n k (a + j * r.stride) rb = true) →
        ∃ t, exec (.crateLoad n cr rs1 rs2 p6) s = .next t ∧ t.slot n k = { next with full := insN cr x.full }
          ∧ (t.island n).xfers = i.xfers ++ [
              { slot := k, store := false, crate := cr, addr := a, stride := r.stride,
                first := r.first, count := r.count, p6 := p6, fresh := !x.isFull cr, ord := i.ord, epc := x.pc,
                done := false, moved := false }]
          ∧ s.onlyUnit n k (fun y => { y with xfers := i.xfers }) t)
      ∧ (x.isFull cr = true → (∀ j < r.count, s.canStore n k (a + j * r.stride) rb = true) →
        ∃ t, exec (.crateStore n cr rs1 rs2 p6) s = .next t ∧ t.slot n k = next
          ∧ (t.island n).xfers = i.xfers ++ [
              { slot := k, store := true, crate := cr, addr := a, stride := r.stride,
                first := r.first, count := r.count, p6 := p6, fresh := false, ord := i.ord, epc := x.pc,
                done := false, moved := false }]
          ∧ s.onlyUnit n k (fun y => { y with xfers := i.xfers }) t))
    ∧ (free → x.isMapped cr = false →
        ∃ t, exec (.crateZero n cr) s = .next t ∧ t.slot n k = { next with full := insN cr x.full }
          ∧ (t.island n).crate cr = .empty ∧ (∀ b, b ≠ cr.val → (t.island n).crate b = i.crate b)
          ∧ s.onlyUnit n k (fun y => { y with crates := i.crates }) t)
    ∧ (free →
        ∃ t, exec (.crateRelease n cr) s = .next t
          ∧ s.commits n k { next with full := x.full.filter (· != cr.val), maps := x.maps.filter (fun m => m.1 != cr.val) } t)
    ∧ (free → x.isMapped cr = false → x.maps.length < 2 → a % 4096 = 0 → s.canStore n k a 4096 = true →
        ∃ t, exec (.crateMap n cr rs1) s = .next t
          ∧ t.slot n k = { next with full := insN cr x.full, maps := x.maps ++ [(cr.val, a)] }
          ∧ (t.island n).crate cr = (if x.isFull cr then i.crate cr else .empty)
          ∧ (∀ b, b ≠ cr.val → (t.island n).crate b = i.crate b)
          ∧ s.onlyUnit n k (fun y => { y with crates := i.crates }) t)
    ∧ (free → x.isMapped cr = true →
        ∃ t, exec (.crateUnmap n cr) s = .next t ∧ s.commits n k { next with maps := x.maps.filter (fun m => m.1 != cr.val) } t)
    ∧ (¬free → x.isMapped cr = false →
        exec (.crateZero n cr) s = .next s ∧ exec (.crateRelease n cr) s = .next s)
    ∧ (s.handles n k →
        (∀ r, RowWord.of (s.greg n k rs2) = some r → x.isMapped cr = false → x.isFull cr = false →
          ∃ t, exec (.crateStore n cr rs1 rs2 p6) s = .next t ∧ s.entersHandler n k 6 x.pc (cr.val + 1 * 256) false t)
        ∧ (∀ r, RowWord.of (s.greg n k rs2) = some r → x.isMapped cr = true →
          ∃ t, exec (.crateLoad n cr rs1 rs2 p6) s = .next t ∧ s.entersHandler n k 6 x.pc (cr.val + 2 * 256) false t)
        ∧ (x.isMapped cr = false →
          ∃ t, exec (.crateUnmap n cr) s = .next t ∧ s.entersHandler n k 6 x.pc (cr.val + 3 * 256) false t)
        ∧ (RowWord.of (s.greg n k rs2) = none →
          ∃ t, exec (.crateLoad n cr rs1 rs2 p6) s = .next t ∧ s.entersHandler n k 6 x.pc (6 * 256) false t))

/-- A crate transfer that completes has moved every row, packed or not, and touched nothing else (R166, R169, R170,
R171, R176). For the next transfer of its slot to complete, where the slot's crates stand in the unit, no earlier Grid
operation shares a row with it that one of them writes, and no vector program stands before a load: a load fills crate
row FIRST + j from the Shelf row at address + j x STRIDE for every j below COUNT (128 bytes as they are, or 96 bytes
unpacked to one element a byte), leaves the crate's other rows as they were, or zero where the crate was EMPTY, and
leaves the Shelf alone; a store whose rows do not overlap writes each Shelf row from its crate row, and leaves every
Shelf byte outside the rows and the crate alone; a transfer whose rows an earlier GRID_OP_DONE has moved moves nothing
more. The transfer leaves the queue. An ECC error that its words met is counted first (corrected), or the word is
poisoned, counted and logged (R176). Behind an earlier operation in the array that shares a row with it the transfer
is over, and its rows move when that operation completes. A swap of crates that nothing holds back ends with the
incoming slot as owner. (Where the spec leaves a point open the statement takes the model's choice: log entry 48.) It
concludes that these commands answer a next state: crateXferDone, crateSwapDone. -/
def Obligations.CrateTransfersMoveRows : Prop :=
  (∀ (s : State) (n : IslN) (x : Xfer), (s.island n).xferNext x → (s.island n).standing x.slot = true →
    (∀ g ∈ (s.island n).grid, g.slot = x.slot → g.ord < x.ord → x.clashes g = true → g.started = true) →
    let ten := match s.task? (s.slot n x.slot).task with | some t => t.tenant | none => noTenant
    (∀ e : CrateErr, e.fatal = false → exec (.crateXferDone n ⟨x.ord, [e]⟩) s
        = exec (.crateXferDone n ⟨x.ord, []⟩) (s.modIsl n (fun i => { i with crCorr := sat1 32 i.crCorr })))
    ∧ (∀ e : CrateErr, e.fatal = true → exec (.crateXferDone n ⟨x.ord, [e]⟩) s
        = exec (.crateXferDone n ⟨x.ord, []⟩) (((s.modCrate n e.crate.val (fun c => c.mark [8 * e.word.val])).modIsl n
            (fun i => { i with crUncorr := sat1 16 i.crUncorr })).emit (0x10 + n.val) 4 2 ten 3
              [2 ^ 63 + e.crate.val * 4096 + 8 * e.word.val]))
    ∧ ((∃ g ∈ (s.island n).grid, g.slot = x.slot ∧ g.ord < x.ord ∧ x.clashes g = true) → x.moved = false →
        ∃ t, exec (.crateXferDone n ⟨x.ord, []⟩) s = .next t
          ∧ (t.island n).xfers = (s.island n).xfers.map (fun y => if y.ord = x.ord then { y with done := true } else y)
          ∧ s.onlyIsl n t ∧ { t.island n with xfers := (s.island n).xfers } = s.island n))
  ∧ (∀ (s : State) (n : IslN) (x : Xfer), (s.island n).xferNext x →
    let i := s.island n
    i.standing x.slot = true → i.xferFree x → x.first + x.count ≤ 32 →
    let rb := if x.p6 then 96 else 128
    ∃ t, exec (.crateXferDone n ⟨x.ord, []⟩) s = .next t ∧ (t.island n).xfers = i.xfers.filter (fun y => y.ord != x.ord)
      ∧ s.onlyIsl n t ∧ (∀ j, t.slot n j = s.slot n j)
      ∧ (x.moved = true → { t.island n with xfers := i.xfers } = i)
      ∧ (x.moved = false → x.store = false →
          (∀ j < x.count, Mem.read ((t.island n).crate x.crate).mem ((x.first + j) * 128) 128 =
            let b := Mem.read i.shelf.mem (x.addr + j * x.stride) rb
            if x.p6 then unpack6 b else b)
          ∧ (∀ a, a < x.first * 128 ∨ (x.first + x.count) * 128 ≤ a →
            Mem.byte ((t.island n).crate x.crate).mem a = if x.fresh then 0 else Mem.byte (i.crate x.crate).mem a)
          ∧ (∀ b, b ≠ x.crate → (t.island n).crate b = i.crate b) ∧ (t.island n).shelf = i.shelf)
      ∧ (x.moved = false → x.store = true → (rb ≤ x.stride ∨ x.count ≤ 1) →
          (∀ j < x.count, Mem.read (t.island n).shelf.mem (x.addr + j * x.stride) rb =
            let b := Mem.read (i.crate x.crate).mem ((x.first + j) * 128) 128
            if x.p6 then pack6 b else b)
          ∧ (∀ a, (∀ j < x.count, a < x.addr + j * x.stride ∨ x.addr + j * x.stride + rb ≤ a) →
            Mem.byte (t.island n).shelf.mem a = Mem.byte i.shelf.mem a)
          ∧ (t.island n).crates = i.crates))
  ∧ ∀ (s : State) (n : IslN) (k : Nat) (rest : List Nat), (s.island n).swapTo = k :: rest →
      (∀ x ∈ (s.island n).xfers, x.slot = (s.island n).owner → x.slot = k) →
      (∀ g ∈ (s.island n).grid, g.slot = (s.island n).owner → g.slot = k) →
    ∃ t, exec (.crateSwapDone ⟨n, []⟩) s = .next t ∧ (t.island n).owner = k ∧ (t.island n).swapTo = rest
      ∧ (t.slot n k).saved = [] ∧ (t.slot n k).regs = (s.slot n k).regs ∧ (t.slot n k).pc = (s.slot n k).pc
      ∧ s.onlyIsl n t

/-- GRID.FMT sets the format pair, GRID.MM and GRID.MMA queue an operation, and the head operation starts when it may
(R160, R161, R166, R167, R168, Tables 8-1 and 8-5). For a running slot: GRID.FMT with a pair its room may use sets the
pair and commits, changing nothing else; with any other word it enters the handler with CRATE_FAULT, reason FORMAT.
GRID.MM and GRID.MMA with a pair set, operands that R167 admits, no named crate overlaid, every crate read FULL and
fewer than 8 operations queued, commit, queue one operation with those operands and make both crates of its view FULL;
with 8 queued they stall. The first operation that has not started enters the array when its slot's crates stand in
the unit, no earlier load of its slot still runs that brings its B rows or their scales, and in a room on the Restart
path no earlier operation of its slot still writes a view it reads; the cycles it waited add to the stall counts, a
free amount where it may have waited. (Where the spec leaves a point open the statement takes the model's choice: log
entries 42, 45, 48, 49.) It concludes that these commands answer a next state: gridFmt, gridMm, gridMma, gridOpStart.
-/
def Obligations.GridInstructionsQueueOperations : Prop :=
  (∀ (s : State) (n : IslN) (k : Nat) (rs1 : Reg), s.runsAt n k →
    let x := s.slot n k
    let i := s.island n
    let w := OpWord.of (s.greg n k rs1)
    (∀ p, fmtPair (s.slotNumeric n k) (s.greg n k rs1) = some p →
      ∃ t, exec (.gridFmt n rs1) s = .next t ∧ s.commits n k { x with fmt := some p, pc := x.pc + 4 } t)
    ∧ (fmtPair (s.slotNumeric n k) (s.greg n k rs1) = none → s.handles n k →
      ∃ t, exec (.gridFmt n rs1) s = .next t ∧ s.entersHandler n k 6 x.pc (4 * 256) false t)
    ∧ (∀ mma fa fb, x.fmt = some (fa, fb) → operandBad fa fb w = false →
      let scale := if mxPair fa fb then w.scale else none
      (∀ c ∈ [w.acr, w.bcr, 2 * w.av, 2 * w.av + 1] ++ w.scale.toList, x.isMapped c = false) →
      (∀ c ∈ [w.acr, w.bcr] ++ scale.toList, x.isFull c = true) →
      (mma = true → x.isFull (2 * w.av) = true ∧ x.isFull (2 * w.av + 1) = true) →
      (i.grid.length < 8 →
        ∃ t, exec (if mma then .gridMma n rs1 else .gridMm n rs1) s = .next t
          ∧ t.slot n k = { x with pc := x.pc + 4, full := insN (2 * w.av + 1) (insN (2 * w.av) x.full) }
          ∧ (t.island n).grid = i.grid ++ [
              { slot := k, mma := mma, fa := fa, fb := fb, acr := w.acr, bcr := w.bcr, av := w.av,
                scale := scale, ag := w.ag, bg := w.bg, depth := w.depth, ord := i.ord, epc := x.pc, started := false,
                row := 0, late := i.slotBusy k, swapped := !i.inPlace k }]
          ∧ s.onlyUnit n k (fun y => { y with grid := i.grid }) t)
      ∧ (8 ≤ i.grid.length → exec (if mma then .gridMma n rs1 else .gridMm n rs1) s = .next s)))
  ∧ ∀ (s : State) (n : IslN) (g : GridOp), (s.island n).grid.find? (fun h => !h.started) = some g →
      (s.island n).standing g.slot = true →
      (∀ x ∈ (s.island n).xfers, x.slot = g.slot → x.ord < g.ord → x.store = false → x.done = false →
        x.crate ≠ g.bcr ∧ ((fmtOf g.fb).isMx = true → x.crate ∉ g.scale.toList)) →
      (∀ tk, s.task? (s.slot n g.slot).task = some tk → s.restarts tk.room = true →
        ∀ h ∈ (s.island n).grid, h.slot = g.slot → h.ord < g.ord →
          ∀ c ∈ [2 * h.av, 2 * h.av + 1], c ∉ g.reads ∧ (g.mma = true → c ∉ g.view)) →
    ∃ t, exec (.gridOpStart n) s = .next t
      ∧ (t.island n).grid = (s.island n).grid.map (fun h => if h.ord = g.ord then { h with started := true } else h)
      ∧ t.free = s.free + (if g.late then 1 else 0) + (if g.swapped then 1 else 0)
      ∧ (g.late = false → (t.island n).opndStall % 2 ^ 32 = (s.island n).opndStall % 2 ^ 32)
      ∧ (g.swapped = false → (t.island n).swapStall % 2 ^ 32 = (s.island n).swapStall % 2 ^ 32)
      ∧ s.onlyIsl n { t with free := s.free }
      ∧ { t.island n with grid := (s.island n).grid, opndStall := (s.island n).opndStall, swapStall := (s.island n).swapStall }
          = s.island n

/-- A Grid operation that completes leaves in its view the sums its row-steps give, counts its cycles and sticks its
flags (R158, R159, R172, R177, R203, R213). For a started head operation whose slot's crates stand in the unit, of a
live task of a room that traps no flag, with no transfer of its slot queued, no residue mismatch, no ECC error and no
poison met: its island's crates become those that the 32 x depth row-steps leave, the operation leaves the queue, the
Grid's cycle count grows by the row-steps done times the cycles of one, and its flags stick in the slot, the task and
the island; nothing else changes. No crate but the two of its view changes. A first residue mismatch, in a room on the
Resume path below Level T, is counted and logged, the operation goes on from the row-step that failed, and one retry
is counted. (Where the spec leaves a point open the statement takes the model's choice: log entry 49.) It concludes
that these commands answer a next state: gridOpDone. -/
def Obligations.GridOperationAccumulatesItsRows : Prop :=
  ∀ (s : State) (n : IslN) (g : GridOp) (rest : List GridOp) (tk : Task), (s.island n).grid = g :: rest → g.started = true →
      (s.island n).standing g.slot = true → s.task? (s.slot n g.slot).task = some tk → (s.numeric tk.room).traps = 0 →
      (∀ x ∈ (s.island n).xfers, x.slot ≠ g.slot ∧ ¬(x.done = true ∧ x.moved = true)) →
    let i := s.island n
    let mode := (s.numeric tk.room).mode
    let r := gridRows mode 0 g 0 (32 * g.depth) { crates := i.crates, flags := 0, rows := 0, stop := none }
    r.stop = none →
    (∀ q, q < 32 * g.depth → s.residueOff = false → s.restarts tk.room = false → s.levelT tk.room = false →
      ∃ t, exec (.gridOpDone n ⟨.once q, []⟩) s = .next t ∧ (t.island n).resMis = sat 16 (i.resMis + 1)
        ∧ (t.island n).resRetried = sat 16 (i.resRetried + 1) ∧ (t.slot n g.slot).startRow = q
        ∧ NMap.getD (t.island n).startRows g.slot 0 = q ∧ (t.island n).grid = i.grid.filter (fun h => h.ord != g.ord))
    ∧ ∃ t, exec (.gridOpDone n ⟨.clean, []⟩) s = .next t ∧ (t.island n).crates = r.crates
      ∧ (∀ c, c ≠ 2 * g.av → c ≠ 2 * g.av + 1 → (t.island n).crate c = i.crate c)
      ∧ (t.island n).grid = i.grid.filter (fun h => h.ord != g.ord)
      ∧ (t.island n).gridCycles =
          (i.gridCycles + r.rows * if (fmtOf g.fa).bits = 16 ∨ (fmtOf g.fb).bits = 16 then 4 else 1) % 2 ^ 64
      ∧ (t.slot n g.slot).nflags = (s.slot n g.slot).nflags ||| BitVec.ofNat 64 (r.flags % 16)
      ∧ t.task? (s.slot n g.slot).task = some { tk with nflags := tk.nflags ||| BitVec.ofNat 64 (r.flags % 16) }
      ∧ (t.island n).shelf = i.shelf ∧ (∀ j, j ≠ g.slot → t.slot n j = s.slot n j)
      ∧ { t with isl := s.isl, tasks := s.tasks } = s ∧ ∀ m, m ≠ n.val → t.island m = s.island m

/-- Flags stick, and a flag that the room traps ends the task with NUMERIC_TRAP (R213, R214, R151, Table 7-6). For
every flag word of a slot of a live task: raising it sets those flags in the slot, in the island's register and in the
task; where the room traps none of them, no slot changes but for the flags; where it traps one, the task has
NUMERIC_TRAP (0x21) with DETAIL 0x11 and the island in bits 13 to 8, unless it already had a status, the island's
count of trapped flags is one more, and an event of the island carries the number of the lowest trapped flag and EPC:
its class, code and severity are not stated and free. (Where the spec leaves a point open the statement takes the
model's choice: log entries 52, 82.) -/
def Obligations.TrappedFlagsEndTheTask : Prop :=
  ∀ (s : State) (n k epc : Nat) (w : Word) (tk : Task), s.task? (s.slot n k).task = some tk →
    let t := s.raiseFlags n k epc w
    let hit := ∃ i < 16, w.getLsbD i = true ∧ nbit (s.numeric tk.room).traps (i % 4) = true
    (t.island n).nflags = (s.island n).nflags ||| w ∧ (t.slot n k).nflags = (s.slot n k).nflags ||| w
    ∧ (¬hit → t.slot n k = { s.slot n k with nflags := (s.slot n k).nflags ||| w }
        ∧ t.task? (s.slot n k).task = some { tk with nflags := tk.nflags ||| w }
        ∧ (t.island n).trapped = (s.island n).trapped)
    ∧ (hit → t.task? (s.slot n k).task
            = some { tk with nflags := tk.nflags ||| w, status := some (tk.status.getD (0x21, 0x11 + n * 256)) }
        ∧ (t.island n).trapped = sat 16 ((s.island n).trapped + 1) ∧ t.free = s.free + 1
        ∧ ∃ i cls code sev, w.getLsbD i = true ∧ nbit (s.numeric tk.room).traps (i % 4) = true ∧ i < 16
          ∧ (∀ j < i, w.getLsbD j = true → nbit (s.numeric tk.room).traps (j % 4) = false)
          ∧ cls < 13 ∧ code < 2 ^ 16 ∧ sev < 5 ∧ s.raises (0x10 + n) cls code tk.tenant sev [i, epc] t)

/-- VEC.RUN queues a program, VEC.SYNC orders it, a program starts with its argument, and VEND, VNOP, VADDP, VIMM and
VBCAST act on it (R216, R217, R218, R219, R222, Table 11-3). For a running slot with no undelivered vector fault and
fewer than 4 programs queued, VEC.RUN with an aligned address in the pinned region commits and queues the program;
with 4 queued it stalls. VEC.SYNC commits and marks the commit order behind which later programs wait. A head program
whose synchronisation is met starts with its argument in p0 and every other register zero. In a program that runs:
VEND ends it and counts it, VNOP only goes on, VADDP adds the immediate to an address register, VIMM and VBCAST fill
every lane. Nothing else changes, but that a program which may have waited adds a free amount to the island's count of
waiting cycles as it starts and as it ends, and that rows of completed transfers may move once a program before them
has ended. (Where the spec leaves a point open the statement takes the model's choice: log entries 42, 45, 48, 50.) It
concludes that these commands answer a next state: vecRun, vecSync, vecProgramStart, vend, vnop, vaddp, vbcast, vimm.
-/
def Obligations.VectorControlInstructions : Prop :=
  (∀ (s : State) (n : IslN) (k : Nat) (rs1 rs2 : Reg), s.runsAt n k →
    let x := s.slot n k
    let i := s.island n
    let a := (s.greg n k rs1).toNat
    (x.vfault = none → a % 8 = 0 → a + 8 ≤ s.pin n → i.vec.length < 4 →
      ∃ t, exec (.vecRun n rs1 rs2) s = .next t ∧ t.slot n k = { x with pc := x.pc + 4 }
        ∧ (t.island n).vec = i.vec ++ [
            { slot := k, addr := a, arg := s.greg n k rs2, ord := i.ord, epc := x.pc,
              sync := x.vsync, full := x.full, late := x.vsync.isSome || i.slotBusy k || !i.inPlace k, started := false,
              pc := 0, v := [], p := [] }]
        ∧ s.onlyUnit n k (fun y => { y with vec := i.vec }) t)
    ∧ (x.vfault = none → a % 8 = 0 → a + 8 ≤ s.pin n → 4 ≤ i.vec.length → exec (.vecRun n rs1 rs2) s = .next s)
    ∧ ∃ t, exec (.vecSync n) s = .next t ∧ t.slot n k = { x with vsync := some i.ord, pc := x.pc + 4 }
        ∧ s.onlyUnit n k id t)
  ∧ (∀ (s : State) (n : IslN) (v : VecOp) (rest : List VecOp), (s.island n).vec = v :: rest → v.started = false →
      s.syncDone n v = true →
    ∃ t, exec (.vecProgramStart n) s = .next t
      ∧ (t.island n).vec = { v with started := true, pc := 0, v := [], p := [v.arg] } :: rest
      ∧ t.free = s.free + (if v.late then 1 else 0) ∧ (v.late = false → (t.island n).vecStall = (s.island n).vecStall)
      ∧ s.onlyIsl n { t with free := s.free }
      ∧ { t.island n with vec := (s.island n).vec, vecStall := (s.island n).vecStall } = s.island n)
  ∧ ∀ (s : State) (n : IslN) (f : VFields) (v : VecOp) (tk : Task), s.vecRuns n v tk →
    (∃ t, exec (.vend n f) s = .next t ∧ (t.island n).vec = (s.island n).vec.filter (fun u => u.ord != v.ord)
      ∧ (t.island n).vecDone = ((s.island n).vecDone + 1) % 2 ^ 32
      ∧ (t.island n).vecCycles = ((s.island n).vecCycles + 2) % 2 ^ 64
      ∧ t.free = s.free + (if v.late then 1 else 0) ∧ s.onlyIsl n { t with free := s.free } ∧ (∀ j, t.slot n j = s.slot n j)
      ∧ ((∀ x ∈ (s.island n).xfers, x.done = false) →
          { t.island n with vec := (s.island n).vec, vecDone := (s.island n).vecDone, vecCycles := (s.island n).vecCycles,
                            vecStall := (s.island n).vecStall } = s.island n))
    ∧ (∃ t, exec (.vnop n f) s = .next t ∧ s.vecSteps n v v 1 0 t)
    ∧ (∃ t, exec (.vaddp n f) s = .next t
        ∧ s.vecSteps n v (v.setP (f.vd.val % 8) (v.preg (f.va.val % 8) + BitVec.ofInt 64 f.imm.toInt)) 1 0 t)
    ∧ (∃ t, exec (.vimm n f) s = .next t
        ∧ s.vecSteps n v (v.setReg f.vd.val (List.replicate 128 (f.imm.toInt % 2 ^ 32).toNat)) 1 0 t)
    ∧ ∃ t, exec (.vbcast n f) s = .next t
        ∧ s.vecSteps n v (v.setReg f.vd.val (List.replicate 128 (v.lane f.va.val (f.imm.toNat % 128)))) 1 0 t

/-- Each binary32 lane instruction writes its operation's result to every lane of VD and sticks the flags of all lanes
(R218, R223, R225, R226, R213, Table 11-3). For VADD, VSUB, VMUL, VFMA, VMAX, VMIN, VABS, VNEG, VCMPLT, VSEL, VCVTIF
and VCVTFI in a running program of a room that traps no flag: every lane of VD gets the operation's result on the same
lane of VA, VB and VC under the room's arithmetic mode, the vector flags of all 128 lanes stick, one cycle is counted,
and nothing else changes. VSEL takes VA where the VC lane is not 0 and VB elsewhere, and sets no flag. (Where the spec
leaves a point open the statement takes the model's choice: log entry 51.) It concludes that these commands answer a
next state: vadd, vsub, vmul, vfma, vmax, vmin, vabs, vneg, vcmplt, vsel, vcvtif, vcvtfi. -/
def Obligations.VectorFloatLanes : Prop :=
  let does := fun (c : IslN → VFields → Instr) (op : Nat → Nat → Nat → Nat → Nat × Flags) =>
    ∀ (s : State) (n : IslN) (f : VFields) (v : VecOp) (tk : Task), s.vecRuns n v tk →
      let r := lanesOf (fun l => op (s.numeric tk.room).mode (v.lane f.va.val l) (v.lane f.vb.val l) (v.lane f.vc.val l))
      ∃ t, exec (c n f) s = .next t ∧ s.vecSteps n v (v.setReg f.vd.val r.1) 1 (placeFlags engVec r.2) t
  does .vadd (fun m a b _ => lAdd m a b) ∧ does .vsub (fun m a b _ => lSub m a b) ∧ does .vmul (fun m a b _ => lMul m a b)
    ∧ does .vfma lFma ∧ does .vmax (fun m a b _ => lMaxMin false m a b) ∧ does .vmin (fun m a b _ => lMaxMin true m a b)
    ∧ does .vabs (fun m a _ _ => lAbs m a) ∧ does .vneg (fun m a _ _ => lNeg m a) ∧ does .vcmplt (fun m a b _ => lCmpLt m a b)
    ∧ does .vsel (fun _ a b c => (if c = 0 then b else a, 0))
    ∧ does .vcvtif (fun m a _ _ => lCvtIF m a) ∧ does .vcvtfi (fun m a _ _ => lCvtFI m a)

/-- Each INT32 lane instruction writes its wrapped result to every lane of VD and sets no flag (R218, R225, Table
11-3). For VIADD, VISUB, VIMUL, VAND, VOR, VXOR, VSHL, VSHRL, VSHRA, VIMIN and VIMAX in a running program of a room
that traps no flag: every lane of VD gets the result on the same lane of VA and VB, wrapped to 32 bits, shifts by the
low five bits of the VB lane, VSHRA, VIMIN and VIMAX on signed lanes; no flag sets, one cycle is counted, and nothing
else changes. It concludes that these commands answer a next state: viadd, visub, vimul, vand, vor, vxor, vshl, vshrl,
vshra, vimin, vimax. -/
def Obligations.VectorIntegerLanes : Prop :=
  let does := fun (c : IslN → VFields → Instr) (op : Nat → Nat → Nat) =>
    ∀ (s : State) (n : IslN) (f : VFields) (v : VecOp) (tk : Task), s.vecRuns n v tk →
      ∃ t, exec (c n f) s = .next t
        ∧ s.vecSteps n v (v.setReg f.vd.val ((List.range 128).map (fun l =>
            op (v.lane f.va.val l) (v.lane f.vb.val l) % 2 ^ 32))) 1 0 t
  does .viadd (fun a b => a + b) ∧ does .visub (fun a b => a + 2 ^ 32 - b) ∧ does .vimul (fun a b => a * b)
    ∧ does .vand (fun a b => a &&& b) ∧ does .vor (fun a b => a ||| b) ∧ does .vxor (fun a b => a ^^^ b)
    ∧ does .vshl (fun a b => a * 2 ^ (b % 32)) ∧ does .vshrl (fun a b => a / 2 ^ (b % 32))
    ∧ does .vshra (fun a b => (signed 32 a / 2 ^ (b % 32) % 2 ^ 32).toNat)
    ∧ does .vimin (fun a b => if signed 32 b < signed 32 a then b else a)
    ∧ does .vimax (fun a b => if signed 32 a < signed 32 b then b else a)

/-- Vector loads fill VD from memory in the format named, and vector stores write the lanes converted to it (R219,
R220, R221, R222, R227, R228, Tables 11-2 and 11-3). In a running program of a room that traps no flag, where the
format and count are admitted and the places named are reachable and owed nothing: VLD converts the codes it reads,
with their scales, to binary32 lanes; VLDI reads integers as they are; VLDW reads 40-bit accumulator words into wide
lanes; VST, VSTI and VSTW write the codes of the lanes (VSTW of the wide lanes, or the accumulator words as they are)
over the places named. A load leaves lanes past its count zero and changes no memory; a store changes no register. A
format or count that is not admitted stops the program with ILLEGAL. Each goes on to the next instruction with the
conversion flags stuck. (Where the spec leaves a point open the statement takes the model's choice: log entries 50,
51.) It concludes that these commands answer a next state: vld, vldi, vldw, vst, vsti, vstw. -/
def Obligations.VectorMemoryInstructions : Prop :=
  ∀ (s : State) (n : IslN) (f : VFields) (v : VecOp) (tk : Task), s.vecRuns n v tk →
    let nc := s.numeric tk.room
    let a := v.preg f.p.val
    let pad := fun (xs : List Nat) => (xs ++ List.replicate 128 0).take 128
    (∀ fm count ps qs, vFmt f.fmt.val = some fm → vCount f = some count → (fm.isMx = true → count % 32 = 0) →
      (s.vecPlaces n v f fm count false = .ok (ps, qs) → s.ready n v (ps ++ qs) = true → s.badPiece n (ps ++ qs) = none →
        let codes := codesOf fm count (s.readPieces n ps)
        (let r := loadLanes nc fm codes (s.readPieces n qs)
         ∃ t, exec (.vld n f) s = .next t
          ∧ s.vecSteps n v (v.setReg f.vd.val (pad r.1)) (memCycles a (elemsB fm count)) (placeFlags engConv r.2) t)
        ∧ (intLane fm = true →
         ∃ t, exec (.vldi n f) s = .next t ∧ t.free = s.free + codes.length
          ∧ s.vecSteps n v (v.setReg f.vd.val (pad (s.vecLdi fm codes).1)) (memCycles a (elemsB fm count)) 0
              { t with free := s.free }))
      ∧ (s.vecPlaces n v f fm count true = .ok (ps, qs) → s.ready n v (ps ++ qs) = true →
        let ins := ((v.reg f.va.val).take count).map (laneIn nc.mode)
        (let c := storeCodes nc fm (ins.map (·.1))
         let u := State.writePieces n v qs c.2.1
           (State.writePieces n v ps (bytesOf fm c.1 (s.readPieces n ps)) s)
         ∃ t, exec (.vst n f) s = .next t
          ∧ u.vecSteps n v v (memCycles a (elemsB fm count)) (placeFlags engConv (c.2.2 ||| ins.foldl (fun b x => b ||| x.2) 0)) t)
        ∧ (intLane fm = true →
         let ys := ((v.reg f.va.val).take count).map (fun x => fm.convert 0 0 (.ofInt (signed 32 x) 0))
         let u := State.writePieces n v qs []
           (State.writePieces n v ps (bytesOf fm (ys.map (·.1)) (s.readPieces n ps)) s)
         ∃ t, exec (.vsti n f) s = .next t
          ∧ u.vecSteps n v v (memCycles a (elemsB fm count)) (placeFlags engVec (ys.foldl (fun b y => b ||| y.2) 0)) t)))
    ∧ (f.fmt.val = 0x12 → ∀ count, wCount f = some count →
        (∀ ps, s.wideAccess n v f count false = .ok ps → s.ready n v ps = true → s.badPiece n ps = none →
          ∃ t, exec (.vldw n f) s = .next t ∧ s.vecSteps n v (v.setReg f.vd.val (ofWides
              ((List.range count).map (fun i => leAt (s.readPieces n ps) (8 * i) 8 % 2 ^ 40)))) (memCycles a (8 * count)) 0 t)
        ∧ ∀ ps, s.wideAccess n v f count true = .ok ps → s.ready n v ps = true →
          let u := State.writePieces n v ps ((List.range count).flatMap (fun i => le 8 (wideOf (v.reg f.va.val) i))) s
          ∃ t, exec (.vstw n f) s = .next t ∧ u.vecSteps n v v (memCycles a (8 * count)) 0 t)
    ∧ (∀ fm count ps qs, vFmt f.fmt.val = some fm → wCount f = some count → (fm.isMx = true → count % 32 = 0) →
        s.vecPlaces n v f fm count true = .ok (ps, qs) → s.ready n v (ps ++ qs) = true →
        let c := storeCodes nc fm ((List.range count).map (fun i => accVal (wideOf (v.reg f.va.val) i)))
        let u := State.writePieces n v qs c.2.1
          (State.writePieces n v ps (bytesOf fm c.1 (s.readPieces n ps)) s)
        ∃ t, exec (.vstw n f) s = .next t ∧ u.vecSteps n v v (memCycles a (elemsB fm count)) (placeFlags engConv c.2.2) t)
    ∧ (vFmt f.fmt.val = none →
        ∃ t, exec (.vld n f) s = .next t ∧ (t.slot n v.slot).vfault = some (1, v.at_)
          ∧ (t.island n).vec = (s.island n).vec.filter (fun u => u.slot != v.slot) ∧ s.onlyIsl n { t with free := s.free })

/-- Wide-lane, row, tree, strict-dot and depthwise instructions write VD from their rows in the cycles of Table 11-3
(R205, R210, R218, R236, R237, R238, R239, Table 11-3). In a running program of a room that traps no flag: VADDW adds
wide lanes as accumulators and VCVTFW converts lanes 0 to 63 to wide lanes; VRMAX writes the row's maximum, and VRSUM,
VRMEAN and VRMS the row's canonical tree of the elements, divided by N, and of the squares divided by N, to every lane
of VD; VRVAR the tree of the squared differences from VB's lane 0 divided by N; VTREE the tree over lanes 0 to
IMM[6:0]; VDW the chain of T products into each lane; VSDOT in its mode the strict dot product into its lane. Each
goes on to the next instruction in the cycles that Table 11-3 gives, with its flags stuck, and changes nothing else.
(Where the spec leaves a point open the statement takes the model's choice: log entry 50.) It concludes that these
commands answer a next state: vaddw, vcvtfw, vrmax, vrsum, vrmean, vrvar, vrms, vtree, vsdot, vdw. -/
def Obligations.VectorWideAndRowInstructions : Prop :=
  ∀ (s : State) (n : IslN) (f : VFields) (v : VecOp) (tk : Task), s.vecRuns n v tk →
    let nc := s.numeric tk.room
    let im := f.imm.toNat
    let fill := fun (c : IslN → VFields → Instr) (cycles : Nat) (y : Nat × Flags) =>
      ∃ t, exec (c n f) s = .next t
        ∧ s.vecSteps n v (v.setReg f.vd.val (List.replicate 128 y.1)) cycles (placeFlags engVec y.2) t
    let wide := fun (c : IslN → VFields → Instr) (ys : List (Nat × Flags)) =>
      ∃ t, exec (c n f) s = .next t ∧ s.vecSteps n v (v.setReg f.vd.val (ofWides (ys.map (·.1)))) 1
        (placeFlags engVec (ys.foldl (fun a y => a ||| y.2) 0)) t
    wide .vaddw ((List.range 64).map (fun i => accAdd (wideOf (v.reg f.va.val) i) (wideOf (v.reg f.vb.val) i)))
    ∧ wide .vcvtfw ((List.range 64).map (fun i => lToWide nc.mode (v.lane f.va.val i)))
    ∧ fill .vtree 8 (rowSum nc.mode ((v.reg f.va.val).take (im % 128 + 1)))
    ∧ (∀ nn r, rowLen f f.va.val = some (nn, r) →
        let xs := v.row f.va.val nn
        let or := fun (y : Nat × Flags) (fl : Flags) => (y.1, y.2 ||| fl)
        fill .vrmax (r + 8) (xs.tail.foldl (fun (a : Nat × Flags) x =>
            let y := lMaxMin false nc.mode a.1 x
            (y.1, a.2 ||| y.2)) (laneOut nc.mode (laneIn nc.mode (xs.headD 0))))
        ∧ (im / 2 ^ 14 % 2 = 0 → fill .vrsum (r + 8) (rowSum nc.mode xs))
        ∧ fill .vrmean (r + 10) (laneDiv nc.mode (rowSum nc.mode xs) nn)
        ∧ (let q := mapRow (fun x => lMul nc.mode x x) xs
           im / 2 ^ 14 % 2 = 0 → fill .vrms (r + 10) (or (laneDiv nc.mode (rowSum nc.mode q.1) nn) q.2))
        ∧ (let q := mapRow (fun x => let d := lSub nc.mode x (v.lane f.vb.val 0); let y := lMul nc.mode d.1 d.1; (y.1, d.2 ||| y.2)) xs
           fill .vrvar (2 * r + 10) (or (laneDiv nc.mode (rowSum nc.mode q.1) nn) q.2))
        ∧ ∀ y, sdot nc f v nn xs = some y →
            ∃ t, exec (.vsdot n f) s = .next t ∧ s.vecSteps n v y.prog (r + 8) (placeFlags engVec y.vec) t)
    ∧ (let T := im % 32
       1 ≤ T → T ≤ 16 → f.va.val + T ≤ 32 → f.vb.val + T ≤ 32 →
        let r := lanesOf (fun l => dwChain nc.mode (v.lane f.vd.val l)
          ((List.range T).map (fun i => (v.lane (f.va.val + i) l, v.lane (f.vb.val + i) l))))
        ∃ t, exec (.vdw n f) s = .next t ∧ s.vecSteps n v (v.setReg f.vd.val r.1) T (placeFlags engVec r.2) t)

/-- VSFU, VGATE and VRSEXP evaluate the room's special functions lane by lane, and the value is free where the manual
states none (R229, R230, R236, R213, Tables 11-3 and 11-4). In a running program of a room that traps no flag: VSFU
writes to each lane of VD the function that IMM[3:0] names of the same lane of VA, by the room's method, with its
flags in the SFU field; VGATE multiplies each lane of VA by the function of the VB lane, for the functions it admits;
VRSEXP replaces every row element by the exponential of its difference from VB's lane 0 and writes the row's tree sum
to every lane of VD. Where a lane's function has no stated result the value is free, drawn lane by lane. A function
number that is not admitted stops the program with ILLEGAL. (Where the spec leaves a point open the statement takes
the model's choice: log entries 4, 51.) It concludes that these commands answer a next state: vsfu, vgate, vrsexp. -/
def Obligations.SpecialFunctionInstructions : Prop :=
  ∀ (s : State) (n : IslN) (f : VFields) (v : VecOp) (tk : Task), s.vecRuns n v tk →
    let nc := s.numeric tk.room
    let it := nc.sfu == 1
    let fn := f.imm.toNat % 16
    let cyc := if it then 16 else 4
    let draw := fun (l : Nat) => (Config.freeValue (s.free + l)).toNat % 2 ^ 32
    let counted := fun (k : Nat) =>
      s.modIsl n (fun i => { i with sfuPwl := if it then i.sfuPwl else (i.sfuPwl + k) % 2 ^ 32
                                    sfuIter := if it then (i.sfuIter + k) % 2 ^ 32 else i.sfuIter })
    (fn ≤ 12 →
      let r := lanesOf (fun l => sfu nc.mode it (draw l) fn (v.lane f.va.val l))
      ∃ t, exec (.vsfu n f) s = .next t ∧ t.free = s.free + 128
        ∧ (counted 1).vecSteps n v (v.setReg f.vd.val r.1) cyc (placeFlags engSfu r.2) { t with free := s.free })
    ∧ ((fn = 4 ∨ fn = 6 ∨ fn = 7 ∨ fn = 8) →
      let y := fun l => sfu nc.mode it (draw l) fn (v.lane f.vb.val l)
      let r := lanesOf (fun l => lMul nc.mode (v.lane f.va.val l) (y l).1)
      ∃ t, exec (.vgate n f) s = .next t ∧ t.free = s.free + 128
        ∧ (counted 1).vecSteps n v (v.setReg f.vd.val r.1) cyc (placeFlags engVec r.2 ||| placeFlags engSfu (lanesOf y).2)
            { t with free := s.free })
    ∧ (∀ nn r, rowLen f f.va.val = some (nn, r) → f.imm.toNat / 2 ^ 14 % 2 = 0 →
      let ds := mapRow (fun x => lSub nc.mode x (v.lane f.vb.val 0)) (v.row f.va.val nn)
      let es := mapRow (fun d => sfu nc.mode it 0 (f.imm.toNat / 2 ^ 13 % 2) d) ds.1
      let sum := rowSum nc.mode es.1
      ∃ t v', exec (.vrsexp n f) s = .next t ∧ v'.slot = v.slot ∧ v'.ord = v.ord ∧ v'.pc = v.pc ∧ v'.p = v.p
        ∧ (∀ l < 128, v'.lane f.vd.val l = sum.1)
        ∧ (∀ e < nn, f.va.val + e / 128 ≠ f.vd.val → v'.lane (f.va.val + e / 128) (e % 128) = es.1.getD e 0)
        ∧ (counted r).vecSteps n v v' (cyc * r + 8) (placeFlags engVec (sum.2 ||| ds.2) ||| placeFlags engSfu es.2) t)
    ∧ (12 < fn →
      ∃ t, exec (.vsfu n f) s = .next t ∧ (t.slot n v.slot).vfault = some (1, v.at_)
        ∧ (t.island n).vec = (s.island n).vec.filter (fun u => u.slot != v.slot) ∧ s.onlyIsl n { t with free := s.free })

/-- A job block that fails its checks ends with its result, one that passes becomes requests, and an idle RCE takes
the first (R37, R48, R275, R276, R277, R398, Tables 13-2 and 13-3). For a job block that has reached its assembling
RCE without poison, of a slot that may store its result words: where a field fails R276 the job ends with result 1
(BAD_FIELD), and where a range is out of the task's access with result 2 (BAD_ADDR): STATUS and LEN 0 are written at
offsets 0x28 and 0x2C of the block, the tag completes and the count of failed jobs grows. An ENCODE that passes every
check becomes one request per substream, on the RCEs of RMASK in turn, and a DECODE one request for its checks, each
with the stamp and source number of the assembling RCE. An idle RCE that no Sweep step holds takes, of the requests
for it, the first in event order, and while it is under suspicion only one that came before; without one nothing
changes. (Where the spec leaves a point open the statement takes the model's choice: log entry 53.) It concludes that
these commands answer a next state: rceJobSubmit, substreamRequest. -/
def Obligations.RceTakesJobsAndRequestsInOrder : Prop :=
  (∀ (s : State) (n : IslN) (k : SlotN) (ord : Nat) (x : Submit),
      s.eng.rceIn.find? (fun y => y.isl == n.val && y.slot == k.val && y.ord == ord) = some x → x.bad = none →
    let rces := match s.roomCfg? x.room with | some c => c.rces | none => 0
    let j := x.job
    let fits := j.reads.all (fun r => s.canLoad x.isl x.slot r.1 r.2) && j.writes.all (fun r => s.canStore x.isl x.slot r.1 r.2)
      && s.canStore x.isl x.slot (x.addr + 0x28) 8
    let ends := fun (res : Nat) =>
      ∃ t, exec (.rceJobSubmit n k ord) s = .next t
        ∧ (t.island x.isl).shelf = (s.island x.isl).shelf.write wordB (x.addr + 0x28) (le 4 res ++ le 4 0)
        ∧ s.tagCompletes x.isl x.slot x.tag false t
        ∧ (t.rceRt x.eng).jobErr = sat 16 ((s.rceRt x.eng).jobErr + 1)
        ∧ t.eng.rceIn = s.eng.rceIn.filter (fun y => y.ord != x.ord)
        ∧ { t with isl := s.isl, eng := s.eng } = s
    (fieldsOk x.block rces = false → s.canStore x.isl x.slot (x.addr + 0x28) 8 = true → ends 1)
    ∧ (fieldsOk x.block rces = true → fits = false → s.canStore x.isl x.slot (x.addr + 0x28) 8 = true → ends 2)
    ∧ (fieldsOk x.block rces = true → fits = true → s.jobPoison x [(j.sig, j.k)] = none →
        (j.table = true ∨ ∀ g ∈ s.jobSig x 0 j.k, g ≤ 63) → s.jobPoison x (s.tableRanges x 0 j.k) = none → s.tableBad x = none →
        ∃ t, exec (.rceJobSubmit n k ord) s = .next t
          ∧ t.eng.jobs = s.eng.jobs ++ [{ from_ := x, subs := List.replicate (if j.op = 1 then j.subs else 0) none, places := [], len := 0 }]
          ∧ t.eng.reqs = s.eng.reqs ++ (if j.op = 1
              then (List.range j.subs).map (fun i =>
                { job := x.ord, sub := i, rce := j.coder i, stamp := s.view (0x50 + x.eng), src := 0x50 + x.eng, ord := s.eng.ord + i })
              else [{ job := x.ord, sub := 17, rce := x.eng, stamp := s.view (0x50 + x.eng), src := 0x50 + x.eng,
                      ord := s.eng.ord }])
          ∧ { t with eng := s.eng } = s))
  ∧ ∀ (s : State) (r : Rce), (s.rceRt r).run = none → (s.ras.sweepBusy = false ∨ s.ras.sweepUnit ≠ 0x50 + r.val) →
      (∀ q, q ∈ s.eng.reqs → q.rce = r.val → s.mayServe (0x50 + r.val) q.stamp = true →
          (∀ p ∈ s.eng.reqs, p.rce = r.val → s.mayServe (0x50 + r.val) p.stamp = true → p ≠ q → q.before p = true) →
        ∃ t, exec (.substreamRequest r) s = .next t ∧ t.rceRt r = { s.rceRt r with run := some q }
          ∧ t.eng.reqs = s.eng.reqs.filter (fun p => p.ord != q.ord) ∧ { t with eng := s.eng } = s)
      ∧ ((∀ q ∈ s.eng.reqs, q.rce = r.val → s.mayServe (0x50 + r.val) q.stamp = false) →
          exec (.substreamRequest r) s = .next s)

/-- ENCODE and DECODE run the substream in hand, the checks of a decode pass or end the task, and assembly writes the
frame (R265, R277, R278, R281, R282, R283, R284, R285, Table 13-5). For an RCE with a request of a job in hand and no
poison in what it reads: ENCODE stores the coded substream and counts its elements, escapes and builds; after the last
substream the assembling RCE has one further request. DECODE of a substream that decodes stores its latents, two bytes
each. DECODE of the checks: a frame that parses with the room's FTAB and the agreement value gets one request per
substream, any other ends the task with AGREEMENT_FAIL, whose DETAIL gives the reason (2 format, 3 FTAB, 1 agreement)
and the RCE. FRAME_ASSEMBLY of an encode whose frame fits CAP writes the frame, its CHECK over the arrays that the
substreams were coded with, and then STATUS 0 and the length; of a decode the latents and the frame's length as its
checks read it. An internal error frees the RCE, counts a restart and ends the task it served with INTERNAL. (Where
the spec leaves a point open the statement takes the model's choice: log entry 53.) It concludes that these commands
answer a next state: encode, decode, frameAssembly, rceRestart. -/
def Obligations.RceCodesAndAssembles : Prop :=
  ∀ (s : State) (r : Rce) (q : CodeReq) (j : Job), s.running r = some (q, j) →
    let x := j.from_
    let b := x.job
    let nc := s.numeric x.room
    let stored := fun (out : SubOut) (n esc : Nat) (bs : Nat × Nat) (t : State) =>
      t.rceRt r = (s.rceRt r).count n esc bs ∧ t.job? x.ord = some { j with subs := setAt j.subs q.sub (some out) }
        ∧ t.eng.reqs = s.eng.reqs ++ (if (setAt j.subs q.sub (some out)).all (·.isSome)
            then [{ job := x.ord, sub := 16, rce := x.eng, stamp := s.view (0x50 + x.eng), src := 0x50 + x.eng,
                    ord := s.eng.ord }] else [])
        ∧ { t with eng := s.eng } = s
    (b.op = 1 → q.sub < 16 →
      let lo := (subRange b.k b.subs q.sub).1
      let hi := (subRange b.k b.subs q.sub).2
      s.jobPoison x ([(b.y + 2 * lo, 2 * (hi - lo))] ++ s.subReads x lo hi) = none →
      let e := encodeSub ((s.elems x lo hi).zip (s.jobY x lo hi))
      ∃ t, exec (.encode r) s = .next t
        ∧ stored { out := e.1, chk := agreeBytes (s.jobSig x lo hi) (s.jobMu x lo hi) } (hi - lo) e.2 (s.buildsOf x lo hi) t)
    ∧ (b.op = 2 → q.sub < 16 →
      let lo := (subRange b.k j.subs.length q.sub).1
      let hi := (subRange b.k j.subs.length q.sub).2
      let pl := (j.places[q.sub]?).getD (0, 0)
      s.jobPoison x ([(b.frame + pl.1, pl.2)] ++ s.subReads x lo hi) = none →
      ∀ ys esc, decodeSub (s.elems x lo hi) ((s.jobShelf x).read (b.frame + pl.1) pl.2) = (ys, esc, true) →
        ∃ t, exec (.decode r) s = .next t
          ∧ stored { out := ys.flatMap (fun y => le 2 (y % 2 ^ 16).toNat), chk := [] } ys.length esc (s.buildsOf x lo hi) t)
    ∧ (b.op = 2 → q.sub = 17 →
      s.jobPoison x ([(b.frame, min b.cap (16 + 4 * leAt (s.frameOfJob x) 3 1))] ++ s.subReads x 0 b.k) = none →
      let parsed := hcfParse nc.rcv b.fam b.k b.cap (s.frameOfJob x)
      let sum := agreement (s.jobSig x 0 b.k) (s.jobMu x 0 b.k)
      let fails := fun (reason : Nat) => ∀ tk, s.task? (s.slot x.isl x.slot).task = some tk →
        ∃ t, exec (.decode r) s = .next t ∧ (t.rceRt r).run = none ∧ (t.rceRt r).fails = sat 16 ((s.rceRt r).fails + 1)
          ∧ (t.rceRt r).lastReason = reason
          ∧ (t.task? (s.slot x.isl x.slot).task).map (·.status) = some (some (tk.status.getD (0x51, reason + 256 * r.val)))
      (parsed = none → fails 2)
      ∧ (∀ ft chk subs, parsed = some (ft, chk, subs) →
          (ft ≠ nc.ftab → fails 3) ∧ (ft = nc.ftab → chk ≠ sum → fails 1)
          ∧ (ft = nc.ftab → chk = sum →
            ∃ t, exec (.decode r) s = .next t ∧ (t.rceRt r).run = none
              ∧ (t.rceRt r).checks = ((s.rceRt r).checks + 1) % 2 ^ 32
              ∧ t.job? x.ord = some { j with subs := List.replicate subs.length none,
                                             places := (List.range subs.length).map (subPlace (s.frameOfJob x)),
                                             len := leAt (s.frameOfJob x) 0xC 4 }
              ∧ t.eng.reqs = s.eng.reqs ++ (List.range subs.length).map
                  (fun i => { job := x.ord, sub := i, rce := b.coder i, stamp := s.view (0x50 + x.eng), src := 0x50 + x.eng,
                              ord := s.eng.ord + i })
              ∧ { t with eng := s.eng } = s)))
    ∧ (q.sub = 16 → s.canStore x.isl x.slot (x.addr + 0x28) 8 = true →
      let outs := j.subs.filterMap id
      let parts := outs.map (·.out)
      let done := fun (at_ : Nat) (d : Bytes) (len : Nat) =>
        ∃ t, exec (.frameAssembly r) s = .next t ∧ (t.rceRt r).run = none
          ∧ (t.island x.isl).shelf
              = ((s.island x.isl).shelf.write wordB at_ d).write wordB (x.addr + 0x28) (le 4 0 ++ le 4 len)
          ∧ s.tagCompletes x.isl x.slot x.tag false t ∧ t.job? x.ord = none ∧ { t with isl := s.isl, eng := s.eng } = s
      (b.op = 1 →
        let f := hcfFrame nc.rcv b.fam nc.ftab (crc16 (outs.flatMap (·.chk))) b.k parts
        f.length ≤ b.cap → (∀ p ∈ parts, p.length ≤ 2 ^ 24) → done b.frame f f.length)
      ∧ (b.op = 2 → done b.y parts.flatten j.len))
    ∧ ∀ tk, s.task? (s.slot x.isl x.slot).task = some tk →
        ∃ t, exec (.rceRestart r) s = .next t ∧ (t.rceRt r).run = none
          ∧ (t.rceRt r).restarts = sat 16 ((s.rceRt r).restarts + 1) ∧ (t.rceRt r).lastRoom = x.room
          ∧ (t.task? (s.slot x.isl x.slot).task).map (·.status) = some (some (tk.status.getD (0x7F, 0)))

/-- An ELE takes the next layer in event order, moves it chunk by chunk, completes it, and is freed by a restart (R48,
R255, R256, R259, R260, R261, R262, R398, Table 12-7). An idle ELE that no Sweep step holds takes, of the layers
waiting for it, the first in event order, and while it is under suspicion only one that came before, with zeros as its
state where the task has no state block and the block's bytes where it has one without poison; an output layer also
asks its passage for the handshakes of its tensor. For a slot that holds no tied transfer back: an ingest layer reads
the chunk that has landed in the raw buffer, if it carries no poison, and counts its samples; an output layer that has
computed fills the empty raw buffer with its next chunk. A layer that has computed and handed over all its output
completes: the engine is free, its cycles are counted and the task has the layer among those done. An internal error
frees the engine, counts a restart and ends the task it served with INTERNAL. (Where the spec leaves a point open the
statement takes the model's choice: log entries 8, 54.) It concludes that these commands answer a next state:
eleLayerStart, eleChunk, eleLayerDone, eleRestart. -/
def Obligations.EleRunsItsLayerChunkByChunk : Prop :=
  (∀ (s : State) (j : Ele) (rows cols : Nat) (l : Layer) (p : EleParam) (rec : Bytes) (base : Nat) (tk : Task),
      (s.eleRt j).layer = none → (s.ras.sweepBusy = false ∨ s.ras.sweepUnit ≠ 0x60 + j.val) →
      l ∈ s.eng.eleIn → l.eng = j.val → s.mayServe (0x60 + j.val) l.stamp = true →
      (∀ m ∈ s.eng.eleIn, m.eng = j.val → s.mayServe (0x60 + j.val) m.stamp = true → m ≠ l → l.before m = true) →
      s.eleOf l = some (p, rec, base) → s.task? l.task = some tk →
    let takes := fun (st : Bytes) =>
      (l.out = false →
        ∃ t, exec (.eleLayerStart j rows cols) s = .next t
          ∧ t.eleRt j = { s.eleRt j with layer := some { l with rows := rows, cols := cols, state := st } }
          ∧ t.eng.eleIn = s.eng.eleIn.filter (fun m => m.ord != l.ord) ∧ { t with eng := s.eng } = s)
      ∧ ∀ te, l.out = true → TElem.of p.tfmt = some te →
        ∃ u : State, exec (.eleLayerStart j rows cols) s = .next ((u.eleFlow j).setLayer j (fun y => { y with state := st }))
          ∧ (let want := cdiv (te.bytes (rows * cols * p.cin)) 32
             u.eleRt j = { s.eleRt j with layer := some { l with rows := rows, cols := cols, want := want } })
          ∧ u.eng.eleIn = s.eng.eleIn.filter (fun m => m.ord != l.ord) ∧ { u with eng := s.eng } = s
    (stateAt tk p = none → takes (zeros p.stateBytes))
    ∧ ∀ a, stateAt tk p = some a → (s.cellarView tk).poisonIn lineB a p.stateBytes = none →
        takes ((s.cellarView tk).read a p.stateBytes))
  ∧ ∀ (s : State) (j : Ele) (l : Layer) (p : EleParam) (rec : Bytes) (base : Nat), (s.eleRt j).layer = some l →
      s.eleOf l = some (p, rec, base) →
    let want := p.rawBytes (l.rows * l.cols) p.cin - l.input.length
    (s.noneWaits l.isl l.slot → l.out = false → l.computed = false → l.landed ≠ 0 → l.landed < want →
        (s.island p.feed).shelf.poisonIn wordB p.buf l.landed = none →
      ∃ t, exec (.eleChunk j) s = .next t
        ∧ (t.eleRt j).layer = some { l with landed := 0, chunks := l.chunks + 1,
                                            input := l.input ++ (s.island p.feed).shelf.read p.buf l.landed }
        ∧ (t.eleRt j).inS = ((s.eleRt j).inS + l.landed / p.sampleBytes) % 2 ^ 32 ∧ { t with eng := s.eng } = s)
    ∧ (s.noneWaits l.isl l.slot → l.out = true → l.computed = true → l.filled = 0 → l.output ≠ [] →
      let d := l.output.take (p.chunkKib * 1024)
      ∃ t, exec (.eleChunk j) s = .next t
        ∧ Store.stored wordB p.buf d (s.island p.feed).shelf (t.island p.feed).shelf
        ∧ (t.eleRt j).layer = some { l with filled := d.length, output := l.output.drop d.length, chunks := l.chunks + 1 }
        ∧ (t.eleRt j).outS = ((s.eleRt j).outS + d.length / p.sampleBytes) % 2 ^ 32
        ∧ { t with isl := s.isl, eng := s.eng } = s)
    ∧ (∀ tk, l.computed = true → l.output = [] → l.filled = 0 → s.task? l.task = some tk →
      ∃ t, exec (.eleLayerDone j) s = .next t ∧ (t.eleRt j).layer = none
        ∧ (t.task? l.task).map (·.eleDone) = some (insN l.idx tk.eleDone)
        ∧ (stateAt tk p = none → { t with eng := s.eng, tasks := s.tasks } = s))
    ∧ ∀ tk, s.task? (s.slot l.isl l.slot).task = some tk →
        ∃ t, exec (.eleRestart j) s = .next t ∧ (t.eleRt j).layer = none
          ∧ (t.eleRt j).restarts = sat 16 ((s.eleRt j).restarts + 1) ∧ (t.eleRt j).lastRoom = l.room
          ∧ (t.task? (s.slot l.isl l.slot).task).map (·.status) = some (some (tk.status.getD (0x7F, 0)))

/-- A narrower or misaligned register access reads zero and its write is discarded; the push window has its own rules
(R10). Every register of the index is 64 bits wide. For every access that is not to the push window of BAR2 (offsets
0x1000 to 0x1FFF): a read of any size but 8 bytes, or at an offset that is not a multiple of 8, returns 0 and changes
nothing but the value returned, and a write of such a size or offset leaves the machine as it was. -/
def Obligations.ImproperAccessesDoNothing : Prop :=
  ∀ (s : State) (a : Access), ¬(a.bar2 = true ∧ 0x1000 ≤ a.off ∧ a.off < 0x2000) → (a.size ≠ 8 ∨ a.off % 8 ≠ 0) →
    exec (.rcRead a) s = .next { s with out := { s.out with rd := 0 } }
      ∧ ∀ v, exec (.registerWrite a v) s = .next s

/-- RC_READ returns a value and clears RC; REGISTER_WRITE lands in RW, leaves RO, clears W1C, takes RWT to the Attic;
ATTIC_PEEK returns Attic values (R7, R8, R9, R76, Table 0-5, Table 4-5, Table 22-2, Tables 5-8, 6-11). With the main
domain on and the device READY, for 8-byte aligned accesses of PF0 to BAR0. RC_READ completes and changes nothing but
the value returned, for TOP_ID, for an offset of TOP with no register, for every YRT register (its Living value) and
for the rest of its block (0); of CFG_RWT_DISCARD it also clears COUNT, and of the third QMGR counter register its
four counts. REGISTER_WRITE completes: each of ten plain RW registers takes the bits of its fields, other bits are
ignored; each of twenty RO registers is unchanged; a bit of TEN_TNT_n_FAULT written 1 clears, which the tenant's poll
page tells if a bit was set (R131); a write of an RWT register is the RWT_WRITE command. A VF reaches no register of
BAR0: its read returns 0, its write changes nothing. ATTIC_PEEK, in every state, completes and changes nothing but the
value returned: to PF0 the Attic value of the register whose offset CFG_ATTIC_PEEK_ADDR holds, or 0 for one that is
not RWT; to an active tenant the Attic value of an RWT register in a scope of a room of its own with PEEK set, and 0
with PEEK clear or where no room of its own has the register in its scope. (Where the spec leaves a point open the
statement takes the model's choice: log entries 15, 67, 68, 69.) It concludes that these commands answer a next state:
registerWrite, rcRead, rwtWrite, atticPeek. -/
def Obligations.RegistersFollowTheirAccessTypes : Prop :=
  let at_ : Nat → Access := fun off => { fn := 0, bar2 := false, off := off, size := 8 }
  (∀ s : State, s.mainOn = true → s.plat.ready = true →
    let reads := fun (off : Nat) (v : Word) => exec (.rcRead (at_ off)) s = .next { s with out := { s.out with rd := v } }
    reads 0 s.topId
    ∧ reads 0x90 0
    ∧ (∀ off mask, 0x180000 ≤ off → off < 0x182000 → rwtMask off = some mask → reads off (s.rwt off))
    ∧ (∀ off, 0x182000 ≤ off → off < 0x1A0000 → off % 8 = 0 → reads off 0)
    ∧ (∃ t, exec (.rcRead (at_ 0x10018)) s = .next t
        ∧ t.out.rd = packW [(0, 32, s.txn.discard), (32, 25, s.txn.discardOff)]
        ∧ t.txn = { s.txn with discard := 0 } ∧ { t with txn := s.txn, out := s.out } = s)
    ∧ (∃ t, exec (.rcRead (at_ 0x40018)) s = .next t
        ∧ t.out.rd = packW [(0, 16, s.qm.torn), (16, 16, s.qm.refused), (32, 16, s.qm.viol), (48, 16, s.qm.staleDb)]
        ∧ t.qm = { s.qm with torn := 0, refused := 0, viol := 0, staleDb := 0 } ∧ { t with qm := s.qm, out := s.out } = s)
    ∧ (∀ r ∈ [(0x10010, maskW [(0, 24)]), (0x10020, maskW [(0, 25)]), (0x10100, maskW [(0, 20)]), (0x10128, maskW [(0, 42)]),
              (0x10200, maskW [(3, 61)]), (0x20020, maskW [(0, 64)]), (0x40028, maskW [(0, 17)]), (0x80038, maskW [(0, 64)]),
              (0x80108, maskW [(0, 64)]), (0x80118, maskW [(0, 21)])], ∀ v : Word,
        exec (.registerWrite (at_ r.1) v) s = .next { s with regs := NMap.set s.regs r.1 (v &&& r.2) })
    ∧ (∀ off ∈ [0x0, 0x10, 0x18, 0x28, 0x10008, 0x10018, 0x10028, 0x10030, 0x10038, 0x10040, 0x10108, 0x10120, 0x10210, 0x10308,
                0x20000, 0x40008, 0x40010, 0x40018, 0x80018, 0xC0110], ∀ v : Word,
        exec (.registerWrite (at_ off) v) s = .next s)
    ∧ (∀ (n : Fn) (v : Word), ∃ t, exec (.registerWrite (at_ (0x21008 + 0x20 * n.val)) v) s = .next t
        ∧ t.tenant n = { s.tenant n with fault := (s.tenant n).fault &&& ~~~v } ∧ (∀ m, m ≠ n.val → t.tenant m = s.tenant m)
        ∧ ((s.tenant n).fault &&& v ≠ 0 → t.fnq n = { s.fnq n with dirty := true })
        ∧ ((s.tenant n).fault &&& v = 0 → t.qm = s.qm)
        ∧ (∀ m, t.room m = s.room m) ∧ { t with ten := s.ten, qm := s.qm } = s)
    ∧ (∀ off mask v, off % 8 = 0 → rwtMask off = some mask → exec (.registerWrite (at_ off) v) s = exec (.rwtWrite off v) s)
    ∧ ∀ (a : Access) (v : Word), a.bar2 = false → a.fn ≠ 0 → exec (.registerWrite a v) s = .next s
        ∧ exec (.rcRead a) s = .next { s with out := { s.out with rd := 0 } })
  ∧ ∀ s : State,
      let gives := fun (src : Src) (v : Word) => exec (.atticPeek src) s = .next { s with out := { s.out with rd := v } }
      let off := fld (s.reg 0x10020 0) 0 25
      (∀ mask, rwtMask off = some mask → gives .pf0 (s.rwtOf s.attic off &&& mask))
      ∧ (rwtMask off = none → gives .pf0 0)
      ∧ ∀ (fn : Fn) (m : Room),
          let w := s.b2 fn 0x5010
          let o := fld w 0 25
          (∀ mask r, s.tenActive fn = true → bitOf w 25 = true → (m.val, r) ∈ s.living.rooms → r.tenant = fn.val →
              o ∈ s.scopeOffs m → rwtMask o = some mask → gives (.tenant fn m) (s.rwtOf s.attic o &&& mask))
          ∧ (bitOf w 25 = false → gives (.tenant fn m) 0)
          ∧ ((∀ e ∈ s.living.rooms, e.2.tenant = fn.val → o ∉ s.scopeOffs e.1) → gives (.tenant fn m) 0)

/-- An RWT write lands in the Attic while the chip transaction is OPEN, and is discarded and counted at any other time
(R74). For every RWT register of BAR0 and every value, in every state: while the chip transaction is OPEN the bits of
its fields, and no others, land in the register of the Attic, WRITES counts one more (saturating at 16 bits) and the
idle timer restarts; at any other time, whatever the other state of the chip transaction, the write is discarded,
CFG_RWT_DISCARD.COUNT counts one more (saturating at 32 bits) and OFFSET takes the offset. The Living set and
everything else stay. It concludes that these commands answer a next state: rwtWrite. -/
def Obligations.RwtWritesLandOnlyWhileOpen : Prop :=
  ∀ (s : State) (off : Nat) (mask v : Word), rwtMask off = some mask →
    (s.txn.chip.st = .opened →
      ∃ t, exec (.rwtWrite off v) s = .next t ∧ s.atticTakes off mask v t
        ∧ t.txn = { s.txn with chip := { s.txn.chip with writes := sat1 16 s.txn.chip.writes, lastGtc := s.clk.gtc } }
        ∧ { t with attic := s.attic, txn := s.txn } = s)
    ∧ (s.txn.chip.st ≠ .opened →
        exec (.rwtWrite off v) s = .next { s with txn := { s.txn with discard := sat1 32 s.txn.discard, discardOff := off } })

/-- OPEN issues a token or is refused, COMMIT starts validation, ROLLBACK and the idle limit restore the Attic,
tenants write theirs (R70, R72, R73, R75, R77, R78, R79, Tables 4-2 and 4-3). CHIP SCOPE: OPEN with no transaction
anywhere issues a token that is not 0 and that no open transaction holds, and puts the Living set into the Attic; with
the chip transaction not IDLE, or with a room's and no FENCE, it posts SCOPE_BUSY; a wrong token on COMMIT, ROLLBACK
or KEEPALIVE posts BAD_TOKEN and leaves the transaction. With the right token on an OPEN one, COMMIT, not cell-wide,
makes it VALIDATING, with the next number in the order of commits, ROLLBACK ends it with ROLLED_BACK and the Attic
equal to the Living set, KEEPALIVE restarts the idle timer, and the idle limit ends it with IDLE_TIMEOUT at the later
of now and the limit. While VALIDATING or HATCHING a COMMIT or ROLLBACK is ignored. ROOM SCOPE: an OPEN by the owner
whose section sets ROOM_TXN makes the room's transaction OPEN; by a tenant without ROOM_TXN it posts DENIED. TXW_WDATA
with the token of an OPEN transaction of the tenant and a register of its scope lands in the Attic; with a token of no
such transaction it is discarded and counted. (Where the spec leaves a point open the statement takes the model's
choice: log entries 29, 30.) It concludes that these commands answer a next state: openTxn, commit, rollback,
keepalive, txwWdataWrite, idleTimeout. -/
def Obligations.TransactionsOpenAndEnd : Prop :=
  (∀ s : State,
    let c := s.txn.chip
    let posts := fun (i : Instr) (r : Nat) => exec i s = .next { s with txn := { s.txn with chip := { c with result := r, detail := 0 } } }
    let ends := fun (r : Nat) (t : State) => t.attic = s.living ∧ t.txn.chip.st = .idle ∧ t.txn.chip.result = r ∧ t.living = s.living
      ∧ { t with attic := s.attic, txn := s.txn, clk := s.clk } = s
    (c.st = .idle → s.roomTxns = [] → ∀ fence,
      ∃ t, exec (.openTxn .pf0 fence) s = .next t ∧ t.txn.chip.st = .opened ∧ t.attic = s.living ∧ t.txn.token = t.txn.chip.token
        ∧ t.txn.chip.token ≠ 0 ∧ t.txn.chip.token < 256 ∧ t.txn.chip.writes = 0 ∧ t.txn.chip.lastGtc = s.clk.gtc
        ∧ { t.txn with chip := s.txn.chip, token := s.txn.token } = s.txn ∧ { t with attic := s.attic, txn := s.txn } = s)
    ∧ (∀ fence, c.st ≠ .idle → posts (.openTxn .pf0 fence) 0x86)
    ∧ (s.roomTxns ≠ [] → posts (.openTxn .pf0 false) 0x86)
    ∧ (∀ token, (c.st = .idle ∨ c.token ≠ token) →
        posts (.rollback .pf0 token) 0x85 ∧ posts (.keepalive .pf0 token) 0x85
        ∧ ∀ force maint cell, posts (.commit .pf0 token force maint cell) 0x85)
    ∧ (c.st = .opened →
        (∀ force maint, ∃ t, exec (.commit .pf0 c.token force maint false) s = .next t
          ∧ t = { s with txn := { s.txn with commits := s.txn.commits + 1, chip := { c with
              st := .validating, force := force, maint := maint, cell := false, pendCommit := false, lastGtc := s.clk.gtc
              ord := s.txn.commits } } })
        ∧ (s.txn.loader.busy = false → ∃ t, exec (.rollback .pf0 c.token) s = .next t ∧ ends 0x80 t ∧ t.clk = s.clk)
        ∧ exec (.keepalive .pf0 c.token) s = .next { s with txn := { s.txn with chip := { c with lastGtc := s.clk.gtc } } }
        ∧ (s.txn.loader.busy = false → s.clk.valid = true → ∃ t, exec (.idleTimeout 64) s = .next t ∧ ends 0x81 t
            ∧ t.clk = { s.clk with gtc := max s.clk.gtc (c.lastGtc + s.idleLimit) }))
    ∧ ((c.st = .validating ∨ c.st = .hatching) → exec (.rollback .pf0 c.token) s = .next s
        ∧ ∀ force maint cell, exec (.commit .pf0 c.token force maint cell) s = .next s))
  ∧ ∀ (s : State) (fn : Fn) (m : Room) (r : RoomCfg) (tc : TenantCfg), s.tenActive fn = true → s.roomCfg? m = some r →
      r.tenant = fn.val → s.tenantCfg? fn = some tc →
      (nbit tc.flags 1 = true → s.txn.chip.st = .idle → (s.txnAt m).st = .idle → s.roomTxns.length < 64 →
        ∃ t, exec (.openTxn (.tenant fn m) false) s = .next t ∧ (t.txnAt m).st = .opened ∧ (t.txnAt m).token = t.txn.token
          ∧ t.txn.token ≠ 0 ∧ (∀ k ∈ s.roomTxns, (s.txnAt k).token ≠ t.txn.token) ∧ (∀ k, k ≠ m.val → t.txnAt k = s.txnAt k)
          ∧ { t with txn := s.txn, ten := s.ten } = s)
      ∧ (nbit tc.flags 1 = false → ∃ t, exec (.openTxn (.tenant fn m) false) s = .next t ∧ (t.txnAt m).result = 0x87
          ∧ (t.txnAt m).st = (s.txnAt m).st ∧ t.txn.token = s.txn.token ∧ { t with txn := s.txn, ten := s.ten } = s)
      ∧ ∀ v : Word,
          let w := s.b2 fn 0x5010
          let off := fld w 0 25
          (∀ mask, m.val ∈ s.roomTxns → (s.txnAt m).token = fld w 32 8 → (s.txnAt m).st = .opened →
              (∀ k ∈ s.roomTxns, (s.txnAt k).token = fld w 32 8 → k = m.val) → off ∈ s.scopeOffs m → rwtMask off = some mask →
            ∃ t, exec (.txwWdataWrite fn v) s = .next t ∧ s.atticTakes off mask v t
              ∧ t.txnAt m = { s.txnAt m with writes := sat1 16 (s.txnAt m).writes, lastGtc := s.clk.gtc }
              ∧ { t with attic := s.attic, txn := s.txn } = s)
          ∧ ((∀ k ∈ s.roomTxns, s.roomTenant k = fn.val → (s.txnAt k).st = .opened → (s.txnAt k).token ≠ fld w 32 8) →
            ∃ t, exec (.txwWdataWrite fn v) s = .next t
              ∧ t.tenant fn = { s.tenant fn with txDiscards := sat1 16 (s.tenant fn).txDiscards } ∧ { t with ten := s.ten } = s)

/-- A layout load needs the OPEN chip transaction, puts its set into the Attic or posts its failure; validation ends
the commit or queues it (R65, R66, R67, R79, R86, R403, Tables 3-14 and 4-3). LAYOUT_GO with the token of the OPEN
chip transaction, no load under way and no drain starts the load: BUSY, SRC and the address as written, state LOADING;
with a wrong token where a chip transaction exists it posts NO_TXN at stage 1 with an event and BAD_TOKEN; while BUSY
TOKEN and SRC land and it has no other effect. LAYOUT_LOAD_DONE of a load under way in the LOADING chip transaction,
with no ROLLBACK waiting: an image that fails a check posts that check's result, stage, section and offset with an
event and leaves the Attic, one that passes puts its set into the Attic and posts 0 with an event; either way the
transaction is OPEN again. VALIDATION_DONE of a VALIDATING chip transaction: while no drain is under way and the Attic
equals the Living set, it ends with COMMITTED; where a check of steps 1 to 4 of R79 fails a commit that is not
cell-wide, it is OPEN with that check's result, and its DETAIL and FAIL for INVALID; where all pass it is HATCHING, in
the Hatch queue; during a drain the result is DRAINING. (Where the spec leaves a point open the statement takes the
model's choice: log entries 27, 28, 29, 80.) It concludes that these commands answer a next state: validationDone,
layoutGo, layoutLoadDone. -/
def Obligations.LoadsAndValidationReachTheAttic : Prop :=
  (∀ (s : State) (token : Nat) (cellar : Bool), s.txn.loader.busy = true →
    exec (.layoutGo token cellar) s
      = .next { s with regs := NMap.set s.regs 0x10208 (packW [(0, 8, token), (8, 1, b2n cellar)]) })
  ∧ (∀ (s : State) (token : Nat) (cellar : Bool), s.txn.loader.busy = false →
    (s.ras.drain = 0 → s.txn.chip.st = .opened → s.txn.chip.token = token →
      ∃ t, exec (.layoutGo token cellar) s = .next t ∧ t.txn.chip = { s.txn.chip with st := .loading }
        ∧ t.txn.loader = { s.txn.loader with busy := true, cellar := cellar, addr := (s.reg 0x10200 0).toNat / 8 * 8 }
        ∧ t.reg 0x10208 0 = packW [(0, 8, token), (8, 1, b2n cellar)] ∧ (∀ o, o ≠ 0x10208 → ∀ d, t.reg o d = s.reg o d)
        ∧ { t with txn := s.txn, regs := s.regs } = s)
    ∧ (s.ras.drain = 0 → s.txn.chip.st ≠ .idle → s.txn.chip.token ≠ token →
      ∃ t, exec (.layoutGo token cellar) s = .next t ∧ t.txn.chip = { s.txn.chip with result := 0x85, detail := 0 }
        ∧ t.txn.loader = { s.txn.loader with result := 0x01, stage := 1, section_ := 0xFFFF, offset := 0 }
        ∧ s.raises 0xA0 1 4 noTenant 0 [0x01, 1, 0xFFFF, 0] t
        ∧ { t with txn := s.txn, regs := s.regs, ledg := s.ledg, clk := s.clk } = s))
  ∧ (∀ (s : State) (img : Bytes) (fault : Option Nat), s.txn.loader.busy = true → s.txn.chip.st = .loading →
      s.txn.chip.pendRollback = false →
    ∃ t, exec (.layoutLoadDone img fault) s = .next t ∧ t.txn.loader.busy = false
      ∧ t.txn.chip = { s.txn.chip with st := .opened, lastGtc := s.clk.gtc, pendCommit := false }
      ∧ t.txn.loader.delta = (s.loadImage img fault).1
      ∧ (match (s.loadImage img fault).2 with
          | .error f => t.attic = s.attic ∧ t.txn.loader.result = f.res ∧ t.txn.loader.stage = f.stage
              ∧ t.txn.loader.section_ = f.sec ∧ t.txn.loader.offset = f.off
              ∧ s.raises 0xA0 1 4 noTenant 0 [f.res, f.stage, f.sec, f.off] t
          | .ok c => t.attic = c ∧ t.txn.loader.result = 0 ∧ s.raises 0xA0 1 4 noTenant 0 [0, 0, 0, 0] t)
      ∧ { t with txn := s.txn, attic := s.attic, ledg := s.ledg, clk := s.clk } = s)
  ∧ ∀ (s : State) (auth : FuseAuth), s.txn.chip.st = .validating → s.txn.loader.busy = false →
      (s.ras.drain = 0 → s.scopeSame 64 = true →
        ∃ t, exec (.validationDone 64 auth) s = .next t ∧ t.txn.chip.st = .idle ∧ t.txn.chip.result = 0
          ∧ t.living = { s.living with dirty := s.attic.dirty } ∧ t.attic = t.living
          ∧ { t with living := s.living, attic := s.attic, txn := s.txn } = s)
      ∧ ((s.ras.drain ≠ 0 ∨ s.scopeSame 64 = false) →
          (∀ r d f, s.judge 64 (some auth) = some (r, d, f) → s.txn.chip.cell = false →
            exec (.validationDone 64 auth) s = .next { s with txn := { s.txn with chip :=
              { s.txn.chip with st := .opened, result := r, detail := d, lastGtc := s.clk.gtc,
                                fail := if r = 0x83 then f else s.txn.chip.fail } } })
          ∧ (s.judge 64 (some auth) = none →
            ∃ t, exec (.validationDone 64 auth) s = .next t ∧ t.txn.chip = { s.txn.chip with st := .hatching }
              ∧ 64 ∈ t.txn.hatch.queue ∧ (∀ x ∈ s.txn.hatch.queue, x ∈ t.txn.hatch.queue)
              ∧ { t with txn := s.txn } = s))
      ∧ (s.ras.drain ≠ 0 → s.judge 64 (some auth) = some (0x8B, 0, 0))

/-- An idle Hatch takes the first commit of its queue and holds its rooms; ready it arms T; late it aborts or, with
FORCE, stops the tasks (R81, R82, R83, R84, R85, R86, Table 4-4). HATCH_PREPARE with the Hatch unit IDLE takes the
first commit of the queue. If a check of R79 now fails, the commit is open again with that result; else the unit is in
PREPARE for that scope and its affected rooms, which go from SERVING to HELD; where no room is affected, T is armed at
once, 1,000 ns from now. HATCH_READY, with nothing forced, and HATCH_FORCE_STOPPED, after FORCE, arm T = now + 1,000
ns once no task of an affected room is left and no reset of one runs, and change nothing before (none of these for a
cell-wide Hatch, which the next statement but one covers). HATCH_DEADLINE in Prepare, while no other deadline runs and
no start message of a span waits: with FORCE = 0 it aborts at the deadline with HATCH_ABORT_BUSY; with FORCE = 1 and
one live task of the affected rooms that nothing ends or stops yet, that task is marked for requeueing with its slots
told to stop, and it is counted in PREEMPTED. (Where the spec leaves a point open the statement takes the model's
choice: log entries 31, 34.) It concludes that these commands answer a next state: hatchPrepare, hatchReady,
hatchDeadline, hatchForceStopped. -/
def Obligations.HatchPreparesWaitsAndArms : Prop :=
  (∀ (s : State) (sc : Nat) (rest : List Nat), s.txn.hatch.st = .idle → s.txn.hatch.queue = sc :: rest →
    let s1 := { s with txn := { s.txn with hatch := { s.txn.hatch with queue := rest } } }
    (∀ r d f, s1.judge sc none = some (r, d, f) → (s.txnAt sc).cell = false →
      ∃ t, exec .hatchPrepare s = .next t ∧ t.txn.hatch = s1.txn.hatch
        ∧ t.txnAt sc = { s.txnAt sc with st := .opened, result := r, detail := d, lastGtc := s.clk.gtc,
                                         fail := if r = 0x83 then f else (s.txnAt sc).fail }
        ∧ { t with txn := s.txn } = s)
    ∧ (s1.judge sc none = none → s1.affected sc ≠ 0 → ((s.txnAt sc).cell = false ∨ s.knownAbort s.hatchTag = none) →
      ∃ t, exec .hatchPrepare s = .next t
        ∧ t.txn.hatch = { s1.txn.hatch with st := .prepare, cur := sc, rooms := s1.affected sc, since := s.clk.gtc, forcing := false,
                                            preempted := 0, late := false, clearing := 0, voted := false }
        ∧ s.holds (s1.affected sc) t ∧ { t.txn with hatch := s.txn.hatch } = s.txn
        ∧ { t with txn := s.txn, ten := s.ten } = s)
    ∧ (s1.judge sc none = none → s1.affected sc = 0 → (s.txnAt sc).cell = false →
      ∃ t, exec .hatchPrepare s = .next t ∧ t.txn.hatch.st = .armed ∧ t.txn.hatch.t = s.clk.gtc + 1000 ∧ t.txn.hatch.cur = sc
        ∧ t.txn.hatch.rooms = 0 ∧ { t with txn := s.txn } = s))
  ∧ (∀ s : State, s.txn.hatch.st = .prepare → s.txn.hatch.voted = false → (s.txnAt s.txn.hatch.cur).cell = false →
      let armed := { s with txn := { s.txn with hatch := { s.txn.hatch with st := .armed, t := s.clk.gtc + 1000 } } }
      (s.txn.hatch.forcing = false → exec .hatchReady s = .next (if s.hatchClear then armed else s))
      ∧ (s.txn.hatch.forcing = true → exec .hatchForceStopped s = .next (if s.hatchClear then armed else s)))
  ∧ ∀ s : State, s.txn.hatch.st = .prepare → s.txn.hatch.voted = false → s.txn.hatch.forcing = false →
      (s.txnAt s.txn.hatch.cur).cell = false → s.quiesceTasks = [] → s.openRecord = none → s.clk.valid = true →
      let late := { s with clk := { s.clk with gtc := max s.clk.gtc (s.txn.hatch.since + s.hatchLimit) } }
      ((s.txnAt s.txn.hatch.cur).force = false → s.noStartWaits →
        ∃ t, exec .hatchDeadline s = .next t ∧ late.hatchAborts s.txn.hatch.cur 0x84 0 t)
      ∧ ∀ (i : Nat) (tk : Task) (n k : Nat) (more : List (Nat × Nat)), (s.txnAt s.txn.hatch.cur).force = true →
          s.hatchTasks = [(i, tk)] → s.task? i = some tk → tk.slots = (n, k) :: more → (s.slot n k).st.live →
          tk.span = none →
          ∃ t, exec .hatchDeadline s = .next t ∧ t.txn.hatch = { s.txn.hatch with forcing := true, preempted := sat1 16 s.txn.hatch.preempted }
            ∧ (t.task? i).map (fun u => (u.requeue, u.status)) = some (true, some (tk.status.getD (0x30, 0)))
            ∧ (∀ x ∈ tk.slots, (s.slot x.1 x.2).st.live → (t.slot x.1 x.2).st = .stopping)

/-- At T the committing scope's Attic fields are the Living set and the transaction ends; clearing then empties what
changed tenant (R83, R85, R69, R98, Tables 4-4 and 5-2). HATCH_SWAP of an armed Hatch with no reset waiting: the GTC
is at T or later, LATE is 0, the transaction of the committing scope is IDLE with COMMITTED, or PREEMPTED_REQUEUED if
FORCE stopped a task, which is also the result of the Hatch, and the unit is IDLE or CLEARING. For a room's commit
every RWT register of its scope holds the Attic's value, every other one and every section of the Living set stay. For
a chip commit, with no room transaction open and rooms numbered below 64, each section and each RWT register of the
Living set holds what the Attic held. HATCH_CLEARING_DONE leaves each island under clearing with an empty Shelf,
crates, predictor and return stack; where no clearing failed, no reset was merged and no start message of a span
waits, each room under clearing with no Audit test left takes the state of Table 5-2; the one room whose clearing
failed is FAULTED with cause 3, and a reset merged into the clearing has completed (R104). (Where the spec leaves a
point open the statement takes the model's choice: log entries 31, 33, 36.) It concludes that these commands answer a
next state: hatchSwap, hatchClearingDone. -/
def Obligations.HatchSwapsAtTheInstant : Prop :=
  (∀ s : State, s.txn.hatch.st = .armed → s.txn.hatch.heldRooms = [] → s.txn.hatch.heldTenants = [] → s.clk.valid = true →
    let sc := s.txn.hatch.cur
    let result := if s.txn.hatch.preempted > 0 then 0x30 else 0x00
    (sc < 64 →
      ∃ t, exec .hatchSwap s = .next t ∧ t.clk.gtc = max s.clk.gtc s.txn.hatch.t
        ∧ (t.txnAt sc).st = .idle ∧ (t.txnAt sc).result = result ∧ t.txn.hatch.result = result ∧ t.txn.hatch.late = false
        ∧ (t.txn.hatch.st = .idle ∨ t.txn.hatch.st = .clearing)
        ∧ (∀ o ∈ s.scopeOffs sc, t.rwt o = s.rwtOf s.attic o) ∧ (∀ o, o ∉ s.scopeOffs sc → t.rwt o = s.rwt o)
        ∧ { t.living with rwt := s.living.rwt } = s.living)
    ∧ (sc = 64 → s.roomTxns = [] → (∀ e ∈ s.living.rooms, e.1 < 64) →
      ∃ t, exec .hatchSwap s = .next t ∧ t.clk.gtc = max s.clk.gtc s.txn.hatch.t
        ∧ t.txn.chip.st = .idle ∧ t.txn.chip.result = result ∧ t.txn.hatch.result = result ∧ t.txn.hatch.late = false
        ∧ (t.txn.hatch.st = .idle ∨ t.txn.hatch.st = .clearing)
        ∧ (∀ o, t.rwt o = s.rwtOf s.attic o) ∧ { t.living with rwt := s.attic.rwt } = s.attic ∧ t.attic = t.living))
  ∧ ∀ (s : State) (failed : Word), s.txn.hatch.st = .clearing →
      (∃ t, exec (.hatchClearingDone failed) s = .next t ∧ t.txn.hatch.clearing = 0 ∧ t.txn.hatch.clearIsl = 0
        ∧ (failed = 0 → (∀ m < 64, (s.room m).merged = false) → s.noStartWaits →
            t.txn.hatch.st = .idle
            ∧ (∀ n < 64, t.island n = if bitOf s.txn.hatch.clearIsl n
                then { s.island n with shelf := .empty, crates := [], pred := [], rstack := [] } else s.island n)
            ∧ (∀ m < 64, t.room m = if bitOf s.txn.hatch.clearing m ∧ (s.room m).st = .clearing ∧ (s.roomAudit m).todo = []
                then { s.room m with st := if s.tenActive (s.roomTenant m) = false then .dormant
                                           else if s.txn.quiesce ∨ s.plat.power = .d3hot then .held else .serving }
                else s.room m)
            ∧ { t with txn := s.txn, ten := s.ten, isl := s.isl } = s))
      ∧ ∀ m < 64, bitsOf 64 s.txn.hatch.clearing = [m] → bitOf failed m = true → (s.room m).st = .clearing →
          ∃ t, exec (.hatchClearingDone failed) s = .next t
            ∧ (t.room m).st = .faulted ∧ (t.room m).cause = 3 ∧ (t.room m).merged = false
            ∧ ((s.room m).merged = true → (t.room m).resets = sat1 16 (s.room m).resets)
            ∧ ((s.room m).merged = false → t.room m = { s.room m with st := .faulted, cause := 3 }
                ∧ s.raises 0 2 4 (s.roomTenant m) 3 [m, 3] t)

/-- Votes gather at the coordinator, SWAP arms T, ABORT ends the Hatch, a member without an outcome holds; a quiesce
holds every room (R88, R89, R90, R91, R382, Table 4-4). At the coordinator, for its open record of the Hatch's TAG: a
ready vote that leaves others missing is recorded; the last one decides T = now + LEAD and arms the Hatch; an abort
vote decides ABORT with that member failed, and a coordinator that is itself in the Prepare of the Hatch posts
CELL_ABORT. A device that is not the coordinator ignores votes. At a member in the Prepare of the Hatch, the first
SWAP of its TAG arms T if the member has voted ready and T is still ahead; the first ABORT aborts with CELL_ABORT
naming the members that failed; a SWAP already learnt makes a later SWAP or ABORT change nothing, and a SWAP after an
ABORT changes nothing. IN_DOUBT puts a voted member that is not the coordinator into that state and nothing else. An
answer to its query that gives no outcome leaves the transaction, the rooms and both sets; an ABORT answer, and one
that no record exists, abort with CELL_ABORT. QUIESCE sets QUIESCE and QFORCE and holds every SERVING room;
QUIESCE_RELEASE, while no reset is pending, clears them and the rooms resume; with RESET_PENDING it changes nothing.
Aborts and the release are said for a device at which no start message of a span waits. (Where the spec leaves a point
open the statement takes the model's choice: log entry 32.) It concludes that these commands answer a next state:
hatchVote, hatchSwapMsg, hatchAbortMsg, inDoubt, inDoubtQuery, quiesce, quiesceRelease. -/
def Obligations.CellWideHatchFollowsItsOutcome : Prop :=
  (∀ (s : State) (k tag : Nat) (ready : Bool), s.coordinates = false → exec (.hatchVote k ready tag) s = .next s)
  ∧ (∀ (s : State) (k tag : Nat) (r : HatchRec), s.coordinates = true → s.txn.hatch.rec_ = some r → r.tag = tag → s.hatchTag = tag →
      r.decision = none → k < 16 →
      let got := r.ready ||| 2 ^ k
      (s.hatchMembers &&& got ≠ s.hatchMembers →
        exec (.hatchVote k true tag) s = .next { s with txn := { s.txn with hatch := { s.txn.hatch with
          rec_ := some { r with members := s.hatchMembers, ready := got } } } })
      ∧ (s.hatchMembers ≠ 0 → s.hatchMembers &&& got = s.hatchMembers →
        ∃ t, exec (.hatchVote k true tag) s = .next t ∧ t.txn.hatch.st = .armed ∧ t.txn.hatch.t = s.clk.gtc + s.hatchLead
          ∧ t.txn.hatch.rec_ = some { r with members := s.hatchMembers, ready := got, decision := some (s.clk.gtc + s.hatchLead) }
          ∧ NMap.find? t.txn.hatch.seen tag = some (s.clk.gtc + s.hatchLead, 0)
          ∧ t.living = s.living ∧ t.attic = s.attic ∧ t.ten = s.ten)
      ∧ (s.cellHatch tag = false →
        ∃ t, exec (.hatchVote k false tag) s = .next t
          ∧ t.txn.hatch.rec_ = some { r with members := s.hatchMembers, failed := r.failed ||| 2 ^ k, decision := some 0 }
          ∧ NMap.find? t.txn.hatch.seen tag = some (0, r.failed ||| 2 ^ k) ∧ t.txn.hatch.st = s.txn.hatch.st
          ∧ t.living = s.living ∧ t.attic = s.attic ∧ t.ten = s.ten)
      ∧ (s.cellHatch tag = true → s.noStartWaits →
        ∃ t, exec (.hatchVote k false tag) s = .next t ∧ t.txn.hatch.st = .idle ∧ t.txn.hatch.result = 0x89
          ∧ NMap.find? t.txn.hatch.seen tag = some (0, r.failed ||| 2 ^ k) ∧ s.resumes s.txn.hatch.rooms t
          ∧ (t.txnAt s.txn.hatch.cur).st = .opened ∧ t.living = s.living ∧ t.attic = s.attic))
  ∧ (∀ (s : State) (tag at_ failed : Nat),
      (∀ a f, NMap.find? s.txn.hatch.seen tag = some (a, f) → exec (.hatchSwapMsg tag at_) s = .next s
        ∧ (a ≠ 0 → exec (.hatchAbortMsg tag failed) s = .next s))
      ∧ (NMap.find? s.txn.hatch.seen tag = none → s.txn.hatch.st = .prepare → (s.txnAt s.txn.hatch.cur).cell = true → s.hatchTag = tag →
          (s.txn.hatch.voted = true → s.clk.gtc < at_ →
            ∃ t, exec (.hatchSwapMsg tag at_) s = .next t
              ∧ t.txn.hatch = { s.txn.hatch with st := .armed, t := at_, seen := NMap.set s.txn.hatch.seen tag (at_, 0) }
              ∧ t.living = s.living ∧ t.attic = s.attic ∧ t.ten = s.ten)
          ∧ (s.noStartWaits →
            ∃ t, exec (.hatchAbortMsg tag failed) s = .next t ∧ s.hatchAborts s.txn.hatch.cur 0x89 failed t
              ∧ NMap.find? t.txn.hatch.seen tag = some (0, failed))))
  ∧ (∀ s : State, s.txn.hatch.st = .prepare → (s.txnAt s.txn.hatch.cur).cell = true → s.txn.hatch.voted = true → s.coordinates = false →
      exec .inDoubt s = .next { s with txn := { s.txn with hatch := { s.txn.hatch with st := .inDoubt } } })
  ∧ (∀ s : State, s.txn.hatch.st = .inDoubt →
      (∃ t, exec (.inDoubtQuery .none) s = .next t ∧ t.txn = s.txn ∧ t.living = s.living ∧ t.attic = s.attic ∧ t.ten = s.ten
        ∧ t.tasks = s.tasks ∧ t.isl = s.isl)
      ∧ ∀ d failed, d = .abort failed ∨ d = .noRecord → (s.txnAt s.txn.hatch.cur).cell = true →
          NMap.find? s.txn.hatch.seen s.hatchTag = none → s.noStartWaits →
          ∃ t, exec (.inDoubtQuery d) s = .next t ∧ t.txn.hatch.st = .idle ∧ t.txn.hatch.result = 0x89
            ∧ (t.txnAt s.txn.hatch.cur).st = .opened ∧ s.resumes s.txn.hatch.rooms t ∧ t.living = s.living ∧ t.attic = s.attic)
  ∧ ∀ s : State,
      (∀ qf, ∃ t, exec (.quiesce qf) s = .next t
        ∧ t.txn = { s.txn with quiesce := true, qforce := qf, quiesceAt := if s.txn.quiesce then s.txn.quiesceAt else s.clk.gtc }
        ∧ (∀ m < 64, t.room m = if (s.room m).st = .serving then { s.room m with st := .held } else s.room m)
        ∧ { t with txn := s.txn, ten := s.ten } = s)
      ∧ (s.txn.resetPending = true → exec .quiesceRelease s = .next s)
      ∧ (s.txn.resetPending = false → s.noStartWaits → ∃ t, exec .quiesceRelease s = .next t
          ∧ t.txn = { s.txn with quiesce := false, qforce := false }
          ∧ (∀ m < 64, t.room m = if (s.room m).st = .held ∧ s.plat.power ≠ .d3hot
                ∧ ¬(bitOf s.txn.hatch.rooms m ∧ s.txn.hatch.st ∈ [.prepare, .armed, .inDoubt])
              then { s.room m with st := .serving } else s.room m)
          ∧ { t with txn := s.txn, ten := s.ten } = s)

/-- A kill, an island, room or tenant reset stops its tasks with ROOM_RESET, marks what it resets, and refuses what is
not the caller's (R87, R94, R96, R97, R98, R102, R103, R104, R107, Tables 5-4 and 5-6). TASK_KILL of PF0 on a queue
empties its waiting descriptors, counts them and the tasks it ends, and is BUSY; by a tenant on a queue outside its
range it stops nothing, posts KILLED 0 and raises QUEUE_VIOL. ISLAND_RESET marks the island busy. ROOM_RESET, while no
armed Hatch affects the room and its tenant is not resetting, makes a SERVING, HELD or FAULTED room RESETTING and is
merged into the clearing of a CLEARING one, and ends the room's transaction with ROOM_RESET; of a room that an armed
Hatch affects it is held for the swap; by a tenant that does not own the room it raises ADDR_VIOL. TENANT_RESET of an
active tenant with no Hatch armed makes the tenant and each of its SERVING, HELD and FAULTED rooms RESETTING, and its
queues hold nothing; with a Hatch armed it is held for the swap. In each case every live task of the queue (of those
not stopping already), island, room or tenant whose lead slot is not ENDING has ROOM_RESET if FORCE was stopping it,
else the status it had, else ROOM_RESET. DISPATCH_STALL of a SERVING room whose next descriptor could start and has
its graph resident faults it with cause 2. Room and tenant resets are said for a device at which no start message of a
span waits. (Where the spec leaves a point open the statement takes the model's choice: log entry 35.) It concludes
that these commands answer a next state: taskKill, islandReset, roomReset, tenantReset, dispatchStall. -/
def Obligations.KillsAndResetsStopTheirTasks : Prop :=
  ∀ s : State,
    let stopped := fun (i : Nat) (tk : Task) (t : State) =>
      ∀ n k more, tk.slots = (n, k) :: more → (s.slot n k).st ≠ .ending →
        (t.task? i).map (·.status) = some (some (if tk.requeue then (0x31, 0) else tk.status.getD (0x31, 0)))
    (∀ q, ∃ t, exec (.taskKill 0 q false) s = .next t ∧ (t.queue q).waiting = [] ∧ t.ten.killBusy = true
        ∧ t.ten.killed = sat 16 ((s.killable q none).length + (s.queue q).waiting.length)
        ∧ ∀ i tk, s.task? i = some tk → tk.queue = q → tk.span = none → (s.runs tk = true ∨ tk.requeue = true) → stopped i tk t)
    ∧ (∀ (fn : Fn) q, fn ≠ 0 → s.tenActive fn = true → s.ownsQueue fn q = false →
        ∃ t, exec (.taskKill fn q false) s = .next t
          ∧ t.tenant fn = { s.tenant fn with violQ := sat1 16 (s.tenant fn).violQ, lastQ := q, fault := setBit (s.tenant fn).fault 2,
                                             killed := 0 }
          ∧ t.queue q = s.queue q ∧ s.raises 0x90 2 1 fn 2 [q] t ∧ { t with ten := s.ten, qm := s.qm, ledg := s.ledg, clk := s.clk, bar2 := s.bar2 } = s)
    ∧ (∀ n : IslN, ∃ t, exec (.islandReset n) s = .next t ∧ n.val ∈ t.ten.islBusy
        ∧ ∀ i tk, s.task? i = some tk → (∃ x ∈ tk.slots, x.1 = n.val) → stopped i tk t)
    ∧ (∀ (m : Room) (flush : Bool),
        (s.txn.hatch.st = .armed → bitOf s.txn.hatch.rooms m = true →
          exec (.roomReset 0 m flush) s = .next { s with txn := { s.txn with hatch :=
            { s.txn.hatch with heldRooms := s.txn.hatch.heldRooms ++ [(m.val, flush)] } } })
        ∧ (¬(s.txn.hatch.st = .armed ∧ bitOf s.txn.hatch.rooms m = true) → (s.tenant (s.roomTenant m)).st ≠ .resetting →
            s.noStartWaits →
          ((s.room m).st = .clearing →
            ∃ t, exec (.roomReset 0 m flush) s = .next t
              ∧ t.room m = { s.room m with merged := true, flush := (s.room m).flush || flush }
              ∧ ((s.txnAt m).st ≠ .idle → (t.txnAt m).st = .idle ∧ (t.txnAt m).result = 0x31)
              ∧ ((s.txnAt m).st = .idle → { t with ten := s.ten } = s))
          ∧ ((s.room m).st ∈ [.serving, .held, .faulted] →
            ∃ t, exec (.roomReset 0 m flush) s = .next t ∧ (t.room m).st = .resetting
              ∧ ((s.txnAt m).st ≠ .idle → (t.txnAt m).st = .idle ∧ (t.txnAt m).result = 0x31)
              ∧ ∀ i tk, s.task? i = some tk → tk.room = m.val → stopped i tk t))
        ∧ ∀ fn : Fn, fn ≠ 0 → s.tenActive fn = true → s.roomTenant m ≠ fn.val →
            ∃ t, exec (.roomReset fn m flush) s = .next t
              ∧ t.tenant fn = { s.tenant fn with violA := sat1 16 (s.tenant fn).violA, fault := setBit (s.tenant fn).fault 3 }
              ∧ t.room m = s.room m ∧ s.raises 0x90 2 2 fn 2 [0x6020] t)
    ∧ (∀ (fn : Fn) (scrub : Bool), s.tenActive fn = true → s.txn.hatch.st = .armed →
        exec (.tenantReset 0 fn scrub) s = .next { s with txn := { s.txn with hatch :=
          { s.txn.hatch with heldTenants := s.txn.hatch.heldTenants ++ [(fn.val, scrub)] } } })
    ∧ (∀ (fn : Fn) (scrub : Bool), s.tenActive fn = true → s.txn.hatch.st ≠ .armed → s.noStartWaits →
        ∃ t, exec (.tenantReset 0 fn scrub) s = .next t ∧ (t.tenant fn).st = .resetting
          ∧ (t.tenant fn).scrubOn = (scrub || (s.tenant fn).scrubOn)
          ∧ (∀ m ∈ s.living.roomsOf fn, m < 64 → (t.room m).st = if (s.room m).st = .absent then .absent
              else if (s.room m).st = .dormant then .dormant else if (s.room m).st = .clearing then .clearing else .resetting)
          ∧ (∀ q, s.ownsQueue fn q = true → t.queue q = .reset)
          ∧ ∀ i tk, s.task? i = some tk → tk.tenant = fn.val → stopped i tk t ∧ (t.task? i).map (·.noRecord) = some true)
    ∧ ∀ (m : Room) q e, (s.room m).st = .serving → s.nextHead m = some (q, e) →
        (s.resident? (s.roomTenant m) m (dGraph e.raw)).isSome = true →
        ∃ t, exec (.dispatchStall m) s = .next t ∧ t.room m = { s.room m with st := .faulted, cause := 2 }
          ∧ (t.tenant (s.roomTenant m)).fault = setBit (s.tenant (s.roomTenant m)).fault 1
          ∧ s.raises 0 2 4 (s.roomTenant m) 3 [m, 2] t

/-- A completed reset clears its islands, takes its room or tenant back, counts it and tells it; FLR and VF Enable
reset tenants (R92, R102, R104, R105, R106, Tables 5-2, 5-6 and 5-7). RESET_DONE: a kill with no task of it left is no
longer BUSY; an island under reset that no task holds, and that no reset of its room or tenant takes in, is cleared
but for its Shelf below the pinned limit and its fault-frame registers; a RESETTING room with no task, whose tenant is
not resetting, and at which no start message of a span waits, has its islands cleared so, takes the state of Table
5-2, counts one more reset (saturating), its tenant's RESET bit set, event 2/5; a RESETTING tenant with no task is
SCRUBBING if windows are to be zeroed, else ACTIVE or INACTIVE, counts one more reset, with its RESET bit set and its
other registers at reset values. SCRUB_DONE of a SCRUBBING tenant makes it ACTIVE or INACTIVE with its SCRUB bit set,
every byte of its windows to be zeroed reading 0. FLR of an active VF is a tenant reset with SCRUB; of PF0 it turns VF
Enable off and ends the chip transaction with ROOM_RESET. VF_ENABLE_CHANGE sets VF Enable and NumVFs (at most 63);
with no Hatch armed, a tenant that was active and is not is RESETTING with SCRUB, an INACTIVE one that becomes active
is ACTIVE. (Where the spec leaves a point open the statement takes the model's choice: log entry 35.) It concludes
that these commands answer a next state: flr, vfEnableChange, resetDone, scrubDone. -/
def Obligations.ResetsCompleteAndTenantsChange : Prop :=
  ∀ s : State,
    let cleared := fun (n : Nat) (i : Isl) => { Isl.reset with shelf := i.shelf.below (s.pin n), frame := i.frame, frames := i.frames }
    ((∀ i ∈ s.ten.killTids, s.task? i = none) →
      exec (.resetDone (.kill 0)) s = .next { s with ten := { s.ten with killBusy := false, killTids := [] } })
    ∧ (∀ n : IslN, n.val ∈ s.ten.islBusy → s.islTasks n = [] → s.islMerged n = false →
        ∃ t, exec (.resetDone (.island n)) s = .next t ∧ t.island n = cleared n (s.island n)
          ∧ (∀ j, j ≠ n.val → t.island j = s.island j) ∧ t.ten = { s.ten with islBusy := s.ten.islBusy.filter (· != n.val) }
          ∧ { t with isl := s.isl, ten := s.ten } = s)
    ∧ (∀ m : Room, (s.room m).st = .resetting → s.roomTasks m = [] → (s.tenant (s.roomTenant m)).st ≠ .resetting →
        (s.spanRt m).waits = [] → (∀ e ∈ s.living.rooms, e.1 = m.val → s.roomCfg? m = some e.2) →
        ∃ t, exec (.resetDone (.room m)) s = .next t ∧ (t.room m).st = s.freeState m
          ∧ (t.room m).resets = sat1 16 (s.room m).resets
          ∧ (∀ n ∈ s.roomIsls m, t.island n = cleared n (s.island n)) ∧ (∀ n, n ∉ s.roomIsls m → t.island n = s.island n)
          ∧ (∀ j, j ≠ m.val → t.room j = s.room j)
          ∧ (t.tenant (s.roomTenant m)).fault = setBit (s.tenant (s.roomTenant m)).fault 5
          ∧ s.raises 0 2 5 (s.roomTenant m) 0 [1, m] t)
    ∧ (∀ fn : Fn, (s.tenant fn).st = .resetting → (∀ e ∈ s.tasks.live, e.2.tenant ≠ fn.val) →
        ∃ t, exec (.resetDone (.tenant fn)) s = .next t
          ∧ t.tenant fn = { TenRt.reset with
              st := if (s.tenant fn).scrub = [] then (if s.tenActive fn then .active else .inactive) else .scrubbing,
              resets := sat1 16 (s.tenant fn).resets, scrub := (s.tenant fn).scrub, fault := setBit 0 5 })
    ∧ (∀ fn : Fn, (s.tenant fn).st = .scrubbing →
        ∃ t, exec (.scrubDone fn) s = .next t
          ∧ t.tenant fn = { s.tenant fn with st := if s.tenActive fn then .active else .inactive, scrub := [], scrubOn := false,
                                             fault := setBit (s.tenant fn).fault 6 }
          ∧ (∀ a, Mem.byte t.cellar.store.mem a = if ∃ x ∈ (s.tenant fn).scrub, x.1 ≤ a ∧ a < x.1 + x.2 then 0
              else Mem.byte s.cellar.store.mem a)
          ∧ ∀ m, m ≠ fn.val → t.tenant m = s.tenant m)
    ∧ (∀ fn : Fn, fn ≠ 0 → s.tenActive fn = true → s.txn.hatch.st ≠ .armed →
        ∃ t, exec (.flr fn) s = .next t ∧ exec (.tenantReset 0 fn true) s = .next t
          ∧ (t.tenant fn).st = .resetting ∧ (t.tenant fn).scrubOn = true)
    ∧ (s.txn.chip.st ≠ .idle → s.txn.hatch.st ≠ .armed →
        ∃ t, exec (.flr 0) s = .next t ∧ t.ten.vfEnable = false ∧ t.txn.chip.st = .idle ∧ t.txn.chip.result = 0x31)
    ∧ ∀ (enable : Bool) (num : Nat), s.plat.recovery = false → s.txn.hatch.st ≠ .armed →
        ∃ t, exec (.vfEnableChange enable num) s = .next t ∧ t.ten.vfEnable = enable ∧ t.ten.numVfs = min num 63
          ∧ ∀ fn < 64,
              let now := { s with ten := { s.ten with vfEnable := enable, numVfs := min num 63 } }
              (s.tenActive fn = true → now.tenActive fn = false → (t.tenant fn).st = .resetting ∧ (t.tenant fn).scrubOn = true)
              ∧ (s.tenActive fn = false → now.tenActive fn = true → (s.tenant fn).st = .inactive → (t.tenant fn).st = .active)

/-- Cold reset, loss of the input and a trip lose all but fuses, flash and record; a warm reset keeps its list; boot
makes the device READY (R101, R406, R431, R432, R433, R434, R435, R440, R443, R449, Tables 5-6 and 20-1). PERST longer
than the filter on a powered device is a cold reset: all state at reset values but fuses, flash and the retirement
record, a new nonce, THERMTRIP released, power D0, or held above 85 °C; a shorter pulse does nothing. POWER_ON does
the same with the main domain still off and LAST_TRIP 0. MAIN_INPUT_REMOVED and THERMAL_TRIP of a device with its main
domain on lose the same and leave it off, the trip with its cause and THERMTRIP. WARM_CHIP_RESET (the register with
key 0xA5 and GO, or a bus event) keeps the clock settings of both sets, READY, identity and fault-frame registers and
empties tasks, queues, tenants, transactions, engines, windows and crates, k back at 32; without the key nothing
happens. BOOT_READY of a device at STAGE 0: bad fuses or no image fit to run give recovery, the LED blinking at 1 Hz;
else the image runs, the GTC is valid, and if training succeeds STAGE is 7, READY 1 and each Cellar controller
trained, if not STAGE 4 with FAIL 5 and the LED blinking at 4 Hz. (Where the spec leaves a point open the statement
takes the model's choice: log entries 16, 18, 19, 20, 21, 74.) It concludes that these commands answer a next state:
warmChipReset, perst, bootReady, mainInputRemoved, thermalTrip, powerOn. -/
def Obligations.ResetsOfTheDeviceKeepTheirState : Prop :=
  ∀ s : State,
    (∀ ns hotC, s.plat.power ≠ .off → s.perstFilter < ns →
      ∃ t, exec (.perst ns hotC) s = .next t ∧ s.mainLost t ∧ t.plat.power = (if 85 < hotC then .held else .d0)
        ∧ t.plat.nonce = Config.freeValue s.free ∧ t.free = s.free + 1 ∧ t.plat.thermtrip = false ∧ t.plat.lastTrip = s.plat.lastTrip)
    ∧ (∀ ns hotC, ns ≤ s.perstFilter → exec (.perst ns hotC) s = .next s)
    ∧ (∃ t, exec .powerOn s = .next t ∧ s.mainLost t ∧ t.plat.power = .d3cold ∧ t.plat.lastTrip = 0
        ∧ t.plat.nonce = Config.freeValue s.free)
    ∧ (s.plat.power ≠ .off → s.plat.power ≠ .d3cold →
        (∃ t, exec .mainInputRemoved s = .next t ∧ s.mainLost t ∧ t.plat.power = .d3cold ∧ t.plat.nonce = s.plat.nonce
          ∧ t.plat.lastTrip = s.plat.lastTrip ∧ t.plat.thermtrip = s.plat.thermtrip)
        ∧ ∀ c, ∃ t, exec (.thermalTrip c) s = .next t ∧ s.mainLost t ∧ t.plat.power = .d3cold ∧ t.plat.thermtrip = true
          ∧ t.plat.lastTrip = (match c with | .thermal => 1 | .undervoltage => 2 | .overcurrent => 3))
    ∧ (∀ (c : WarmCause) (burnOk : Bool), s.mainOn = true →
        ((∀ v, c = .register v → fld v 0 8 = 0xA5 ∧ bitOf v 16 = true) →
          ∃ t, exec (.warmChipReset c burnOk) s = .next t ∧ t.living = s.living.clocksOnly ∧ t.attic = s.attic.clocksOnly
            ∧ t.tasks = State.reset.tasks ∧ t.qm = State.reset.qm ∧ t.ten = State.reset.ten ∧ t.eng = State.reset.eng
            ∧ t.pantry = [] ∧ t.bar2 = [] ∧ t.txn.chip = .reset ∧ t.txn.rooms = [] ∧ t.repro = State.reset.repro
            ∧ (∀ n, t.island n = { Isl.reset with frame := (s.island n).frame, frames := (s.island n).frames })
            ∧ t.pending = s.pending ∧ t.ident = s.ident ∧ t.clk.gtc = s.clk.gtc ∧ t.clk.valid = s.clk.valid
            ∧ t.plat.ready = s.plat.ready ∧ t.plat.k = 32 ∧ t.plat.lastTrip = s.plat.lastTrip ∧ t.plat.fusePending = none
            ∧ t.ras.drain = (if s.ras.drain = 2 then 2 else 0) ∧ t.ras.record = s.ras.record)
        ∧ ∀ v, c = .register v → fld v 0 8 ≠ 0xA5 → exec (.warmChipReset c burnOk) s = .next s)
    ∧ ∀ b : BootIn, (s.plat.power = .d0 ∨ s.plat.power = .held) → s.plat.ready = false → s.plat.recovery = false → s.plat.stage = 0 →
        let i := if s.plat.imageOk s.plat.next then s.plat.next else 1 - s.plat.next
        ((b.fuseOk = false ∨ s.plat.imageOk s.plat.next = false ∧ s.plat.imageOk (1 - s.plat.next) = false) →
          ∃ t, exec (.bootReady b) s = .next t ∧ t.plat.recovery = true ∧ t.plat.ready = false ∧ t.clk = s.clk
            ∧ (b.fuseOk = false → t.plat.fail = 4) ∧ (b.fuseOk = true → t.plat.fail = 2 ∨ t.plat.fail = 3) ∧ t.led = .slow
            ∧ { t with plat := s.plat } = s)
        ∧ (b.fuseOk = true → s.plat.imageOk i = true →
          ∃ t, exec (.bootReady b) s = .next t ∧ t.plat.image = i ∧ t.plat.next = i ∧ t.plat.power = .d0 ∧ t.clk.valid = true
            ∧ t.clk.gtc ≤ b.bootMs * 1000000 ∧ { t with plat := s.plat, clk := s.clk, free := s.free, cellar := s.cellar } = s
            ∧ (b.trainOk = true → t.plat.ready = true ∧ t.plat.stage = 7 ∧ t.plat.fail = (if i = s.plat.next then 0 else 1)
                ∧ ∀ c < 4, t.cctl c = { s.cctl c with trained := true })
            ∧ (b.trainOk = false → t.plat.ready = false ∧ t.plat.stage = 4 ∧ t.plat.fail = 5 ∧ t.led = .fast ∧ t.cellar = s.cellar))

/-- D3hot holds every room and D0 resumes them; an idle unit of no room is gated; a firmware update ends with its
result; JTAG answers (R436, R445, R446, R452, R470, Tables 20-2, 20-11 and 20-15). D3HOT_ENTRY in D0 holds every
SERVING room; D0_RETURN, where no start message of a span waits, resumes HELD rooms that no quiesce and no Hatch
holds. POWER_GATE in D0 of a unit that no room uses, that is idle and under no test, gates it, and a T-island's Shelf
is lost; POWER_WAKE ends the gating. FW_UPDATE takes LEN, one above 16 MiB as 0, and, with GO, is BUSY. FW_UPDATE_DONE
while BUSY: a bad signature posts 2, a security version too low 3, a failed fetch 5, and the flash stays; an image
staged at a version not below the fused one becomes the inactive slot's, the one to try next, and posts 1; a failed
write posts 4 and leaves only that slot's signature open. BOUNDARY_SCAN answers BYPASS with 0 and IDCODE with the
device's code, SAMPLE and EXTEST with the pins as captured, which no rule fixes, and holds the instruction and the
boundary register. Nothing else changes. (Where the spec leaves a point open the statement takes the model's choice:
log entries 21, 22.) It concludes that these commands answer a next state: d3hotEntry, d0Return, powerGate, powerWake,
fwUpdate, fwUpdateDone, boundaryScan. -/
def Obligations.PowerStatesFirmwareAndScan : Prop :=
  ∀ s : State,
    (s.plat.power = .d0 → ∃ t, exec .d3hotEntry s = .next t ∧ t.plat = { s.plat with power := .d3hot }
        ∧ (∀ m < 64, t.room m = if (s.room m).st = .serving then { s.room m with st := .held } else s.room m)
        ∧ { t with plat := s.plat, ten := s.ten } = s)
    ∧ (s.plat.power = .d3hot → s.noStartWaits → ∃ t, exec .d0Return s = .next t ∧ t.plat = { s.plat with power := .d0 }
        ∧ (∀ m < 64, t.room m = if (s.room m).st = .held ∧ s.txn.quiesce = false
              ∧ ¬(bitOf s.txn.hatch.rooms m ∧ s.txn.hatch.st ∈ [.prepare, .armed, .inDoubt])
            then { s.room m with st := .serving } else s.room m)
        ∧ { t with plat := s.plat, ten := s.ten } = s)
    ∧ (∀ u, s.plat.power = .d0 → isUnit u = true → s.roomsOn u = [] → s.unitIdle u = true → (s.unit u).health ≠ .verifying →
        (s.ras.sweepBusy = false ∨ s.ras.sweepUnit ≠ u) → (s.ras.auditBusy = false ∨ s.ras.auditUnit ≠ u) →
        ∃ t, exec (.powerGate u) s = .next t ∧ u ∈ t.plat.gated ∧ (∀ v, v ≠ u → (v ∈ t.plat.gated ↔ v ∈ s.plat.gated))
          ∧ { t.plat with gated := s.plat.gated } = s.plat
          ∧ (0x10 ≤ u → u < 0x50 → t.island (u - 0x10) = { s.island (u - 0x10) with shelf := .empty })
          ∧ (∀ n, n + 0x10 ≠ u → t.island n = s.island n) ∧ { t with plat := s.plat, isl := s.isl } = s)
    ∧ (∀ u, exec (.powerWake u) s = .next { s with plat := { s.plat with gated := s.plat.gated.filter (· != u) } })
    ∧ (∀ v, ∃ t, exec (.fwUpdate v) s = .next t ∧ t.regs = NMap.set s.regs 0x900008 (packW [(0, 32, if fld v 0 32 ≤ 2 ^ 24 then fld v 0 32 else 0)])
        ∧ t.plat = (if bitOf v 32 then { s.plat with fwBusy := true } else s.plat) ∧ { t with regs := s.regs, plat := s.plat } = s)
    ∧ (s.plat.fwBusy = true →
        let other := 1 - s.plat.next
        let posts := fun (r : FwResult) (n : Nat) =>
          exec (.fwUpdateDone r) s = .next { s with plat := { s.plat with fwBusy := false, fwRes := n } }
        posts .badSignature 2 ∧ posts .lowSvn 3 ∧ posts .fetchFault 5
        ∧ (∀ svn, svn < s.plat.svnFuse → posts (.staged svn) 3)
        ∧ (∀ svn, s.plat.svnFuse ≤ svn → exec (.fwUpdateDone (.staged svn)) s = .next { s with plat :=
            { s.plat with fwBusy := false, fwRes := 1, next := other,
                          imgs := setAt s.plat.imgs other { sigOk := true, svn := svn % 64 } } })
        ∧ (let img : FwImage := { sigOk := bitOf (Config.freeValue s.free) 0, svn := s.plat.imageSvn other }
           exec (.fwUpdateDone .flashFail) s = .next
             { s with free := s.free + 1, plat := { s.plat with fwBusy := false, fwRes := 4, imgs := setAt s.plat.imgs other img } }))
    ∧ (s.plat.power ≠ .off →
        let scans := fun (j : Jtag) (ir : Nat) (br : Word) (n : Nat) (v : Word) =>
          exec (.boundaryScan j) s = .next { s with free := s.free + n, plat := { s.plat with jtagIr := ir, jtagBr := br },
                                                    out := { s.out with msgs := s.out.msgs ++ [.tdo v] } }
        scans .bypass 0 s.plat.jtagBr 0 0
        ∧ scans .idcode 1 s.plat.jtagBr 0 (packW [(0, 1, 1), (1, 11, 0x4F5), (12, 16, 0x0B16), (28, 4, s.ident.step)])
        ∧ (∀ v, scans (.samplePreload v) 2 v 1 (Config.freeValue s.free)) ∧ ∀ v, scans (.extest v) 3 v 1 (Config.freeValue s.free))

/-- SPDM requests in order are answered, sessions begin and end, IDE_KM needs one; SMBus and PLDM read the record,
identity and sensors (R440, R441, R457, Table 20-3, Table 20-14). (The response codes and layouts are log entry 9's,
taken from outside the spec.) With the main domain on: GET_VERSION starts the connection and ends every session;
GET_CAPABILITIES after it, NEGOTIATE_ALGORITHMS after that, take it on; from then on GET_DIGESTS, GET_CERTIFICATE and
CHALLENGE of slot 0 and GET_MEASUREMENTS are answered, another slot or index with an error, KEY_EXCHANGE opens a
handshake, FINISH establishes it or ends it, KEY_UPDATE and END_SESSION act on an established one; a request before
its turn is answered with an error and changes nothing else. IDE_KM_REQUEST over an established session, with
TOP_PCIE_CFG.IDE in force, answers a query, programs keys, starts the link stream once keys are programmed, and stops
it. With power: GET_RETIREMENT answers with the number of records and both words of each of eight entries,
GET_IDENTITY with TOP_ID, serial, chip, version and image, a PLDM sensor with its reading, a quadrant's temperature
and the input voltage, which no rule gives, with a free value. It concludes that these commands answer a next state:
getVersion, getCapabilities, negotiateAlgorithms, getDigests, getCertificate, challenge, getMeasurements, keyExchange,
finish, keyUpdate, endSession, getRetirement, getIdentity, pldmSensorRead, ideKmRequest. -/
def Obligations.SidebandAndMailboxAnswer : Prop :=
  ∀ s : State,
    (s.mainOn = true →
      let errors := fun (i : Instr) (e : Nat) => ∃ t, exec i s = .next t ∧ s.replies (.spdm 0x7F [e] false) t
      let goes := fun (i : Instr) (p : Plat) (m : OutMsg) =>
        exec i s = .next { s with plat := p, out := { s.out with msgs := s.out.msgs ++ [m] } }
      goes .getVersion { s.plat with spdm := 1, sessions := [] } (.spdm 0x04 [0x12] false)
      ∧ (1 ≤ s.plat.spdm → goes .getCapabilities { s.plat with spdm := max s.plat.spdm 2 } (.spdm 0x61 [] false))
      ∧ (s.plat.spdm < 1 → errors .getCapabilities 4)
      ∧ (2 ≤ s.plat.spdm → goes .negotiateAlgorithms { s.plat with spdm := max s.plat.spdm 3 } (.spdm 0x63 [] false))
      ∧ (s.plat.spdm < 2 → errors .negotiateAlgorithms 4)
      ∧ (s.plat.spdm < 3 → errors .getDigests 4 ∧ (∀ k, errors (.getCertificate k) 4 ∧ errors (.challenge k) 4 ∧ errors (.getMeasurements k) 4
          ∧ errors (.keyExchange k) 4 ∧ (∀ ok, errors (.finish k ok) 4) ∧ errors (.keyUpdate k) 4 ∧ errors (.endSession k) 4
          ∧ ∀ op, errors (.ideKmRequest k op) 4))
      ∧ (3 ≤ s.plat.spdm →
          let tells := fun (i : Instr) (m : OutMsg) => ∃ t, exec i s = .next t ∧ s.replies m t
          tells .getDigests (.spdm 0x01 [1] false) ∧ tells (.getCertificate 0) (.spdm 0x02 [0] false)
          ∧ tells (.challenge 0) (.spdm 0x03 [0] true)
          ∧ (∀ k, k ≠ 0 → errors (.getCertificate k) 1 ∧ errors (.challenge k) 1)
          ∧ tells (.getMeasurements 0) (.spdm 0x60 [6] true)
          ∧ (∀ k, 1 ≤ k → k ≤ 6 → tells (.getMeasurements k) (.spdm 0x60 (k :: s.measured k) true))
          ∧ (∀ k, 6 < k → k ≠ 255 → errors (.getMeasurements k) 1)
          ∧ tells (.getMeasurements 255) (.spdm 0x60 ((List.range 6).flatMap (fun k => (k + 1) :: s.measured (k + 1))) true)
          ∧ ∀ id,
              let at_ := NMap.find? s.plat.sessions id
              (at_ ≠ none → errors (.keyExchange id) 4) ∧ (at_ ≠ some 1 → ∀ ok, errors (.finish id ok) 4)
              ∧ (at_ = none → goes (.keyExchange id) { s.plat with sessions := NMap.set s.plat.sessions id 1 } (.spdm 0x64 [id] true))
              ∧ (at_ = some 1 → goes (.finish id true) { s.plat with sessions := NMap.set s.plat.sessions id 2 } (.spdm 0x65 [id] false)
                  ∧ goes (.finish id false) { s.plat with sessions := NMap.del s.plat.sessions id } (.spdm 0x7F [6] false))
              ∧ (at_ = some 2 → tells (.keyUpdate id) (.spdm 0x69 [id] false)
                  ∧ goes (.endSession id) { s.plat with sessions := NMap.del s.plat.sessions id } (.spdm 0x6C [id] false)
                  ∧ (bitOf s.plat.pcieNow 4 = true →
                      tells (.ideKmRequest id .query) (.spdm 1 [s.plat.ide] false)
                      ∧ (∀ k, goes (.ideKmRequest id (.keyProg k)) { s.plat with ide := max s.plat.ide 1 } (.spdm 3 [k] false))
                      ∧ (∀ k, s.plat.ide ≠ 0 → goes (.ideKmRequest id (.setGo k)) { s.plat with ide := 2 } (.spdm 6 [k] false))
                      ∧ (s.plat.ide = 0 → ∀ k, errors (.ideKmRequest id (.setGo k)) 4)
                      ∧ ∀ k, goes (.ideKmRequest id (.setStop k)) { s.plat with ide := 0 } (.spdm 6 [k] false))
                  ∧ (bitOf s.plat.pcieNow 4 = false → ∀ op, errors (.ideKmRequest id op) 4))
              ∧ (at_ ≠ some 2 → errors (.keyUpdate id) 4 ∧ errors (.endSession id) 4 ∧ ∀ op, errors (.ideKmRequest id op) 4)))
    ∧ (s.plat.power ≠ .off →
        let tells := fun (i : Instr) (m : OutMsg) => ∃ t, exec i s = .next t ∧ s.replies m t
        tells .getRetirement (.smbus (le 1 s.ras.record.length ++ (List.range 8).flatMap (fun k => match s.ras.record[k]? with
          | some e => le 8 e.a.toNat ++ le 8 e.b.toNat
          | none => zeros 16)))
        ∧ tells .getIdentity (.smbus (le 8 s.topId.toNat ++ le 8 s.ident.serial.toNat ++ le 2 s.cell.chip ++ le 1 s.plat.svnFw
            ++ le 1 s.plat.image))
        ∧ tells (.pldmSensorRead .hottest) (.pldm s.plat.sensors.tjC) ∧ tells (.pldmSensorRead .hbm0) (.pldm s.plat.sensors.hbm0C)
        ∧ tells (.pldmSensorRead .hbm1) (.pldm s.plat.sensors.hbm1C) ∧ tells (.pldmSensorRead .bootStage) (.pldm s.plat.stage)
        ∧ tells (.pldmSensorRead .inlet) (.pldm s.plat.sensors.inletC) ∧ tells (.pldmSensorRead .power) (.pldm s.plat.sensors.powerW)
        ∧ tells (.pldmSensorRead .k) (.pldm s.plat.k) ∧ tells (.pldmSensorRead .rasState) (.pldm s.ras.drain)
        ∧ tells (.pldmSensorRead .lastTrip) (.pldm s.plat.lastTrip)
        ∧ ∀ x, (x = .voltage ∨ ∃ q, x = .quadrant q) → exec (.pldmSensorRead x) s = .next
            { s with free := s.free + 1, out := { s.out with msgs := s.out.msgs ++ [.pldm (Config.freeValue s.free).toNat] } })

/-- QCFG activates and deactivates a queue, a doorbell and a scanned word set its tail, fetched descriptors wait or
wait for the context (R96, R110, R111, R112, R115, R117, R120, Table 6-1). Of an ACTIVE tenant. QUEUE_ACTIVATE of an
owned, mapped queue whose completion ring is enabled, with a ring address and a size of 16 to 65,536 entries in modes
1 and 2, makes it active with the settings, TAIL and HEAD 0, and posts 0; an unowned queue posts 1 for the tenant; a
queue that no map names posts 2, a bad ring 4, a disabled completion ring 5, and nothing else of the queue changes.
QUEUE_DEACTIVATE of one that holds nothing makes it inactive, of another it posts 3. DOORBELL of an owned active mode
1 queue sets its known tail where it runs ahead by at most the ring's size, and reads the entries that may now be
fetched, else it counts a stale doorbell; of a queue outside the range it raises QUEUE_VIOL. RING_ENTRY_FETCH advances
the head by the entries that came of those asked for, and with the context hot those that pass the checks wait in
order; with a cold one they wait for it; a failed read changes nothing but what is asked for again. CONTEXT_FETCH_DONE
accepts the descriptors that waited, in order; where every hot context is held, the first of them. SCAN_CTRL_WRITE
with fields in range enables scanning, else leaves it off. RING_SCAN reads the scan block in requests of at most 512
bytes, and a word that changed sets the tail of an owned active mode 2 queue; a failed read changes nothing else. What
else leaves the device is reads of the owner's memory, of at most 512 bytes each. (Where the spec leaves a point open
the statement takes the model's choice: log entry 37.) It concludes that these commands answer a next state:
queueActivate, queueDeactivate, doorbell, ringEntryFetch, scanCtrlWrite, ringScan, contextFetchDone. -/
def Obligations.QueuesTakeDescriptors : Prop :=
  ∀ (s : State) (fn : Fn), s.tenActive fn = true →
    let q := fld (s.b2 fn 0x3000) 0 17
    let ringA := (s.b2 fn 0x3008).toNat / 4096 * 4096
    let posts := fun (i : Instr) (x : Queue) (t : State) => exec i s = .next t
      ∧ (t.fnq fn).lastOpQ = some q ∧ t.queue q = x ∧ (∀ k, k ≠ q → t.queue k = s.queue k) ∧ { t with qm := s.qm, bar2 := s.bar2 } = s
    let shows := fun (r : Nat) => { s.queue q with lastRes := r }
    let reads := fun (k : Nat) (t : State) => { t with qm := s.qm, out := s.out } = s ∧ (∀ j, j ≠ k → t.queue j = s.queue j)
      ∧ ∃ ms, t.out = { s.out with msgs := s.out.msgs ++ ms }
          ∧ ∀ m ∈ ms, ∃ a l, m = .hostRead ((s.queueOwner k).getD 0) a l ∧ l ≤ 512
    (∀ (mode log2 : Nat),
      let i := Instr.queueActivate fn mode log2
      let m := if mode = 3 then 0 else mode
      let badRing := m ≠ 0 ∧ (ringA = 0 ∨ log2 < 4 ∨ 16 < log2)
      (s.ownsQueue fn q = false → ∃ t, posts i (s.queue q) t)
      ∧ (s.ownsQueue fn q = true →
          (s.queueRing q = none → ∃ t, posts i (shows 2) t)
          ∧ ∀ cr, s.queueRing q = some cr →
              (badRing → ∃ t, posts i (shows 4) t)
              ∧ (¬badRing → (s.ring cr).enabled = false → ∃ t, posts i (shows 5) t)
              ∧ (¬badRing → (s.ring cr).enabled = true →
                  ∃ t, posts i { (shows 0) with active := true, mode := m, ring := ringA, log2 := log2, head := 0, tail := 0, asked := 0 } t)))
    ∧ (s.ownsQueue fn q = true →
        ((s.queue q).holds = 0 → ∃ t, posts (.queueDeactivate fn) { (shows 0) with active := false, asked := 0 } t)
        ∧ ((s.queue q).holds ≠ 0 → ∃ t, posts (.queueDeactivate fn) (shows 3) t))
    ∧ (∀ v : Word,
        let k := fld v 0 17
        let tail := fld v 32 32
        (s.ownsQueue fn k = true →
          let fits := (s.queue k).active = true ∧ (s.queue k).mode = 1 ∧ (tail + 2 ^ 32 - (s.queue k).tail) % 2 ^ 32 ≤ 2 ^ (s.queue k).log2
          (fits → ∃ t, exec (.doorbell fn v) s = .next t ∧ reads k t
            ∧ t.queue k = { s.queue k with tail := tail, asked := (t.queue k).asked }
            ∧ (s.ownerActive k = true → (t.queue k).asked = max (s.queue k).asked ({ s.queue k with tail := tail } : Queue).fetchable))
          ∧ (¬fits → exec (.doorbell fn v) s = .next { s with qm := { s.qm with staleDb := wrap1 16 s.qm.staleDb } }))
        ∧ (s.ownsQueue fn k = false → ∃ t, exec (.doorbell fn v) s = .next t
            ∧ t.tenant fn = { s.tenant fn with violQ := sat1 16 (s.tenant fn).violQ, lastQ := k, fault := setBit (s.tenant fn).fault 2 }
            ∧ s.raises 0x90 2 1 fn 2 [k] t ∧ t.qm.queues = s.qm.queues ∧ t.qm.viol = wrap1 16 s.qm.viol))
    ∧ (∀ (k : Nat) (data : Bytes),
        let n := min (s.queue k).asked (data.length / 64)
        let ds := (List.range n).map (fun i => slice data (i * 64) 64)
        let good := s.ras.drain = 0 ∧ ∀ d ∈ ds, descCheck (s.ring ((s.queueRing k).getD 0)).entry64 d = none
        (∃ t, exec (.ringEntryFetch k data true) s = .next t ∧ reads k t ∧ t.queue k = { s.queue k with asked := (t.queue k).asked })
        ∧ ((s.queue k).active = true → ((s.queue k).mode = 1 ∨ (s.queue k).mode = 2) → s.ownerActive k = true → (s.queue k).fetching = [] →
          (k ∈ s.qm.hot → s.qm.hot.length ≤ 4096 → good →
            ∃ t, exec (.ringEntryFetch k data false) s = .next t ∧ (t.queue k).head = ((s.queue k).head + n) % 2 ^ 32
              ∧ (t.queue k).waiting.map (·.raw) = (s.queue k).waiting.map (·.raw) ++ ds ∧ (t.queue k).tail = (s.queue k).tail
              ∧ reads k t)
          ∧ (k ∉ s.qm.hot →
            ∃ t, exec (.ringEntryFetch k data false) s = .next t
              ∧ t.queue k = { s.queue k with head := ((s.queue k).head + n) % 2 ^ 32, fetching := ds, asked := (t.queue k).asked }
              ∧ reads k t)))
    ∧ (∀ (k : Nat) (d : Bytes) (ds : List Bytes), (s.queue k).fetching = d :: ds → s.ownerActive k = true → s.ras.drain = 0 →
        (∀ x ∈ d :: ds, descCheck (s.ring ((s.queueRing k).getD 0)).entry64 x = none) →
        let all := (s.makeHot k).qm.hot.contains k = true
        ∃ t, exec (.contextFetchDone k) s = .next t ∧ (all → (t.queue k).fetching = []) ∧ (¬all → (t.queue k).fetching = ds)
          ∧ (all → (t.queue k).waiting.map (·.raw) = (s.queue k).waiting.map (·.raw) ++ d :: ds)
          ∧ (¬all → (t.queue k).waiting.map (·.raw) = (s.queue k).waiting.map (·.raw) ++ [d])
          ∧ (∀ j, j ≠ k → t.queue j = s.queue j) ∧ { t with qm := s.qm } = s)
    ∧ ∀ tc, s.tenantCfg? fn = some tc →
        (∀ v : Word,
          let ok := bitOf v 48 = true ∧ tc.qbase ≤ fld v 0 17 ∧ fld v 0 17 + fld v 17 13 ≤ tc.qbase + tc.qcount
            ∧ 1 ≤ fld v 17 13 ∧ fld v 17 13 ≤ 4096 ∧ 1 ≤ fld v 32 10 ∧ fld v 32 10 ≤ 1000
          let kept := v &&& maskW [(0, 30), (32, 10), (48, 1)]
          (ok → ∃ t, exec (.scanCtrlWrite fn v) s = .next t ∧ (t.fnq fn).scanOn = true ∧ t.b2 fn 0x3058 = kept
            ∧ { t with qm := s.qm, bar2 := s.bar2 } = s)
          ∧ (¬ok → ∃ t, exec (.scanCtrlWrite fn v) s = .next t ∧ (t.fnq fn).scanOn = false ∧ t.b2 fn 0x3058 = clrBit kept 48
            ∧ { t with qm := s.qm, bar2 := s.bar2 } = s))
        ∧ ∀ data : Bytes, ((s.fnq fn).scanOn = false → ∀ err, exec (.ringScan fn data err) s = .next s)
          ∧ ((s.fnq fn).scanOn = true →
              let base := (s.b2 fn 0x3050).toNat / 4096 * 4096
              let len := 4 * fld (s.b2 fn 0x3058) 17 13
              let block := (List.range (cdiv len 512)).map (fun i => OutMsg.hostRead fn (base + 512 * i) (min 512 (len - 512 * i)))
              exec (.ringScan fn data true) s = .next { s with out := { s.out with msgs := s.out.msgs ++ block } })
          ∧ ((s.fnq fn).scanOn = true → ∃ t, exec (.ringScan fn data false) s = .next t
              ∧ ∀ k < min (fld (s.b2 fn 0x3058) 17 13) (data.length / 4),
                  let w := leAt data (4 * k) 4
                  let x := fld (s.b2 fn 0x3058) 0 17 + k
                  NMap.getD (s.fnq fn).scanned k 0 ≠ w → s.ownsQueue fn x = true → (s.queue x).active = true → (s.queue x).mode = 2 →
                    (w + 2 ^ 32 - (s.queue x).tail) % 2 ^ 32 ≤ 2 ^ (s.queue x).log2 → (t.queue x).tail = w)

/-- Push slots gather 64 bytes, a torn one starts again, completion rings enable and take their head, the poll page is
written as told (R118, R119, R122, R123, R129, R130, R131, Tables 6-6, 6-10 and 6-12). Of an ACTIVE tenant. A write
into one push slot that held nothing: 64 bytes complete it, and a descriptor of an owned active mode 0 queue that
holds less than 32, with a hot context, passing the checks, waits at the end of its queue, while one for an owned
queue that is not active, or not of mode 0, is refused and counted; fewer bytes are held. A write over a byte already
held counts torn and holds only its own bytes. A time-out drops a partly filled slot and counts torn. CRCFG_CTRL
enables a disabled ring with 64 to 65,536 entries and its entry size, leaves it alone with another size, and disables
an enabled ring that no active queue maps to; CR_HEAD_WRITE sets the head, records that wait apart nothing else, and
of an index with no ring keeps what was written. PP_CTRL going to ENABLE writes the rest of the page as zeros, the
fields, then GTC and GEN 1; an update of an enabled page with a change, or a backlog, writes the fields, then GTC and
the next GEN. (Where the spec leaves a point open the statement takes the model's choice: log entries 37, 40, 67.) It
concludes that these commands answer a next state: pushWrite, pushTimeout, crcfgCtrlWrite, crHeadWrite, ppEnable,
pollUpdate, backlogUpdate. -/
def Obligations.PushWindowRingsAndPollPage : Prop :=
  ∀ (s : State) (fn : Fn), s.tenActive fn = true →
    (∀ (k off : Nat) (d : Bytes), k < 64 → d ≠ [] → off + d.length ≤ 64 →
      (NMap.find? (s.fnq fn).push k = none →
        (d.length = 64 →
          let q := dQueue d
          let r := s.queue q
          (s.ownsQueue fn q = true → r.active = true → r.mode = 0 → r.holds < 32 → r.fetching = [] → q ∈ s.qm.hot → s.qm.hot.length ≤ 4096 →
            descCheck (s.ring ((s.queueRing q).getD 0)).entry64 d = none → s.ras.drain = 0 →
            ∃ t, exec (.pushWrite fn (64 * k + off) d) s = .next t
              ∧ (t.queue q).waiting.map (·.raw) = r.waiting.map (·.raw) ++ [d] ∧ NMap.find? (t.fnq fn).push k = none
              ∧ (∀ j, j ≠ q → t.queue j = s.queue j) ∧ { t with qm := s.qm } = s)
          ∧ (s.ownsQueue fn q = true → (r.active = false ∨ r.mode ≠ 0) →
            ∃ t, exec (.pushWrite fn (64 * k + off) d) s = .next t ∧ t.qm.refused = wrap1 16 s.qm.refused
              ∧ (t.fnq fn).refused = wrap1 16 (s.fnq fn).refused ∧ t.qm.queues = s.qm.queues ∧ { t with qm := s.qm } = s))
        ∧ (d.length < 64 →
            ∃ t, exec (.pushWrite fn (64 * k + off) d) s = .next t
              ∧ (∀ i < 64, ((NMap.find? (t.fnq fn).push k).map (fun h => NMap.find? h.held i))
                  = some (if off ≤ i ∧ i < off + d.length then some (d.getD (i - off) 0) else none))
              ∧ t.qm.queues = s.qm.queues ∧ { t with qm := s.qm } = s))
      ∧ ∀ (h : PushSlot), NMap.find? (s.fnq fn).push k = some h → d.length < 64 → (∃ i, off ≤ i ∧ i < off + d.length ∧ (NMap.find? h.held i).isSome) →
          ∃ t, exec (.pushWrite fn (64 * k + off) d) s = .next t ∧ t.qm.torn = wrap1 16 s.qm.torn ∧ (t.fnq fn).torn = wrap1 16 (s.fnq fn).torn
            ∧ (∀ i < 64, ((NMap.find? (t.fnq fn).push k).map (fun h => NMap.find? h.held i))
                = some (if off ≤ i ∧ i < off + d.length then some (d.getD (i - off) 0) else none))
            ∧ t.qm.queues = s.qm.queues ∧ { t with qm := s.qm } = s)
    ∧ (∀ k h, NMap.find? (s.fnq fn).push k = some h →
        ∃ t, exec (.pushTimeout fn k) s = .next t ∧ NMap.find? (t.fnq fn).push k = none ∧ t.qm.torn = wrap1 16 s.qm.torn
          ∧ (t.fnq fn).torn = wrap1 16 (s.fnq fn).torn ∧ t.qm.queues = s.qm.queues ∧ { t with qm := s.qm } = s)
    ∧ (∀ (v : Word) (r : Nat), s.ringOf fn (fld (s.b2 fn 0x3020) 0 7) = some r →
        ((s.ring r).enabled = false → bitOf v 16 = true →
          (6 ≤ fld v 0 5 → fld v 0 5 ≤ 16 →
            ∃ t, exec (.crcfgCtrlWrite fn v) s = .next t ∧ (t.ring r).enabled = true ∧ (t.ring r).log2 = fld v 0 5
              ∧ (t.ring r).entry64 = bitOf v 8 ∧ (t.ring r).base = (s.ring r).base ∧ (∀ j, j ≠ r → t.ring j = s.ring j))
          ∧ ((fld v 0 5 < 6 ∨ 16 < fld v 0 5) → exec (.crcfgCtrlWrite fn v) s = .next s))
        ∧ ((s.ring r).enabled = true → bitOf v 16 = false → s.ringInUse r = false →
            ∃ t, exec (.crcfgCtrlWrite fn v) s = .next t ∧ t.ring r = { s.ring r with enabled := false }
              ∧ (∀ j, j ≠ r → t.ring j = s.ring j) ∧ { t with qm := s.qm } = s)
        ∧ ((s.ring r).enabled = true → (bitOf v 16 = true ∨ s.ringInUse r = true) → exec (.crcfgCtrlWrite fn v) s = .next s))
    ∧ (∀ (i : Nat) (v : Word) (r : Nat), s.ringOf fn i = some r →
        ∃ t, exec (.crHeadWrite fn i v) s = .next t ∧ (t.ring r).head = fld v 0 32 ∧ (∀ j, j ≠ r → t.ring j = s.ring j)
          ∧ ((s.ring r).backlog = [] → t.ring r = { s.ring r with head := fld v 0 32 } ∧ { t with qm := s.qm } = s))
    ∧ (∀ (i : Nat) (v : Word), s.ringOf fn i = none →
        ∃ t, exec (.crHeadWrite fn i v) s = .next t ∧ t.b2 fn (0x2000 + 8 * i) = v &&& maskW [(0, 32)]
          ∧ { t with bar2 := s.bar2 } = s)
    ∧ let base := (s.b2 fn 0x3040).toNat / 4096 * 4096
      let page := fun (gen : Nat) (m : List OutMsg) (t : State) => (t.fnq fn).gen = gen ∧ (t.fnq fn).dirty = false
        ∧ t.out.msgs = s.out.msgs ++ m ++ [.hostWrite fn (base + 0x10) (s.pollFields fn), .hostWrite fn base (le 8 gen ++ le 8 (s.view 0x90))]
      (∀ v : Word, bitOf v 0 = true → s.pollOn fn = false →
        ∃ t, exec (.ppEnable fn v) s = .next t ∧ page 1 [.hostWrite fn (base + 0x440) (zeros 3008)] t
          ∧ t.b2 fn 0x3048 = v &&& maskW [(0, 1), (8, 14)] ∧ { t with qm := s.qm, bar2 := s.bar2, out := s.out } = s)
      ∧ (s.pollOn fn = true →
          ((s.fnq fn).dirty = true → ∃ t, exec (.pollUpdate fn) s = .next t ∧ page (((s.fnq fn).gen + 1) % 2 ^ 64) [] t
            ∧ { t with qm := s.qm, out := s.out } = s)
          ∧ ((s.fnq fn).dirty = false → exec (.pollUpdate fn) s = .next s)
          ∧ ((∃ m < 64, (s.roomCfg? m).isSome ∧ s.roomTenant m = fn.val ∧ s.roomWaiting m ≠ 0) →
            ∃ t, exec (.backlogUpdate fn) s = .next t ∧ page (((s.fnq fn).gen + 1) % 2 ^ 64) [] t ∧ { t with qm := s.qm, out := s.out } = s))

/-- The dispatcher starts its next head on a slot of each island; a failing start, a NOP and a STATE_ZERO complete
with their record (R113, R116, R121, R126, R135, R142, R306, R332, Tables 6-3, 7-1 and 7-2). TASK_START, where the
dispatcher of a room has a next head, a RUN: if a check fails, the descriptor leaves its queue and its record has that
status and DETAIL; else a new task holds it, its queue counts one more running and its ring one more reserved slot,
and on each island of a segment the lowest free slot is READY for it, at the segment's entry point, with the stack
pointer at the top of the slot's window, g1 at the lead slot's copy of the descriptor, its segment number, its working
pages, and every other register 0; with no next head it starts nothing. A NOP that heads its queue and may start
completes with OK, LATE past its deadline by the dispatcher's view, or DEADLINE_DROPPED with DROP_LATE (on the
secondary of a pair, as the start message says). A STATE_ZERO that the dispatcher starts next, passing its checks,
zeroes its state block for the graph's size and completes with OK or LATE. What leaves the device before an unpaired
descriptor's record is reads of its owner's memory. (Where the spec leaves a point open the statement takes the
model's choice: log entries 5, 37, 39, 72.) It concludes that these commands answer a next state: taskStart, nop,
stateZero. -/
def Obligations.TasksStartAndShortDescriptorsComplete : Prop :=
  ∀ s : State,
    let record := fun (q m r st detail : Nat) (e : QEntry) => OutMsg.hostWrite ((s.ringOwner r).getD 0)
      ((s.ring r).base + (s.ring r).tail % 2 ^ (s.ring r).log2 * (if (s.ring r).entry64 then 64 else 32))
      ((unpackRec (s.descRec q e.raw st detail (s.dispView m - e.accGtc)).pack).bytes (s.ring r).phase (s.view 0x90) (s.ring r).entry64)
    let before := fun (q : Nat) (e : QEntry) (pre : List OutMsg) =>
      e.twin = none → ∀ x ∈ pre, ∃ a l, x = OutMsg.hostRead ((s.queueOwner q).getD 0) a l
    (∀ (m : Room) (q : Nat) (e : QEntry), s.nextHead m = some (q, e) → dOp e.raw = 1 →
      (∀ st detail, s.startCheck m q e = .fails st detail →
        ∃ t, exec (.taskStart m) s = .next t ∧ (t.queue q).waiting = (s.queue q).waiting.drop 1 ∧ t.tasks = s.tasks ∧ t.isl = s.isl
          ∧ ∀ r, s.queueRing q = some r →
              ∃ pre, before q e pre ∧ s.out.msgs ++ pre ++ [record q m r st detail e] <+: t.out.msgs)
      ∧ ∀ w i g late r, s.startCheck m q e = .goes w i g late → s.roomCfg? m = some r →
          let tid := s.tasks.next
          ∃ t, exec (.taskStart m) s = .next t ∧ t.tasks.next = tid + 1
            ∧ (t.task? tid).map (fun k => (k.queue, k.room, k.tenant, k.ent, k.late, k.status)) = some (q, m.val, s.roomTenant m, e, late, none)
            ∧ (∀ j, j ≠ tid → t.task? j = s.task? j)
            ∧ (t.queue q).waiting = (s.queue q).waiting.drop 1 ∧ (t.queue q).running = (s.queue q).running + 1
            ∧ (∀ x, s.queueRing q = some x → (t.ring x).reserved = (s.ring x).reserved + 1)
            ∧ ∀ x ∈ g.segOn 0 r.isls, ∀ k, s.freeSlot x.1 r.slots = some k →
                let y := t.slot x.1 k
                y.st = .ready ∧ y.task = tid ∧ y.pc = g.progOn x.1 + x.2.2.entry ∧ y.seg = x.2.1
                  ∧ y.pages = (s.freePages x.1).take x.2.2.pages ∧ y.getReg 30 = BitVec.ofNat 64 (s.stackHi x.1 k)
                  ∧ y.getReg 2 = BitVec.ofNat 64 x.2.1
                  ∧ (∀ lead, s.freeSlot r.dispatcher r.slots = some lead → y.getReg 1 = BitVec.ofNat 64 (descCopyAt lead))
                  ∧ ∀ j, j ≠ 1 → j ≠ 2 → j ≠ 30 → y.getReg j = 0)
    ∧ (∀ (m : Room), s.nextHead m = none → ∃ t, exec (.taskStart m) s = .next t ∧ t.tasks = s.tasks ∧ t.isl = s.isl ∧ t.qm.queues = s.qm.queues)
    ∧ (∀ (q m r : Nat) (e : QEntry) (rest : List QEntry), (s.queue q).waiting = e :: rest → s.queueRoom q = some m → dOp e.raw = 2 →
        s.roomHeld m = false → s.headReady m q e = true → s.queueRing q = some r → (s.ring r).free = true → (s.ring r).backlog = [] →
        let late := dDeadline e.raw ≠ 0 ∧ dDeadline e.raw < s.dispView m
        let l := s.lateness m q e
        (e.twin = none → l = if late then (if dDropLate e.raw then 2 else 1) else 0)
        ∧ ∃ t pre, exec (.nop q) s = .next t ∧ (t.queue q).waiting = rest ∧ (t.ring r).tail = wrap1 32 (s.ring r).tail
          ∧ before q e pre ∧ t.out.msgs = s.out.msgs ++ pre ++ [record q m r (if l = 2 then 0x60 else l) 0 e]
          ∧ (e.twin = none → t.repro = s.repro) ∧ { t with qm := s.qm, out := s.out, repro := s.repro } = s)
    ∧ ∀ (q m w i : Nat) (e : QEntry) (g : PEntry) (late : Bool), s.queueRoom q = some m → s.nextHead m = some (q, e) → dOp e.raw = 3 →
        s.startCheck m q e = .goes w i g late →
        ∃ t, exec (.stateZero q) s = .next t ∧ (t.queue q).waiting = (s.queue q).waiting.drop 1
          ∧ (∀ a, Mem.byte t.cellar.store.mem a = if dUsesState e.raw = true ∧ dState e.raw ≤ a ∧ a < dState e.raw + g.stateBytes then 0
              else Mem.byte s.cellar.store.mem a)
          ∧ (∀ r, s.queueRing q = some r → (t.ring r).tail = wrap1 32 (s.ring r).tail
              ∧ ∃ pre, before q e pre ∧ t.out.msgs = s.out.msgs ++ pre ++ [record q m r (b2n late) 0 e])
          ∧ (e.twin = none → t.repro = s.repro)
          ∧ { t with qm := s.qm, out := s.out, cellar := s.cellar, repro := s.repro } = s ∧ t.tasks = s.tasks

/-- Pairing checks and comparisons decide, a divergence is recorded, an overdue message ends in SOLO, a digest's
missing bytes are fetched (R300, R303, R304, R305, R306, R308, R309, R310, Tables 14-6 and 14-7). PAIR with no twin
port is OFF with result 2; with one it is PAIRING and presents its checks; checks of the partner that agree make it
PAIRED, primary if its chip ID is lower, others OFF with their result; while PAIRING or PAIRED it does nothing. The
time-out of PAIRING is OFF with 6. UNPAIR is OFF. While PAIRED the secondary keeps each start message; a comparison
message waits for its task, is kept where none bears its number yet, and is dropped for a number that has ended here;
against a task that is comparing, equal runs count COMPARED and complete the task, and runs that differ also count
DIVERGED, record the room and the first differing block and complete it. An overdue message makes a PAIRED device SOLO
and counts it. DIGEST_REFETCH outside Level T appends the bytes missing to those hashed and counts them; a failed read
is asked again. REARM of a BROKEN room with no task and a cool junction makes it TIMED with the next TEPOCH; with a
task it waits; with a hot junction it is spent. UNPAIR and the overdue message are said for a device on which no task
bears a twin number. (Where the spec leaves a point open the statement takes the model's choice: log entries 57, 58.)
It concludes that these commands answer a next state: rearm, pair, unpair, pairingTimeout, twinStartMsg, twinCompare,
twinSoloTimeout, digestRefetch. -/
def Obligations.PairingTwinsAndTimedRooms : Prop :=
  ∀ s : State,
    let only := fun (r : Repro) (t : State) => t.repro = r ∧ { t with repro := s.repro } = s
    ((s.repro.st = .pairing ∨ s.repro.st = .paired) → ∀ x, exec (.pair x) s = .next s)
    ∧ (s.repro.st ≠ .pairing → s.repro.st ≠ .paired →
        (s.twinPort = none → ∀ x, ∃ t, exec (.pair x) s = .next t ∧ only { s.repro with st := .off, pairResult := 2 } t)
        ∧ ∀ p, s.twinPort = some p →
            exec (.pair none) s = .next { s with repro := { s.repro with st := .pairing, pairResult := 0, pairAt := s.view 0x90 },
                                                 out := { s.out with msgs := s.out.msgs ++ [.twinPair (s.ownCheck p)] } }
            ∧ ∀ x, let r := s.pairJudge p x
                ∃ t, exec (.pair (some x)) s = .next t ∧ t.repro.pairResult = r ∧ t.repro.st = (if r = 1 then .paired else .off)
                  ∧ (r = 1 → t.repro.peer = x.chip ∧ t.repro.primary = decide (s.cell.chip < x.chip) ∧ t.repro.starts = []
                      ∧ t.repro.early = [] ∧ ∀ q, (t.queue q).twinNo = 0))
    ∧ (s.repro.st = .pairing → ∃ t, exec .pairingTimeout s = .next t ∧ t.repro = { s.repro with st := .off, pairResult := 6 }
        ∧ { t with repro := s.repro, clk := s.clk } = s)
    ∧ (s.repro.st ≠ .pairing → exec .pairingTimeout s = .next s)
    ∧ ((∀ e ∈ s.tasks.live, e.2.ent.twin = none) →
        (∃ t, exec .unpair s = .next t ∧ only { s.repro with st := .off, starts := [], early := [] } t)
        ∧ (s.repro.st = .paired → ∃ t, exec .twinSoloTimeout s = .next t
            ∧ t.repro = { s.repro with st := .solo, soloEvents := sat1 16 s.repro.soloEvents, starts := [], early := [] }
            ∧ s.raises 0x90 9 3 noTenant 2 [s.twinPort.getD 0] t ∧ { t with repro := s.repro, ledg := s.ledg, clk := s.clk } = s))
    ∧ (s.repro.st ≠ .paired → exec .twinSoloTimeout s = .next s ∧ ∀ q no m, exec (.twinCompare q no m) s = .next s)
    ∧ (s.repro.st = .paired → s.repro.primary = false → ∀ q no o,
        exec (.twinStartMsg q no o) s = .next { s with repro := { s.repro with starts := s.repro.starts ++ [(q, no, o)] } })
    ∧ (s.repro.st = .paired → ∀ (q no : Nat) (msg : TwinMsg),
        (s.twinTask q no = none →
          let ended := no < (s.queue q).twinNo ∧ ∀ e ∈ (s.queue q).waiting, e.twin ≠ some no
          (ended → exec (.twinCompare q no msg) s = .next s)
          ∧ (¬ended → exec (.twinCompare q no msg) s = .next { s with repro := { s.repro with early := s.repro.early ++ [(q, no, msg)] } }))
        ∧ ∀ i tk, s.twinTask q no = some (i, tk) → s.task? i = some tk →
            (tk.comparing = false → ∃ t, exec (.twinCompare q no msg) s = .next t ∧ t.task? i = some { tk with peerMsg := some msg }
              ∧ (∀ j, j ≠ i → t.task? j = s.task? j) ∧ { t with tasks := s.tasks } = s)
            ∧ (tk.comparing = true → comparable tk.final.1 = true → comparable msg.status = true →
                let mine := s.twinMsgOf tk tk.final.1 tk.final.2
                let d := firstDiff mine.blocks msg.blocks
                ∃ t, exec (.twinCompare q no msg) s = .next t ∧ t.task? i = none
                  ∧ t.repro.compared = wrap1 32 s.repro.compared
                  ∧ (twinDiff mine msg = 0 → t.repro.diverged = s.repro.diverged)
                  ∧ (twinDiff mine msg ≠ 0 → t.repro.diverged = sat1 16 s.repro.diverged ∧ t.repro.firstRoom = tk.room
                      ∧ ∀ key gl gp, d = some (key, gl, gp) → t.repro.firstKind = key / 2 ^ 32 ∧ t.repro.gtcLocal = gl ∧ t.repro.gtcPeer = gp)))
    ∧ (∀ (n : IslN) (k : SlotN) (data : Bytes) (tk : Task) (g : Nat), s.task? (s.slot n k).task = some tk → tk.refetchAt = some g →
        let want := dInLen tk.ent.raw - tk.hashed.length
        (want ≠ 0 → s.levelT tk.room = false →
          ∃ t, exec (.digestRefetch n k data false) s = .next t
            ∧ t.task? (s.slot n k).task = some { tk with hashed := tk.hashed ++ fit want data }
            ∧ only { s.repro with refetchBytes := s.repro.refetchBytes + want } { t with tasks := s.tasks })
        ∧ ∃ t, exec (.digestRefetch n k data true) s = .next t
            ∧ t.task? (s.slot n k).task = some { tk with refetchAt := some (s.view 0x90) }
            ∧ t.out.msgs = s.out.msgs ++ [.hostRead tk.tenant (dInAddr tk.ent.raw + tk.hashed.length) want]
            ∧ { t with tasks := s.tasks, out := s.out } = s)
    ∧ ∀ m : Room,
        let r := s.room m
        let becomes := fun (x : RoomRt) => ∃ t, exec (.rearm m) s = .next t ∧ t.room m = x ∧ (∀ j, j ≠ m.val → t.room j = s.room j)
          ∧ { t with ten := s.ten } = s
        (r.timed ≠ 2 → exec (.rearm m) s = .next s)
        ∧ (r.timed = 2 → s.roomRunning m ≠ 0 → becomes { r with rearm := true })
        ∧ (r.timed = 2 → s.roomRunning m = 0 → s.hotJunction = true → becomes { r with rearm := false })
        ∧ (r.timed = 2 → s.roomRunning m = 0 → s.hotJunction = false →
            becomes { r with timed := 1, rearm := false, tepoch := wrap1 16 r.tepoch })

/-- A LOAD is checked and reserved or refused with its code; done, the islands hold the program and the entry is
resident; UNLOAD frees it (R324, R325, R326, R327, R328, R329, Tables 15-8 and 15-10). For a Pantry window with a LOAD
request taken: one that fails a check leaves the request, posts the check's code, the graph and WHERE, then SEQ, in
the RES line, and where the window has no entry for the pair, and none of the tenant's holds it resident, a free entry
is refused with that code; one that passes runs, with the entry it will fill, and a resident graph that it replaces in
its window shows STATE 2. GRAPH_LOAD_DONE, once no task runs the graph it replaces: each island of its runs holds the
program and then the pinned weights, as they lie in the image, the entry is the new one, the request is over and the
result 0; while a task runs it nothing changes. (Both for a pair that no other window of the tenant holds resident.)
An UNLOAD request of a resident graph that no task runs empties the entry and posts 0; with a task the entry is held
and the request waits; of a graph not resident it posts 0x1B. (Where the spec leaves a point open the statement takes
the model's choice: log entry 55.) It concludes that these commands answer a next state: load, unload, graphLoadDone.
-/
def Obligations.PantryLoadsReplaceAndUnload : Prop :=
  ∀ (s : State) (w : Win) (c : WindowCfg), s.pantryWin w = some c →
    let p := s.pwin w
    let s1 := s.modPwin w (fun p => { p with queued := none })
    let res := fun (seq result graph whr : Nat) (t : State) =>
      t.cellar.store.read (c.base + 0x40) 12 = le 4 seq ++ le 1 result ++ le 1 0 ++ le 2 graph ++ le 4 whr
    let frame := fun (t : State) => { t with cellar := s.cellar, pantry := s.pantry } = s ∧ ∀ v, v ≠ w.val → t.pwin v = s.pwin v
    (∀ room g0 seq off before total, p.queued = some (1, room, g0, seq, off) →
      (∀ f, s1.loadCheck w room off before total = .error f →
        ∃ t, exec (.load w before total) s = .next t ∧ (t.pwin w).queued = none ∧ (t.pwin w).req = p.req
          ∧ res seq f.code (f.graph.getD 0) f.whr t ∧ frame t
          ∧ (f.graph = none → (t.pwin w).entries = p.entries)
          ∧ ∀ id i, f.graph = some id → s.resident? c.tenant room id = none → p.findEntry id room = none → p.freeEntry = some i →
              (NMap.find? (t.pwin w).entries i).map (fun e => (e.graph, e.room, e.state, e.code)) = some (id, room, 3, f.code))
      ∧ ∀ i e, s1.loadCheck w room off before total = .ok (i, e) → s.elsewhere w c.tenant e.graph room = [] →
          ∃ t, exec (.load w before total) s = .next t ∧ (t.pwin w).queued = none
            ∧ (t.pwin w).req.map (fun r => (r.load, r.room, r.graph, r.seq, r.imageOff, r.entry, r.newEntry))
                = some (true, room, e.graph, seq, off, i, some e)
            ∧ (∀ o, NMap.find? p.entries i = some o → o.live = true → (NMap.find? (t.pwin w).entries i).map (·.state) = some 2)
            ∧ (∀ j, j ≠ i → NMap.find? (t.pwin w).entries j = NMap.find? p.entries j) ∧ frame t)
    ∧ (∀ r, p.req = some r →
        (s.graphRuns w r.entry = true → exec (.graphLoadDone w) s = .next s)
        ∧ (s.graphRuns w r.entry = false → s.replaced w r = [] →
          (∀ e, r.newEntry = some e → (e.runs.map (·.island)).Nodup →
            let base := c.base + r.imageOff
            let g : Img := fun off len => s.cellarRead (base + off) len
            ∃ t, exec (.graphLoadDone w) s = .next t ∧ (t.pwin w).req = none ∧ NMap.find? (t.pwin w).entries r.entry = some e
              ∧ (∀ j, j ≠ r.entry → NMap.find? (t.pwin w).entries j = NMap.find? p.entries j) ∧ res r.seq 0 r.graph 0 t
              ∧ (∀ x ∈ e.runs.zipIdx,
                  let o := g.seg (e.first + x.2)
                  let sh := (t.island x.1.island).shelf
                  sh.read x.1.prog x.1.progLen = s.cellarRead (base + g.num o 4) x.1.progLen
                    ∧ sh.read (x.1.prog + x.1.progLen) x.1.pinLen = s.cellarRead (base + g.num (o + 8) 4) x.1.pinLen
                    ∧ (∀ a, a < x.1.prog ∨ x.1.prog + x.1.progLen + x.1.pinLen ≤ a →
                        Mem.byte sh.mem a = Mem.byte (s.island x.1.island).shelf.mem a))
              ∧ (∀ n, n ∉ e.runs.map (·.island) → t.island n = s.island n))
          ∧ (r.newEntry = none → ∃ t, exec (.graphLoadDone w) s = .next t ∧ (t.pwin w).req = none
              ∧ NMap.find? (t.pwin w).entries r.entry = none ∧ res r.seq 0 r.graph 0 t ∧ frame t)))
    ∧ ∀ room graph seq off, p.queued = some (2, room, graph, seq, off) →
        (∀ i e, p.findEntry graph room = some (i, e) → e.state = 1 →
          (s.graphRuns w i = false → ∃ t, exec (.unload w) s = .next t ∧ NMap.find? (t.pwin w).entries i = none
            ∧ (t.pwin w).req = none ∧ (t.pwin w).queued = none ∧ res seq 0 graph 0 t ∧ frame t)
          ∧ (s.graphRuns w i = true → ∃ t, exec (.unload w) s = .next t ∧ (t.pwin w).queued = none
              ∧ NMap.find? (t.pwin w).entries i = some { e with held := true } ∧ (t.pwin w).req.isSome ∧ t.cellar = s.cellar ∧ frame t))
        ∧ (p.findEntry graph room = none → ∃ t, exec (.unload w) s = .next t ∧ (t.pwin w).queued = none ∧ (t.pwin w).req = p.req
            ∧ (t.pwin w).entries = p.entries ∧ res seq 0x1B graph 0 t ∧ frame t)

/-- BAR4 reaches a host window of its function only, protected images refuse a write, a REQ line hands over its
request; scrubbers count (R95, R320, R324, R329, R333, R335, R337, Tables 5-4 and 15-12). A BAR4 read within a host
window of the function that allows it, not under scrubbing, returns the bytes of the Cellar and, with EP, whether a
line of them is poisoned, counts its lines and changes nothing else; outside any, a VF reads zeros and raises
ADDR_VIOL, and its write is discarded with the same. (All within the BAR4 size in force; an access beyond it changes
nothing.) A write within one stores its bytes unless it touches the image of a resident graph or of a running LOAD,
when nothing is stored and ADDR_VIOL is raised; one that sets the GO byte of a Pantry window's REQ line, with no
request there, takes the request. A Cellar scrub of a line of the controller counts it; a corrected error counts; one
that cannot be corrected counts, records the line and raises event 4/3, and the line is poisoned where no directory
entry's image holds it. A Shelf scrub of a word does the same in its island with event 4/1. (Where the spec leaves a
point open the statement takes the model's choice: log entry 56.) It concludes that these commands answer a next
state: bar4Read, bar4Write, cellarScrub, shelfScrub. -/
def Obligations.HostWindowsAndScrubbers : Prop :=
  (∀ (s : State) (fn : Fn) (a : Nat), (∀ len, s.inBar4 a len = false → exec (.bar4Read fn a len) s = .next s)
      ∧ ∀ d : Bytes, s.inBar4 a d.length = false → exec (.bar4Write fn a d) s = .next s)
  ∧ (∀ (s : State) (fn : Fn) (a len : Nat), s.inBar4 a len = true → s.hostWin fn a len false = true → s.scrubbing fn = false →
      ∃ t, exec (.bar4Read fn a len) s = .next t ∧ t.out.rdBytes = s.cellar.store.read a len
        ∧ t.out.rdEp = (s.cellar.store.poisonIn lineB a len).isSome ∧ t.cellar.store = s.cellar.store
        ∧ { t with out := s.out, cellar := s.cellar } = s)
  ∧ (∀ (s : State) (fn : Fn) (a len : Nat), s.inBar4 a len = true → s.hostWin fn a len false = false → fn ≠ 0 →
      ∃ t, exec (.bar4Read fn a len) s = .next t ∧ t.out.rdBytes = zeros len ∧ t.out.rdEp = false
        ∧ (t.tenant fn).violA = sat1 16 (s.tenant fn).violA ∧ s.raises 0xB0 2 2 fn 2 [a] t ∧ t.cellar = s.cellar)
  ∧ (∀ (s : State) (fn : Fn) (a : Nat) (d : Bytes), s.inBar4 a d.length = true →
      (s.hostWin fn a d.length true = false → fn ≠ 0 →
        ∃ t, exec (.bar4Write fn a d) s = .next t ∧ t.cellar = s.cellar ∧ s.raises 0xB0 2 2 fn 2 [a] t
          ∧ { t with ten := s.ten, qm := s.qm, ledg := s.ledg, clk := s.clk } = s)
      ∧ (s.hostWin fn a d.length true = true → s.scrubbing fn = false →
        ((∃ x ∈ s.guardedExtents, a < x.1 + x.2 ∧ x.1 < a + d.length) →
          ∃ t, exec (.bar4Write fn a d) s = .next t ∧ t.cellar = s.cellar ∧ s.raises 0xB0 2 2 fn 2 [a] t)
        ∧ ((∀ x ∈ s.guardedExtents, x.1 + x.2 ≤ a ∨ a + d.length ≤ x.1) →
          let hits := s.living.windows.filter (fun e => e.2.kind == 1 && decide (a ≤ e.2.base + 0x3F) && decide (e.2.base + 0x3F < a + d.length)
            && d[e.2.base + 0x3F - a]? == some 1)
          (hits = [] → ∃ t, exec (.bar4Write fn a d) s = .next t ∧ Store.stored lineB a d s.cellar.store t.cellar.store
            ∧ { t with cellar := s.cellar } = s)
          ∧ ∀ w c, hits = [(w, c)] → s.pantryWin w = some c → (s.pwin w).req = none → (s.pwin w).queued = none →
              let b := (s.cellar.store.write lineB a d).read c.base 64
              (leAt b 0 1 = 1 ∨ leAt b 0 1 = 2) →
              ∃ t, exec (.bar4Write fn a d) s = .next t
                ∧ t.pwin w = { s.pwin w with queued := some (leAt b 0 1, leAt b 1 1, leAt b 2 2, leAt b 4 4, leAt b 8 8) }
                ∧ Mem.byte t.cellar.store.mem (c.base + 0x3F) = 0 ∧ Mem.byte t.cellar.store.mem (c.base + 0x44) = 0xFF)))
  ∧ (∀ (s : State) (ctl : Fin 4) (line : Nat), line / 4 % 4 = ctl.val → line < 48 * 2 ^ 30 / 64 →
      let a := line * 64
      let counts := fun (t : State) => t.cellar.scrubbed = (if s.cellar.scrubbed + 1 = 48 * 2 ^ 30 / 64 then 0 else s.cellar.scrubbed + 1)
      (∃ t, exec (.cellarScrub ctl line .clean) s = .next t ∧ counts t ∧ t.cellar.store = s.cellar.store ∧ t.cellar.ctl = s.cellar.ctl
        ∧ { t with cellar := s.cellar } = s)
      ∧ (∃ t, exec (.cellarScrub ctl line .corrected) s = .next t ∧ counts t ∧ t.cellar.store = s.cellar.store
          ∧ t.cctl ctl = { s.cctl ctl with corrected := sat1 32 (s.cctl ctl).corrected } ∧ { t with cellar := s.cellar } = s)
      ∧ (∃ t, exec (.cellarScrub ctl line .uncorrectable) s = .next t ∧ counts t ∧ (t.cctl ctl).uncorr = sat1 16 (s.cctl ctl).uncorr
          ∧ (t.cctl ctl).lastErr = line ∧ s.raises (0x80 + ctl) 4 3 (s.addrTenant a) 3 [a] t
          ∧ ((∀ w ∈ s.pantry, ∀ c, s.pantryWin w.1 = some c → ∀ e ∈ w.2.entries,
                ¬(c.base + e.2.imageOff ≤ a ∧ a < c.base + e.2.imageOff + e.2.length)) →
              t.cellar.store.mem = s.cellar.store.mem ∧ ∀ x, x ∈ t.cellar.store.poison ↔ x = a ∨ x ∈ s.cellar.store.poison)))
  ∧ ∀ (s : State) (n : IslN) (word : Nat), word < 2 ^ 18 →
      let i := s.island n
      exec (.shelfScrub n word .clean) s = .next s
      ∧ (∃ t, exec (.shelfScrub n word .corrected) s = .next t ∧ t.island n = { i with shCorr := sat1 32 i.shCorr } ∧ s.onlyIsl n t)
      ∧ ∃ t, exec (.shelfScrub n word .uncorrectable) s = .next t
          ∧ t.island n = { i with shUncorr := sat1 16 i.shUncorr, shelf := i.shelf.mark [word * 8] }
          ∧ s.raises (0x10 + n) 4 1 (match s.roomOf n with | some m => s.roomTenant m | none => noTenant) 3 [word * 8] t
          ∧ { t with isl := s.isl, ledg := s.ledg, clk := s.clk } = s

/-- Time messages, the reference, the thermal factor, retunes, mesh errors and stalled passages do what their rules
say (R28, R32, R33, R35, R39, R40, R41, R98, R298, R316, R376, R447). MESH_PACKET_ARRIVE of a packet that has a way
through the mesh and is the next of its class between its two ends: it counts as come; an uncorrectable header loses
the outstanding request it serves and raises 5/2, a wrong lane parity poisons the parts of that request's data and
raises 5/1, any other raises nothing; a packet out of order, or without a way, changes nothing. GTC_FULL_VALUE within
4 ns of the master that differs from an island's view becomes that view, RESYNCS counts it (saturating) and 7/1 tells
it; an equal one, or one further off, changes nothing. A measured error of at most 4 ns is recorded; a larger one
recalibrates the island and raises 7/2, and above 16 ns, or with more than 4 ns left, a healthy unit becomes SUSPECT
with CAUSE 4. Loss of the reference sets REF_LOST, makes ALIGN HOLDOVER unless SOLO, and raises 7/3; its return clears
it with 7/4. A deferred forward step is applied once no Level T task runs: the GTC moves on, STEPS counts. A thermal
step stores the readings, and each Cellar controller shows its own stack's; k falls by one, to 8 at least, when a
sensor is at 95 degrees C or the power above its limit, and rises by one, to 32 at most, when all has been cool; a
fall from 32 counts a throttle; at THARD_C a TIMED room with a task breaks with cause 2; with no room at Level T every
island's ceiling in force is that of R19 and R447. A retune that ends puts the island at its new ceiling.
PASSAGE_STALL of a passage with handshakes outstanding, not stalled before: its lanes are held, tasks that wait on it
end with INTERNAL, its SERVING room is FAULTED with cause 1, and in a room in another state 5/3 is all that is raised.
(Where the spec leaves a point open the statement takes the model's choice: log entries 3, 17, 24, 25, 26, 47, 79.) It
concludes that these commands answer a next state: meshPacketArrive, passageStall, gtcFullValue, gtcErrMeasure,
refLost, refRestored, thermalStep, dcoRetune, gtcStepApply. -/
def Obligations.TimeAndClocksFollowTheirEvents : Prop :=
  ∀ s : State,
    (∀ p : MeshPacket,
      ((packetRoute p = none ∨ p.seq ≠ s.meshSeen p) → exec (.meshPacketArrive p) s = .next s)
      ∧ ((packetRoute p).isSome = true → p.seq = s.meshSeen p →
        let flows := NMap.set s.mesh.flows (packetFlow p) (p.seq + 1)
        let serves := fun (f : MeshReq → Dma → Dma) (t : State) => t.mesh.flows = flows
          ∧ (∀ r d, p.req = some r → s.meshTag r = true → s.tag? r.isl r.slot r.tag = some d →
              t.tag? r.isl r.slot r.tag = some (f r d))
          ∧ ((p.req = none ∨ ∀ r, p.req = some r → s.meshTag r = false) → t.isl = s.isl)
          ∧ { t with mesh := s.mesh, isl := s.isl, ledg := s.ledg, clk := s.clk } = s
        (p.header = .uncorrectable → ∃ t, exec (.meshPacketArrive p) s = .next t ∧ s.raises 0 5 2 noTenant 3 [p.src] t
          ∧ serves (fun _ d => { d with lost := true }) t)
        ∧ (p.header ≠ .uncorrectable → (∀ f ∈ p.flits, flitOk f = true) →
          exec (.meshPacketArrive p) s = .next { s with mesh := { s.mesh with flows := flows } })
        ∧ (p.header ≠ .uncorrectable → (∃ f ∈ p.flits, flitOk f = false) → ∃ t, exec (.meshPacketArrive p) s = .next t
            ∧ s.raises p.dst 5 1 noTenant 3 [p.src] t
            ∧ serves (fun r d => { d with meshBad := d.meshBad ++ packetBad p r.off }) t)))
    ∧ (∀ src value, s.clk.valid = true → hasCell src = true →
        let new : Nat := (value + (s.clkIsl src).offs) % 2 ^ 64
        let u := (s.modClkIsl src (fun c => { c with lag := Int.ofNat value - s.clk.gtc })).modClk
          (fun c => { c with resyncs := sat1 16 c.resyncs })
        ((new = s.view src ∨ s.nearMaster new = false) → exec (.gtcFullValue src value) s = .next s)
        ∧ (new ≠ s.view src → s.nearMaster new = true → ∃ t, exec (.gtcFullValue src value) s = .next t ∧ t.view src = new
            ∧ t.clk.resyncs = sat1 16 s.clk.resyncs ∧ t.clk.gtc = s.clk.gtc ∧ (∀ j, j ≠ src → t.clkIsl j = s.clkIsl j)
            ∧ u.raises src 7 1 noTenant 1 [src] t ∧ { t with ledg := s.ledg, clk := s.clk } = s))
    ∧ (∀ src (err after : Int), s.clk.valid = true → hasCell src = true →
        (err.natAbs ≤ 4 → ∃ t, exec (.gtcErrMeasure src err after) s = .next t
          ∧ t.clkIsl src = { s.clkIsl src with err := err, lag := err - (s.clkIsl src).offs } ∧ { t with clk := s.clk } = s)
        ∧ (4 < err.natAbs →
            let offs := wrapN 8 ((s.clkIsl src).offs - (err - after))
            ∃ t, exec (.gtcErrMeasure src err after) s = .next t
            ∧ t.clkIsl src = { s.clkIsl src with err := after, lag := after - offs, offs := offs }
            ∧ { t with ledg := s.ledg, clk := s.clk, ras := s.ras, tasks := s.tasks } = s
            ∧ ((16 < err.natAbs ∨ 4 < after.natAbs) → isUnit src = true → (s.unit src).health = .healthy →
                (t.unit src).health = .suspect ∧ (t.unit src).cause = 4)
            ∧ (err.natAbs ≤ 16 → after.natAbs ≤ 4 → t.ras = s.ras ∧ t.tasks = s.tasks)))
    ∧ (s.clk.refLost = false → ∃ t, exec .refLost s = .next t ∧ t.clk.refLost = true
        ∧ t.clk.align = (if s.clk.align = 0 then 0 else 3) ∧ t.ledg = (s.emit 0 7 3 noTenant 3 [0]).ledg
        ∧ { t with ledg := s.ledg, clk := s.clk } = s)
    ∧ (s.clk.refLost = true → exec .refLost s = .next s
        ∧ ∃ t, exec .refRestored s = .next t ∧ t.clk.refLost = false ∧ t.clk.align = s.clk.align
          ∧ t.ledg = (s.emit 0 7 4 noTenant 1 [0]).ledg ∧ { t with ledg := s.ledg, clk := s.clk } = s)
    ∧ (∀ d, s.clk.stepDue = some d →
        (s.levelTRuns = true → exec .gtcStepApply s = .next s)
        ∧ (s.levelTRuns = false → ∃ t, exec .gtcStepApply s = .next t ∧ t.clk.gtc = (s.clk.gtc + d) % 2 ^ 64
            ∧ t.clk.steps = wrap1 16 s.clk.steps ∧ t.clk.stepDue = none ∧ t.link = { s.link with stepped := s.link.stepped + d }
            ∧ { t with ledg := s.ledg, clk := s.clk, link := s.link } = s))
    ∧ (∀ r : Sensors, s.mainOn = true →
        let hot := 95 ≤ r.tjC ∨ 95 ≤ r.hbm0C ∨ 95 ≤ r.hbm1C ∨ s.limitW < r.powerW
        ∃ t, exec (.thermalStep r) s = .next t
          ∧ { t.plat with throttles := s.plat.throttles } = { s.plat with sensors := r, peakW := max s.plat.peakW r.powerW, k := t.plat.k }
          ∧ (hot → t.plat.k = max (s.plat.k - 1) 8) ∧ (¬hot → r.cool = true → t.plat.k = min (s.plat.k + 1) 32)
          ∧ (¬hot → r.cool = false → t.plat.k = s.plat.k)
          ∧ t.plat.throttles = (if s.plat.k = 32 ∧ hot then sat1 16 s.plat.throttles else s.plat.throttles)
          ∧ (∀ m, m ∈ s.living.rooms.map (·.1) → (s.room m).timed = 1 → s.roomRunning m ≠ 0 →
              fld (s.rwt offReproCfg) 48 8 ≤ r.tjC → (t.room m).timed = 2 ∧ (t.room m).breakCause = 2)
          ∧ ((∀ e ∈ s.living.rooms, e.2.level ≠ 2) → ∀ src, isDco src = true → 0 < t.ceilNow src → t.ceilEff src = t.ceilNow src)
          ∧ (∀ c < 4, let x := if c < 2 then r.hbm0C else r.hbm1C
              t.cctl c = { s.cctl c with tempC := x, rate2x := decide (85 < x) })
          ∧ t.living = s.living ∧ t.isl = s.isl ∧ t.clk.gtc = s.clk.gtc)
    ∧ (∀ src, ∃ t, exec (.dcoRetune src) s = .next t
        ∧ t.clkIsl src = (match (s.clkIsl src).retune with
            | some new => { s.clkIsl src with freq := new, retune := none }
            | none => s.clkIsl src)
        ∧ (∀ j, j ≠ src → t.clkIsl j = s.clkIsl j) ∧ { t.clk with isl := s.clk.isl } = s.clk ∧ { t with clk := s.clk } = s)
    ∧ ∀ key p m, NMap.find? s.living.passages key = some p → s.passageRoom p = some m →
        (((s.room m).stalled.contains key = true ∨ NMap.getD s.streams key [] = []) → exec (.passageStall key) s = .next s)
        ∧ ((s.room m).stalled.contains key = false → NMap.getD s.streams key [] ≠ [] →
            ∃ t, exec (.passageStall key) s = .next t ∧ (t.room m).stalled = insN key (s.room m).stalled
              ∧ ((s.room m).st = .serving → (t.room m).st = .faulted ∧ (t.room m).cause = 1
                  ∧ bitOf (t.tenant (s.roomTenant m)).fault 1 = true)
              ∧ ((s.room m).st ≠ .serving → (t.room m).st = (s.room m).st
                  ∧ s.raises (epSource p.src) 5 3 (s.roomTenant m) 3 [epSource p.src] t)
              ∧ ∀ i tk, (i, tk) ∈ s.tasks.live → s.task? i = some tk → tk.room = m → s.waitsOn p i tk = true →
                  ∀ n k more, tk.slots = (n, k) :: more → (s.slot n k).st ≠ .ending →
                    (t.task? i).map (·.status) = some (some (tk.status.getD (0x7F, 0))))

/-- A port trains, is checked, goes UP, acknowledges, replays, beats, paces, falls DOWN, is quarantined, released,
reset and rekeyed (R342, R344, R346, R347, R348, R349, R350, R351, R352, R359, R360, R373). TRAINING_START takes a
DOWN port with a MODE to TRAINING with fresh numbers. TRAINING_DONE: a PHY failure, like TRAINING_TIMEOUT, is DOWN
with cause 5 and the backoff doubled to at most 100 ms; else the epoch is one above the higher of both, and the
partner's checks passing or not decide PROBATION with its pools as credits or QUARANTINED with cause 3. PROBATION_END
within the limits is UP with 6/4, else DOWN with cause 6. A minute UP resets the backoff. Loss of a lane is DOWN 1, no
heartbeat DOWN 2, a ninth replay DOWN 3, a port reset DOWN 4 with its registers reset and the epoch advanced; DOWN too
often is QUARANTINED 4. LINK_QUARANTINE is cause 5; LINK_RELEASE goes DOWN with the first backoff. REKEY trains anew.
On a live port a NAK, a credit frame or a frame with a bad form or tag, of another epoch, counts as stale; a NAK
releases acknowledged frames and sends again those from its SEQ; a credit frame adds credits, at most the pool, more
being violation 1; a CRC error is NAKed, a malformed frame violation 0 and a bad tag violation 4 as well. A heartbeat
goes 10 us after the last and carries epoch, chip, time and echo; one that arrives gives RTT, and from the parent
theta and the slew of R373. A paced frame leaves once the partner's bucket holds its bytes. On a port in another state
these change nothing. (Where the spec leaves a point open the statement takes the model's choice: log entry 63.) It
concludes that these commands answer a next state: heartbeatSend, heartbeat, heartbeatTimeout, lossOfSignal, nak,
creditFrame, trainingStart, trainingDone, trainingTimeout, probationEnd, backoffReset, linkPortReset, linkQuarantine,
linkRelease, rekey, corruptFrame, ratePacedSend. -/
def Obligations.PortsTrainAcknowledgeAndFall : Prop :=
  ∀ (s : State) (p : Port),
    let l := s.port p
    let c := s.linkPol p
    let current := fun (h : LHdr) => l.live = true ∧ h.epoch = l.epoch % 256
    let kept := l.retry
    let acked := fun (h : LHdr) => kept.filter (fun f => decide (2048 ≤ (h.ack + 4096 - f.seq) % 4096))
    let onlyPort := fun (t : State) => (∀ j, j ≠ p.val → t.port j = s.port j) ∧ { t.link with ports := s.link.ports } = s.link
    ((l.st = .down → c.mode ≠ 0 → ∃ t, exec (.trainingStart p) s = .next t ∧ (t.port p).st = .training
        ∧ (t.port p).retrains = wrap1 32 l.retrains ∧ (t.port p).txSeq = 0 ∧ (t.port p).rxSeq = 0 ∧ (t.port p).retry = []
        ∧ (t.port p).credits = [] ∧ (t.port p).epoch = l.epoch ∧ t.ledg = s.ledg)
      ∧ ((l.st ≠ .down ∨ c.mode = 0) → exec (.trainingStart p) s = .next s))
    ∧ (∀ x : Partner,
        (l.st ≠ .training → exec (.trainingDone p x) s = .next s ∧ exec (.trainingTimeout p) s = .next s)
        ∧ (l.st = .training →
          (∃ t, exec (.trainingTimeout p) s = .next t ∧ s.portDowned p 5 t ∧ (t.port p).backoff = min (2 * l.backoff) 100000)
          ∧ (x.phyOk = false → ∃ t, exec (.trainingDone p x) s = .next t ∧ s.portDowned p 5 t
              ∧ (t.port p).backoff = min (2 * l.backoff) 100000)
          ∧ (x.phyOk = true →
            let good := x.authOk = true ∧ (∃ k ∈ s.plat.keys, k.provisioned = true ∧ k.revoked = false ∧ k.hash = x.ownerHash)
              ∧ x.mode = c.mode ∧ x.protect = (c.protect == 1) ∧ s.admits p x.chip = true
            (good → ∃ t, exec (.trainingDone p x) s = .next t ∧ (t.port p).st = .probation ∧ (t.port p).peer = x.chip
                ∧ (t.port p).epoch = (max l.epoch x.epoch + 1) % 2 ^ 32 ∧ (t.port p).peerRate = x.rate
                ∧ (∀ v < 16, NMap.getD (t.port p).credits v 0 = min ((x.pools[v]?).getD 0) 4096) ∧ t.ledg = s.ledg)
            ∧ (¬good → ∃ t, exec (.trainingDone p x) s = .next t ∧ s.portQuarantined p 3 t
                ∧ (t.port p).epoch = (max l.epoch x.epoch + 1) % 2 ^ 32))))
    ∧ (∀ uncorr crc corr,
        (l.st ≠ .probation → exec (.probationEnd p uncorr crc corr) s = .next s)
        ∧ (l.st = .probation →
          (uncorr = 0 ∧ crc = 0 ∧ corr ≤ 100000 → ∃ t, exec (.probationEnd p uncorr crc corr) s = .next t ∧ (t.port p).st = .up
              ∧ (t.port p).fecCorr = (l.fecCorr + corr) % 2 ^ 40 ∧ t.ledg = (s.emit (0x70 + p.val) 6 4 noTenant 0 [p.val]).ledg)
          ∧ (¬(uncorr = 0 ∧ crc = 0 ∧ corr ≤ 100000) → ∃ t, exec (.probationEnd p uncorr crc corr) s = .next t ∧ s.portDowned p 6 t)))
    ∧ (l.st = .up → ∃ t, exec (.backoffReset p) s = .next t ∧ t.port p = { l with backoff := 100 } ∧ onlyPort t
        ∧ { t with link := s.link } = s)
    ∧ (l.st ≠ .up → exec (.backoffReset p) s = .next s)
    ∧ (∀ lane : Fin 16, c.lanes ≤ lane.val → exec (.lossOfSignal p lane) s = .next s)
    ∧ (l.live = true →
        (∀ lane : Fin 16, lane.val < c.lanes → ∃ t, exec (.lossOfSignal p lane) s = .next t ∧ s.portDowned p 1 t)
        ∧ ∃ t, exec (.heartbeatTimeout p) s = .next t ∧ s.portDowned p 2 t)
    ∧ (l.st ≠ .quarantined → ¬(l.live = true ∧ fld (s.rwt (offLinkCfg p)) 24 4 < (s.downsNow p).length) →
        ∃ t, exec (.linkPortReset p) s = .next t ∧ t.regs = NMap.del s.regs (offCreditSel p)
          ∧ t.port p = { LPort.reset with epoch := (l.epoch + 1) % 2 ^ 32, dcause := 4, backoff := l.backoff, downs := s.downsNow p }
          ∧ t.ledg = (s.emit (0x70 + p.val) 6 2 noTenant 2 [4]).ledg)
    ∧ (l.live = true → fld (s.rwt (offLinkCfg p)) 24 4 < (s.downsNow p).length →
        ∃ t, exec (.linkPortReset p) s = .next t ∧ s.portQuarantined p 4 t)
    ∧ (∃ t, exec (.linkQuarantine p) s = .next t ∧ s.portQuarantined p 5 t)
    ∧ (l.st = .quarantined → exec (.linkPortReset p) s = .next s
        ∧ ∃ t, exec (.linkRelease p) s = .next t ∧ (t.port p).st = .down ∧ (t.port p).backoff = 100 ∧ t.ledg = s.ledg)
    ∧ (l.st ≠ .quarantined → exec (.linkRelease p) s = .next s)
    ∧ (l.live = true → ∃ t, exec (.rekey p) s = .next t ∧ (t.port p).st = .training ∧ (t.port p).retrains = wrap1 32 l.retrains
        ∧ (t.port p).retry = [] ∧ (t.port p).wait = [] ∧ t.ledg = s.ledg)
    ∧ (∀ h : LHdr, l.live = true → h.epoch ≠ l.epoch % 256 → ∀ seq k, k ≠ Corrupt.crc → ∀ cmd,
        (cmd = .nak p h seq ∨ cmd = .creditFrame p h ∨ cmd = .corruptFrame p k h) →
        ∃ t, exec cmd s = .next t ∧ t.port p = { l with stale := wrap1 32 l.stale } ∧ onlyPort t ∧ { t with link := s.link } = s)
    ∧ (∀ h seq, current h → h.crcnt = 0 → l.wait = [] →
        let fs := (acked h).filter (fun f => decide ((f.seq + 4096 - seq) % 4096 < 2048))
        ((∃ f ∈ fs, 8 ≤ f.replays) → ∃ t, exec (.nak p h seq) s = .next t ∧ s.portDowned p 3 t)
        ∧ ((∀ f ∈ fs, f.replays < 8) → ∃ t, exec (.nak p h seq) s = .next t
            ∧ (t.port p).retry = (acked h).map (fun f =>
                if (f.seq + 4096 - seq) % 4096 < 2048 then { f with replays := f.replays + 1 } else f)
            ∧ (t.port p).replays = (l.replays + fs.length) % 2 ^ 32 ∧ onlyPort t
            ∧ t.out.msgs = s.out.msgs ++ fs.map (fun f =>
                .frame p 1 (l.hdr f.vc f.seq f.nblk f.poison (c.protect == 1) 0 0) (some f.what)) ∧ t.ledg = s.ledg))
    ∧ (∀ h, current h → l.wait = [] →
        let have_ := NMap.getD l.credits h.crvc 0
        let pool := NMap.getD l.pool h.crvc 0
        (h.crcnt = 0 → ∃ t, exec (.creditFrame p h) s = .next t ∧ t.port p = { l with retry := acked h } ∧ onlyPort t
            ∧ { t with link := s.link } = s)
        ∧ (h.crcnt ≠ 0 → have_ + h.crcnt ≤ pool → ∃ t, exec (.creditFrame p h) s = .next t
            ∧ t.port p = { l with retry := acked h, credits := NMap.set l.credits h.crvc (have_ + h.crcnt) } ∧ onlyPort t
            ∧ { t with link := s.link } = s)
        ∧ (h.crcnt ≠ 0 → pool < have_ + h.crcnt → ∃ t, exec (.creditFrame p h) s = .next t ∧ s.violated p 1 t
            ∧ NMap.getD (t.port p).credits h.crvc 0 = pool
            ∧ NMap.getD (t.port p).excess h.crvc 0 = sat 32 (NMap.getD l.excess h.crvc 0 + (have_ + h.crcnt - pool))))
    ∧ (∀ h, (l.live = true → ∃ t, exec (.corruptFrame p .crc h) s = .next t ∧ t.port p = { l with naks := wrap1 32 l.naks } ∧ onlyPort t
          ∧ t.out.msgs = s.out.msgs ++ [.nak p l.rxSeq] ∧ { t with link := s.link, out := s.out } = s)
        ∧ (current h → (∃ t, exec (.corruptFrame p .malformed h) s = .next t ∧ s.violated p 0 t ∧ (t.port p).naks = wrap1 32 l.naks)
          ∧ ∃ t, exec (.corruptFrame p .tag h) s = .next t ∧ s.violated p 4 t ∧ (t.port p).naks = wrap1 32 l.naks))
    ∧ (l.live = true → ∃ t, exec (.heartbeatSend p) s = .next t
        ∧ t.clk.gtc = (if s.clk.valid = true ∧ l.hbSent ≠ 0 then max s.clk.gtc (l.hbSent + 10000) else s.clk.gtc)
        ∧ t.port p = { l with hbSent := t.view (0x70 + p.val) } ∧ onlyPort t
        ∧ t.out.msgs = s.out.msgs ++ [.heartbeat p l.epoch s.cell.chip (t.view (0x70 + p.val)) l.hbSeen]
        ∧ { t with clk := s.clk, link := s.link, out := s.out } = s)
    ∧ (∀ h gtc echo, current h → h.crcnt = 0 → l.wait = [] →
        let now := s.view (0x70 + p.val)
        let x := { l with retry := acked h, hbSeen := now }
        ((echo = 0 ∨ l.hbSent = 0) → ∃ t, exec (.heartbeat p h l.epoch l.peer gtc echo) s = .next t ∧ t.port p = x ∧ onlyPort t
            ∧ { t with link := s.link } = s)
        ∧ (echo ≠ 0 → l.hbSent ≠ 0 →
          let rtt : Int := ((now : Int) - l.hbSent) - ((gtc : Int) - echo)
          ((s.cellMode = 0 ∨ s.cell.pport ≠ some p.val) → ∃ t, exec (.heartbeat p h l.epoch l.peer gtc echo) s = .next t
              ∧ t.port p = { x with rtt := rtt.toNat } ∧ onlyPort t ∧ { t with link := s.link } = s)
          ∧ (s.cellMode ≠ 0 → s.cell.pport = some p.val →
            let th : Int := (((echo : Int) - l.hbSent) + ((gtc : Int) - now)) / 2
            let hat := median ((th :: s.cell.thetas).take 8)
            ∃ t, exec (.heartbeat p h l.epoch l.peer gtc echo) s = .next t ∧ (t.port p).rtt = rtt.toNat ∧ (t.port p).hbSeen = now
              ∧ t.cell.delay = (rtt / 2).toNat
              ∧ (hat ≤ 1000 → t.cell.thetas = (th :: s.cell.thetas).take 8 ∧ t.clk.gtc = s.clk.gtc
                  ∧ t.clk.slewPpb = (if hat < -1000 then -100000 else max (-100000) (min 100000 (hat * 1000))))
              ∧ (1000 < hat → t.cell.thetas = [] ∧ t.clk.slewPpb = 0
                  ∧ (s.levelTRuns = true → t.clk.stepDue = some hat.toNat ∧ t.clk.gtc = s.clk.gtc)
                  ∧ (s.levelTRuns = false → t.clk.gtc = (s.clk.gtc + hat.toNat) % 2 ^ 64 ∧ t.clk.stepDue = none)))))
    ∧ (∀ w : Held, l.wait = [w] → l.st = .up → w.dst = l.peer → w.cost ≠ 0 → w.via = none → w.nblk + 1 ≤ NMap.getD l.credits w.vc 0 →
        l.retry.length < 1024 → l.peerRate ≠ 0 → w.cost ≤ 65536 → l.bucketAt ≤ s.clk.gtc → s.clk.valid = true →
        let b := l.bucketNow s.clk.gtc
        ∃ t, exec (.ratePacedSend p) s = .next t ∧ t.clk.gtc = s.clk.gtc + cdiv (w.cost - b) l.peerRate
          ∧ (t.port p).wait = [] ∧ (t.port p).retry = l.retry ++ [{ w with seq := l.txSeq, ctr := l.txCtr, replays := 0 }]
          ∧ (t.port p).bucket + w.cost = l.bucketNow t.clk.gtc ∧ (t.port p).bucketAt = t.clk.gtc ∧ onlyPort t
          ∧ t.out.msgs = s.out.msgs ++ [.frame p 1 (l.hdr w.vc l.txSeq w.nblk w.poison (c.protect == 1) 0 0) (some w.what)]
          ∧ { t with clk := s.clk, link := s.link, out := s.out } = s)
    ∧ (l.live = false → ∀ h seq k epoch chip gtc echo (lane : Fin 16) cmd,
        cmd ∈ [Instr.lossOfSignal p lane, .heartbeatTimeout p, .rekey p, .nak p h seq, .creditFrame p h, .corruptFrame p k h,
               .heartbeatSend p, .heartbeat p h epoch chip gtc echo] → exec cmd s = .next s)

/-- Frames taken in sequence are passed on, served under a lease or refused, answered once, or answer a request;
leases run and end (R342, R344, R353, R354, R355, R356, R357, R358, R361, R379, R382, Tables 16-2 and 16-3). A data
frame that its port takes moves the next SEQ on and returns its credits; a READ, WRITE or COLL for another chip goes
on and does no more here. A READ with a new number that an exported window, its ACCESS, a lease and the rate admit is
answered with the bytes and the marks of the poisoned ones; a WRITE or COLL so admitted lands whole, poison marked,
and is answered 0, in a Shelf aperture too for a device of the room's span; one seen before counts as DUP, lands
nothing and is answered DUP; a number outside the window is violation 3. Any other is answered NO_WINDOW, ACCESS,
NO_LEASE or RATE, counts violation 5 or 6, and lands nothing. A READ_RESP or WRITE_ACK for a request that waits
removes it; the DMA tag of a task outside Level T completes once every part is answered, with an error if a part had
one, else its data land; NO_LEASE ends the task with LEASE_EXPIRED; a request that times out ends it with LINK_LOST
and its port. A message does what its kind does, and one that asks for an outcome is answered. LEASE_REQ of a window
that admits the sender is granted for LEASE_US and told, else refused, both under the TAG of the request; a GRANT of a
TAG that a lease here was asked under gives it the expiry of R356 and sends what waited, a refusal drops both, and one
of another TAG changes nothing; RENEW starts again the sender's leases not run out and is acknowledged under its TAG;
an ACK moves the expiry of the leases renewed under its TAG; RELEASE ends the lease. The renew timer sends one RENEW
of all leases held there under a new TAG; expiry ends a side's lease, counts it and fails the holder's waiting
requests; an idle lease is released. (Where the spec leaves a point open the statement takes the model's choice: log
entries 7, 43, 63.) It concludes that these commands answer a next state: read, readResp, write, writeAck, coll, msg,
leaseReq, leaseGrant, leaseRenew, leaseAck, leaseRelease, leaseRenewTimer, leaseExpiry, leaseIdleRelease,
remoteReqTimeout. -/
def Obligations.TransactionsAndLeasesCrossTheLink : Prop :=
  ∀ s : State,
    (∀ (p : Port) (h : LHdr) (x : THdr) (data : Bytes), s.takesFrame p h →
      let u := s.tookFrame p h
      let l := s.port p
      let here := hdrTo x = s.cell.chip
      let a := hdrLocal x
      let whole := h.nblk = cdiv data.length 64
      let write := fun (cmd : Instr) => cmd = .write p h x data ∨ cmd = .coll p h x data
      let resp := fun (opc st : Nat) (d : Bytes) (bad : Nat) (v t : State) =>
        v.carries x.src bad (.txn opc { x with status := st, len := d.length, e2e := 0 } d) t
      let refused := fun (opc st : Nat) (t : State) => ∃ v : State, resp opc st [] 0 v t ∧ v.cellar = s.cellar ∧ v.isl = s.isl
        ∧ (v.port p).viol = setAt l.viol (if st = 4 then 6 else 5) (sat1 8 ((l.viol[if st = 4 then 6 else 5]?).getD 0))
        ∧ (st ≠ 4 → ∀ w c, s.living.windows.find? (fun e => decide (e.2.base ≤ a) && decide (a < e.2.base + e.2.size)) = some (w, c) →
            (v.tenant c.tenant).violA = sat1 16 (s.tenant c.tenant).violA ∧ bitOf (v.tenant c.tenant).fault 4 = true)
      ((u.port p).rxSeq = (l.rxSeq + 1) % 4096 ∧ (u.port p).rxBlocks = (l.rxBlocks + h.nblk) % 2 ^ 32
        ∧ (∀ c, NMap.getD (u.port p).rxUsed c 0 = NMap.getD l.rxUsed c 0)
        ∧ (u.port p).retry = l.retry.filter (fun f => decide (2048 ≤ (h.ack + 4096 - f.seq) % 4096))
        ∧ u.out.msgs = s.out.msgs ++ [.frame p 2 ((u.port p).hdr 0 0 0 0 false h.vc (h.nblk + 1)) none]
        ∧ { u with link := s.link, out := s.out } = s)
      ∧ (¬here → ∀ cmd, (h.nblk = 0 ∧ cmd = .read p h x ∨ whole ∧ write cmd) →
          ∃ t, exec cmd s = .next t ∧ { t with link := s.link, out := s.out } = s)
      ∧ (∀ wr,
          (s.exported x.src a x.len = none → s.requestStatus p x.src a x.len wr = 1)
          ∧ ∀ w c, s.exported x.src a x.len = some (w, c) →
            let r := (s.linkPol p).rate
            let few := r ≠ 0 ∧ (s.port p).masterBucket x.src r s.clk.gtc < (if wr then x.len else 64 + x.len)
            c.kind = 2 ∧ c.base ≤ a ∧ a + x.len ≤ c.base + c.size ∧ (c.peer = 0xFFFF ∨ c.peer = x.src)
              ∧ s.requestStatus p x.src a x.len wr = (if nbit c.access (b2n wr) = false then 2
                  else if s.leased x.src w = false then 3 else if few then 4 else 0))
      ∧ (here → h.nblk = 0 → inAperture a = false → s.e2eNew x.src x.e2e →
          let st := s.requestStatus p x.src a x.len false
          let bad := s.cellar.store.badIn lineB a x.len
          (st = 0 → ∃ v t, exec (.read p h x) s = .next t ∧ v.cellar.store = s.cellar.store
              ∧ { v with link := u.link, cellar := u.cellar } = u
              ∧ resp 2 (if bad = [] then 0 else 6) (s.cellarRead a x.len) (poisonBits bad) v t ∧ t.e2eSeen x.src x.e2e)
          ∧ (st ≠ 0 → ∃ t, exec (.read p h x) s = .next t ∧ refused 2 st t))
      ∧ (∀ cmd, here → whole → write cmd →
          let d := fit x.len data
          let bad := badOf h.poison x.len
          (s.e2eSeen x.src x.e2e → ∃ v t, exec cmd s = .next t ∧ (v.port p).dup = wrap1 32 l.dup
              ∧ { v with link := u.link } = u ∧ resp 4 5 [] 0 v t)
          ∧ (¬s.e2eSeen x.src x.e2e → ¬s.e2eNew x.src x.e2e → ∃ t, exec cmd s = .next t ∧ t.cellar = s.cellar ∧ t.isl = s.isl
              ∧ u.violated p 3 t)
          ∧ (s.e2eNew x.src x.e2e →
            (inAperture a = false →
              let st := s.requestStatus p x.src a x.len true
              (st = 0 → ∃ v t, exec cmd s = .next t ∧ Store.landed lineB a d bad s.cellar.store v.cellar.store
                  ∧ { v with link := u.link, cellar := u.cellar } = u ∧ resp 4 0 [] 0 v t ∧ t.e2eSeen x.src x.e2e)
              ∧ (st ≠ 0 → ∃ t, exec cmd s = .next t ∧ refused 4 st t))
            ∧ (inAperture a = true →
              (∀ n off, s.aperture x.src a x.len = some (n, off) → ∃ v t, exec cmd s = .next t
                  ∧ Store.landed wordB off d bad (s.island n).shelf (v.island n).shelf ∧ s.onlyIsl n { v with link := s.link, out := s.out }
                  ∧ { v.island n with shelf := (s.island n).shelf } = s.island n ∧ resp 4 0 [] 0 v t)
              ∧ (s.aperture x.src a x.len = none → ∃ t, exec cmd s = .next t ∧ refused 4 1 t))))
      ∧ (∀ cmd ack, (ack = false ∧ whole ∧ cmd = .readResp p h x data ∨ ack = true ∧ h.nblk = 0 ∧ cmd = .writeAck p h x) → x.src = s.cell.chip →
          let d0 := if ack then [] else data
          (s.link.reqs.find? (fun r => r.tag == x.tag && r.sent) = none → exec cmd s = .next u)
          ∧ ∀ r d tk, s.link.reqs.find? (fun r => r.tag == x.tag && r.sent) = some r → s.tag? r.isl r.slot r.dtag = some d →
              d.isOut → (d.cls = 5 ∨ d.cls = 7) → s.noneWaits r.isl r.slot → (s.slot r.isl r.slot).task = r.task →
               s.task? r.task = some tk → s.levelT tk.room = false →
              let err := d.err = true ∨ ¬(x.status = 0 ∨ x.status = 5 ∨ x.status = 6)
              let buf := patch (fit d.len d.buf) (r.shelf - d.shelf) (fit r.len d0)
              let bads := d.bufBad ++ (badOf (if ack then 0 else h.poison) r.len).map (fun y => (r.shelf - d.shelf + y.1, y.2))
              ∃ t, exec cmd s = .next t ∧ t.link.reqs = s.link.reqs.filter (fun y => y.tag != r.tag)
                ∧ (x.status ≠ 3 → d.moved + r.len < d.len → t.tag? r.isl r.slot r.dtag = some { d with
                      moved := d.moved + r.len, err := d.err || !(x.status == 0 || x.status == 5 || x.status == 6),
                      buf := if d.write then [] else buf, bufBad := bads }
                    ∧ (t.island r.isl).shelf = (s.island r.isl).shelf ∧ { t with isl := u.isl, link := u.link } = u)
                ∧ (x.status ≠ 3 → d.len ≤ d.moved + r.len → err → (t.tag? r.isl r.slot r.dtag).map (fun e => (e.done, e.err)) = some (true, !d.drop)
                    ∧ (t.island r.isl).shelf = (s.island r.isl).shelf ∧ { t with isl := u.isl, link := u.link } = u)
                ∧ (d.len ≤ d.moved + r.len → ¬err → (t.tag? r.isl r.slot r.dtag).map (fun e => (e.done, e.err)) = some (true, false)
                    ∧ (d.write = false → d.drop = false → Store.landed wordB d.shelf buf (bads ++ d.meshBad) (s.island r.isl).shelf (t.island r.isl).shelf)
                    ∧ (d.write = true ∨ d.drop = true → (t.island r.isl).shelf = (s.island r.isl).shelf))
                ∧ (x.status = 3 → (t.task? r.task).map (·.status) = some (some (tk.status.getD (0x41, 0)))))
      ∧ (here → h.nblk ≤ 8 → (∀ m ready tag, exec (.msg p h x (.vote m ready tag)) s = exec (.hatchVote m ready tag) u)
          ∧ (∀ tag g, exec (.msg p h x (.swap tag g)) s = exec (.hatchSwapMsg tag g) u)
          ∧ (∀ tag m, exec (.msg p h x (.abort tag m)) s = exec (.hatchAbortMsg tag m) u)
          ∧ (∀ c v q, exec (.msg p h x (.portMap c v q)) s = exec (.portMap c v q) u)
          ∧ (∀ (m : Room) k ans, exec (.msg p h x (.spanCheck m k ans)) s = exec (.spanCheck m k ans) u)
          ∧ (∀ (m : Room) ref, exec (.msg p h x (.spanStop m ref)) s = exec (.spanStop m ref) u)
          ∧ (∀ (m : Room) st, x.src = (s.spanDev m 0).1 → exec (.msg p h x (.spanStart m st)) s = exec (.spanStart m st) u)
          ∧ (∀ win, exec (.msg p h x (.lease 0x10 [win] 0)) s = exec (.leaseReq p h x win) s)
          ∧ ∀ tag m, ∃ t, exec (.msg p h x (.query tag m)) s = .next t
              ∧ u.carries x.src 0 (.msg (s.msgHdr x.src 0) (.answer tag (s.doubtAnswer tag))) t)
      ∧ (here → ∀ win,
          let ok := fun (c : WindowCfg) => c.kind = 2 ∧ (c.peer = 0xFFFF ∨ c.peer = x.src)
          let mine := fun (k : Lease) => k.chip == x.src && k.win == win
          (∀ c, NMap.find? s.living.windows win = some c → ok c → ∃ t, exec (.leaseReq p h x win) s = .next t
              ∧ State.carries x.src 0 (.msg { s.msgHdr x.src 0 with tag := x.tag } (.lease 0x11 [win] (leaseUs c)))
                { u with link := { u.link with granted := u.link.granted.filter (fun k => !mine k) ++
                  [{ chip := x.src, win := win, expiry := s.leaseNow + leaseUs c * 1000, port := p, us := leaseUs c, sent := [],
                     granted := true, used := s.leaseNow }] } } t)
          ∧ ((∀ c, NMap.find? s.living.windows win = some c → ¬ok c) → ∃ v t, exec (.leaseReq p h x win) s = .next t ∧ u.violated p 5 v
              ∧ v.carries x.src 0 (.msg { v.msgHdr x.src 1 with tag := x.tag } (.lease 0x11 [win] 0)) t)
          ∧ (∀ us, (∀ k, s.heldLease? x.src win = some k → ∀ y ∈ k.sent, y.1 ≠ x.tag) → exec (.leaseGrant p h x win us) s = .next u)
          ∧ (∀ us k g, s.heldLease? x.src win = some k → k.sent.find? (fun y => y.1 == x.tag) = some g →
              ∃ t, exec (.leaseGrant p h x win us) s = .next t
              ∧ (x.status = 0 → (t.heldLease? x.src win).map (fun k => (k.granted, k.us, k.expiry, k.sent))
                    = some (true, us, g.2 + us * 1000 - us * 1000 / 1024 - 2000, k.sent.filter (fun y => decide (g.2 < y.2)))
                  ∧ ∀ r ∈ t.link.reqs, r.chip = x.src → r.win = win → r.sent = true)
              ∧ (x.status ≠ 0 → t.heldLease? x.src win = none ∧ ∀ r ∈ t.link.reqs, r ∈ s.link.reqs ∧ ¬(r.chip = x.src ∧ r.win = win ∧ r.sent = false)))
          ∧ (∀ wins,
              let hit := fun (k : Lease) => k.chip == x.src && wins.contains k.win && decide (s.leaseNow < k.expiry)
              ∃ t, exec (.leaseRenew p h x wins) s = .next t
                ∧ State.carries x.src 0 (.msg { s.msgHdr x.src 0 with tag := x.tag } (.lease 0x13 ((s.link.granted.filter hit).map (·.win)) 0))
                  { u with link := { u.link with granted := u.link.granted.map (fun k =>
                    if hit k then { k with expiry := s.leaseNow + k.us * 1000 } else k) } } t)
          ∧ (∀ wins, exec (.leaseAck p h x wins) s = .next { u with link := { u.link with held := u.link.held.map (fun k =>
              match k.sent.find? (fun y => y.1 == x.tag) with
              | some g => if k.chip = x.src ∧ k.win ∈ wins ∧ k.granted = true then
                    { k with expiry := g.2 + k.us * 1000 - k.us * 1000 / 1024 - 2000
                             sent := k.sent.filter (fun y => decide (g.2 < y.2)) } else k
              | none => k) } })
          ∧ exec (.leaseRelease p h x win) s = .next { u with link := { u.link with granted := u.link.granted.filter (fun k => !mine k) } }))
    ∧ (∀ chip,
        let ls := s.link.held.filter (fun k => k.chip == chip && k.granted)
        (ls = [] → exec (.leaseRenewTimer chip) s = .next s)
        ∧ (ls ≠ [] → ∃ t, exec (.leaseRenewTimer chip) s = .next t
            ∧ State.carries chip 0 (.msg { s.msgHdr chip 0 with tag := s.link.nextTag } (.lease 0x12 (ls.map (·.win)) 0))
              { s with link := { s.link with
                nextTag := wrap1 16 s.link.nextTag
                held := s.link.held.map (fun k =>
                  if k.chip = chip ∧ k.granted = true then { k with sent := k.sent ++ [(s.link.nextTag, s.leaseNow)] } else k) } } t))
    ∧ (∀ chip win k,
        let here := fun (k : Lease) => k.chip == chip && k.win == win && k.granted
        let over_ := fun (k : Lease) (t : State) => (t.port k.port).expired = sat1 16 (s.port k.port).expired
          ∧ t.clk.gtc = (if s.clk.valid then max s.clk.gtc (k.expiry + s.link.stepped) else s.clk.gtc)
        (s.link.granted.find? here = some k → ∃ t, exec (.leaseExpiry .grantor chip win) s = .next t ∧ over_ k t
            ∧ t.link.granted = s.link.granted.filter (fun y => !here y) ∧ { t with link := s.link, clk := s.clk } = s)
        ∧ (s.link.held.find? here = some k → ∃ t, exec (.leaseExpiry .holder chip win) s = .next t ∧ over_ k t
            ∧ t.link.held = s.link.held.filter (fun y => !here y)
            ∧ ∀ r ∈ t.link.reqs, r ∈ s.link.reqs ∧ ¬(r.chip = chip ∧ r.win = win ∧ r.sent = false))
        ∧ (s.heldLease? chip win = some k → k.granted = true → ∃ t, exec (.leaseIdleRelease chip win) s = .next t
            ∧ State.carries chip 0 (.msg (s.msgHdr chip 0) (.lease 0x14 [win] 0))
              { s with link := { s.link with held := s.link.held.filter (fun y => !(y.chip == chip && y.win == win)) } } t))
    ∧ ∀ tag r tk, s.link.reqs.find? (fun r => r.tag == tag) = some r → (s.slot r.isl r.slot).task = r.task → s.task? r.task = some tk →
        ∃ t, exec (.remoteReqTimeout tag) s = .next t ∧ t.link.reqs = s.link.reqs.filter (fun y => y.tag != r.tag)
          ∧ (t.task? r.task).map (·.status) = some (some (tk.status.getD (0x40, r.port)))

/-- Port maps decide leader and parent, PTP disciplines the leader, TOP_CHIP is written while nothing is configured,
spans check, start and stop members (R365, R367, R372, R374, R375, R377, R378, R379, R380, Tables 17-2 and 17-3). A
newer port map of another member of the cell is kept, counted, and in mode 1 or 2 the leader is the lowest member that
can be reached and the parent port the first hop toward it; any other map changes nothing. PORT_MAP_TIMER sends this
device's port states to every member it reaches. A PTP Sync in mode 2 counts to a lock at the eighth, told by 7/7,
records the offset and disciplines a locked leader by the cases of R373; a loss of a lock counts and raises 7/6.
TOP_CHIP takes its ID only with both sets empty and every port DOWN. At the head of a span, an answer equal to its own
counts, the last making the span READY; another, or none in time from the lowest position, makes it MISMATCH with that
position and raises 1/5; the timer of one not READY and not checking asks every member again. A start message at a
member waits its turn; with its graph resident, the room SERVING and slots free it starts a task without record for
the head on a READY slot of each island; with the graph absent the head is told GRAPH_NOT_RESIDENT. A stop message, or
the head out of reach, drops what waits and stops its tasks with ROOM_RESET. In rooms of no such role these change
nothing. (Where the spec leaves a point open the statement takes the model's choice: log entries 59, 60, 61, 64.) It
concludes that these commands answer a next state: portMap, portMapTimer, ptpSync, ptpLoss, topChipWrite, spanCheck,
spanCheckTimer, spanStart, spanStop, headUnreachable. -/
def Obligations.CellsAlignRouteAndSpan : Prop :=
  ∀ s : State,
    let relink := fun (t : State) => { t with cell := s.cell, link := s.link, out := s.out, clk := s.clk } = s
    (∀ chip ver ports,
      let mine := chip / 16 = s.cell.chip / 16 ∧ chip ≠ s.cell.chip
      let newer := ∀ q, NMap.find? s.cell.maps (chip % 16) = some q → q.ver < ver
      (mine ∧ newer → ∃ t, exec (.portMap chip ver ports) s = .next t
          ∧ NMap.find? t.cell.maps (chip % 16) = some { ver := ver, ports := ports }
          ∧ (∀ j, j ≠ chip % 16 → NMap.find? t.cell.maps j = NMap.find? s.cell.maps j)
          ∧ t.cell.applied = wrap1 16 s.cell.applied ∧ t.cell.chip = s.cell.chip
          ∧ ((s.cellMode = 1 ∨ s.cellMode = 2) → t.cell.leader ∈ t.reachable ∧ (∀ m ∈ t.reachable, t.cell.leader ≤ m)
              ∧ t.cell.pport = (if t.cell.leader = t.ownMember then none else (t.cellHop t.cell.leader).map (·.1)))
          ∧ relink t)
      ∧ (¬(mine ∧ newer) → exec (.portMap chip ver ports) s = .next s))
    ∧ (∃ t, exec .portMapTimer s = .next t ∧ State.carriesAll ((s.reachable.filter (· != s.ownMember)).map (fun m =>
        (s.cell.chip / 16 * 16 + m, .portMap s.cell.chip s.cell.ver ((List.range 8).map (fun p => (s.port p).st.code))))) s t)
    ∧ (∀ ptp,
        (s.cellMode ≠ 2 → exec (.ptpSync ptp) s = .next s)
        ∧ (s.cellMode = 2 →
          let lock := s.cell.ptpLock = true ∨ 7 ≤ s.cell.ptpRun
          let offs : Int := (s.view 0 : Int) - ptp
          ∃ t, exec (.ptpSync ptp) s = .next t ∧ t.cell.ptpRun = min (s.cell.ptpRun + 1) 8 ∧ (t.cell.ptpLock = true ↔ lock)
            ∧ t.cell.ptpOffs = offs
            ∧ (¬lock → t.ledg = s.ledg) ∧ (s.cell.ptpLock = true → s.cell.pport.isSome = true → t.ledg = s.ledg)
            ∧ (lock → s.cell.ptpLock = false → (-offs ≤ 1000 ∨ s.cell.pport.isSome = true) → t.ledg = (s.emit 0 7 7 noTenant 1 [0]).ledg)
            ∧ ((¬lock ∨ s.cell.pport.isSome = true) → t.clk.slewPpb = s.clk.slewPpb ∧ t.clk.gtc = s.clk.gtc)
            ∧ (lock → s.cell.pport = none →
                (-offs ≤ 1000 → t.clk.gtc = s.clk.gtc
                  ∧ t.clk.slewPpb = (if -offs < -1000 then -100000 else max (-100000) (min 100000 (-offs * 1000))))
                ∧ (1000 < -offs → t.clk.slewPpb = 0
                  ∧ (s.levelTRuns = true → t.clk.stepDue = some (-offs).toNat ∧ t.clk.gtc = s.clk.gtc)
                  ∧ (s.levelTRuns = false → t.clk.gtc = (s.clk.gtc + (-offs).toNat) % 2 ^ 64)))
            ∧ { t with cell := s.cell, link := s.link, out := s.out, clk := s.clk, ledg := s.ledg } = s))
    ∧ (s.cell.ptpLock = true → ∃ t, exec .ptpLoss s = .next t ∧ t.cell.ptpLock = false ∧ t.cell.ptpRun = 0
        ∧ t.cell.ptpLosses = sat1 16 s.cell.ptpLosses ∧ t.ledg = (s.emit 0 7 6 noTenant 2 [0]).ledg
        ∧ { t with cell := s.cell, link := s.link, out := s.out, clk := s.clk, ledg := s.ledg } = s)
    ∧ (s.cell.ptpLock = false → exec .ptpLoss s = .next { s with cell := { s.cell with ptpRun := 0 } })
    ∧ (∀ v,
        let may := s.living.isEmpty = true ∧ s.attic.isEmpty = true ∧ ∀ p < 8, (s.port p).st = .down
        (may → ∃ t, exec (.topChipWrite v) s = .next t ∧ t.cell.chip = fld v 0 15 ∧ relink t)
        ∧ (¬may → exec (.topChipWrite v) s = .next s))
    ∧ (∀ (m : Room) pos ans,
        let r := s.spanRt m
        let awaits := s.spanHead m = true ∧ r.st = 1 ∧ pos ≠ 0 ∧ pos < s.spanDevs m
        let mismatch := fun (k : Nat) (t : State) => t.spanRt m = { r with st := 3, mpos := k }
          ∧ s.raises 0xA0 1 5 (s.roomTenant m) 2 [m] t ∧ { t with cell := s.cell, ledg := s.ledg, clk := s.clk } = s
        (awaits → ans = s.spanOwn m → ∃ t, exec (.spanCheck m pos ans) s = .next t
            ∧ t.spanRt m = { r with answered := insN pos r.answered, st := if (insN pos r.answered).length + 1 = s.spanDevs m then 2 else 1 }
            ∧ { t with cell := s.cell } = s)
        ∧ (awaits → ans ≠ s.spanOwn m → ∃ t, exec (.spanCheck m pos ans) s = .next t ∧ mismatch pos t)
        ∧ (¬awaits → exec (.spanCheck m pos ans) s = .next s)
        ∧ ((s.spanHead m = false ∨ r.st = 2) → exec (.spanCheckTimer m) s = .next s)
        ∧ (s.spanHead m = true → r.st = 1 → ∀ k, 0 < k → k < s.spanDevs m → k ∉ r.answered → (∀ j, 0 < j → j < k → j ∈ r.answered) →
            ∃ t, exec (.spanCheckTimer m) s = .next t ∧ mismatch k t)
        ∧ (s.spanHead m = true → r.st ≠ 1 → r.st ≠ 2 → ∃ t, exec (.spanCheckTimer m) s = .next t
            ∧ State.carriesAll (((List.range (s.spanDevs m)).drop 1).map (fun k => ((s.spanDev m k).1, .spanAsk m (s.spanDev m k).2 k)))
              (s.modSpan m (fun r => { r with st := 1, answered := [] })) t))
    ∧ ∀ (m : Room),
        let stopped := fun (i : Nat) (tk : Task) (t : State) => ∀ n k more, tk.slots = (n, k) :: more → (s.slot n k).st ≠ .ending →
          (t.task? i).map (fun x => (x.status, x.spanStop)) = some (some (tk.status.getD (0x31, 0)), true)
        (∀ x : SpanStartMsg,
          (s.spanMember m = false → exec (.spanStart m x) s = .next s)
          ∧ (s.spanMember m = true → (s.spanRt m).waits = [] →
            let head := (s.spanDev m 0).1
            (s.spanGraph m x = none → ∃ t v w : State, exec (.spanStart m x) s = .next t ∧ { w with cell := s.cell } = s ∧ (w.spanRt m).waits = []
                ∧ { w.cell with spans := s.cell.spans } = s.cell
                ∧ w.carries head 0 (.msg (s.msgHdr head 0) (.spanEnd x.ref (some (0x11, s.whyAbsent (s.roomTenant m) m x.graph)) 0 0)) v
                ∧ t.link = v.link ∧ t.tasks = s.tasks ∧ t.isl = s.isl)
            ∧ ∀ w i g r, s.spanGraph m x = some (w, i, g) → s.roomCfg? m = some r →
              ((s.room m).st = .serving → s.roomFor m g.first g = true →
                let tid := s.tasks.next
                ∃ t, exec (.spanStart m x) s = .next t ∧ t.tasks.next = tid + 1 ∧ (t.spanRt m).waits = []
                  ∧ (t.task? tid).map (fun k => (k.queue, k.room, k.ent.raw, k.start, k.noRecord, k.span, k.status))
                      = some (x.queue, m.val, x.desc, x.start, true, some (head, x.ref), none)
                  ∧ (∀ j, j ≠ tid → t.task? j = s.task? j)
                  ∧ ∀ y ∈ g.segOn g.first r.isls, ∀ k, s.freeSlot y.1 r.slots = some k →
                      (t.slot y.1 k).st = .ready ∧ (t.slot y.1 k).task = tid ∧ (t.slot y.1 k).pc = g.progOn y.1 + y.2.2.entry
                        ∧ (t.slot y.1 k).seg = y.2.1)
              ∧ (((s.room m).st ≠ .serving ∨ s.roomFor m g.first g = false) → ∃ t, exec (.spanStart m x) s = .next t
                  ∧ (t.spanRt m).waits = [(head, x)] ∧ t.tasks = s.tasks ∧ t.isl = s.isl)))
        ∧ (∀ ref, ∃ t, exec (.spanStop m ref) s = .next t ∧ (∀ w ∈ (t.spanRt m).waits, w.2.ref ≠ ref)
            ∧ ∀ i tk c, s.task? i = some tk → i < s.tasks.next → tk.room = m.val → tk.span = some (c, ref) → stopped i tk t)
        ∧ (s.spanMember m = false → exec (.headUnreachable m) s = .next s)
        ∧ (s.spanMember m = true → ∃ t, exec (.headUnreachable m) s = .next t ∧ (t.spanRt m).waits = []
            ∧ ∀ i tk, s.task? i = some tk → tk.room = m.val → tk.span.isSome = true → stopped i tk t)

/-- Sweep steps run, pass, fail, yield and miss; Audit tests and verifications end with their result; a drain stops
tasks and retires units (R82, R301, R389, R391, R392, R394, R395, R397, R398, R400, R401, R403). A Sweep step starts
on the idle healthy unit of its slot, saving and emptying a T-island's crates; a passed step counts and the next is
due, the last leaves the pass time and moves Sweep to the next unit, ending a round after the last; a failed step
counts on its unit and makes it SUSPECT with CAUSE 2. Work on the unit, a Level T task that waits for it, or a Hatch
in Prepare that has it ready, makes an unforced step yield, counted; at 75% of the slot steps are forced; a slot that
ends unfinished is a miss: counted, BOUND 0, the next unit. RAS_AUDIT with GO makes Audit busy with a unit, or posts
DRAINED or BAD_UNIT; a pass posts PASS and the time; a fail posts FAIL with the test, makes the unit suspect with
CAUSE 3 and counts as a failed verification; a unit not idle 100 ms after GO posts ABORTED. Of a room Audit the unit
under test leaves the list, and the last posts the result. Verification of a suspect free unit starts; passed, the
unit is HEALTHY and a third pass within 60 minutes takes a margin step; failed, it stays VERIFYING and takes one. A
unit at its limit FAILS and the device drains. The drain limit gives each running task INTERNAL with 0xD1 and its
island, counted; when no task runs the failed units are RETIRED with an entry each, eight at most, the LED lights, and
the device is DRAINED. Where a condition fails nothing changes. (Where the spec leaves a point open the statement
takes the model's choice: log entries 36, 62, 74.) It concludes that these commands answer a next state: sweepSlotEnd,
sweepForce, sweepStepStart, sweepStepDone, sweepYield, auditGo, auditTestDone, auditAbort, verifyStart, verifyDone,
drainLimit, drainComplete. -/
def Obligations.UnitsAreSweptTestedVerifiedAndRetired : Prop :=
  ∀ s : State,
    let r := s.ras
    let u := r.sweepUnit
    let may := s.sweepRuns = true ∧ r.sweepBusy = false ∧ (s.unit u).health = .healthy ∧ s.testable u = true ∧ s.levelTBusy u = false
    let moves := fun (t : State) => t.ras.sweepBusy = false ∧ t.ras.sweepForced = false ∧ t.ras.sweepStep = 0
      ∧ (match s.liveUnits.find? (fun v => decide (u < v)) with
        | some v => t.ras.sweepUnit = v ∧ t.ras.rounds = r.rounds
        | none => t.ras.sweepUnit = s.liveUnits.headD 0x10 ∧ t.ras.rounds = wrap1 16 r.rounds ∧ t.ras.roundMiss = false)
    (may → ∃ t, exec .sweepStepStart s = .next t
        ∧ t.ras = { r with sweepBusy := true, forced := if r.sweepForced then wrap1 16 r.forced else r.forced } ∧ u ∉ t.plat.gated
        ∧ (∀ n, u = 0x10 + n → n < 64 → (t.island n).crates = []) ∧ (∀ n, u ≠ 0x10 + n → t.island n = s.island n)
        ∧ { t with ras := s.ras, plat := s.plat, isl := s.isl } = s)
    ∧ (¬may → exec .sweepStepStart s = .next s)
    ∧ (r.sweepBusy = false → ∀ p, exec (.sweepStepDone p) s = .next s)
    ∧ (r.sweepBusy = true →
      (r.sweepStep + 1 < passLen u →
        exec (.sweepStepDone true) s = .next { s with ras := { r with sweepBusy := false, steps := wrap1 32 r.steps, sweepStep := r.sweepStep + 1 } })
      ∧ (passLen u ≤ r.sweepStep + 1 → ∃ t, exec (.sweepStepDone true) s = .next t ∧ moves t ∧ t.ras.steps = wrap1 32 r.steps
          ∧ t.unit u = { s.unit u with lastPass := s.view 0 } ∧ { t with ras := s.ras, ledg := s.ledg, clk := s.clk } = s)
      ∧ (isUnit u = true → ∃ t, exec (.sweepStepDone false) s = .next t ∧ t.ras.sweepBusy = false ∧ t.ras.steps = wrap1 32 r.steps
          ∧ t.unit u = UnitRt.suspected { s.unit u with fails := sat1 16 (s.unit u).fails, lastFail := testNo u r.sweepStep } 2 (s.view 0)
          ∧ { t with ras := s.ras, tasks := s.tasks, ledg := s.ledg, clk := s.clk } = s))
    ∧ (let yields := r.sweepBusy = true ∧ r.sweepForced = false
        ∧ (s.unitIdle u = false ∨ s.sweepKeeps u = true ∨ s.readyInPrepare u = true)
      (yields → exec .sweepYield s = .next { s with ras := { r with sweepBusy := false, yields := wrap1 16 r.yields } })
      ∧ (¬yields → exec .sweepYield s = .next s))
    ∧ (s.sweepRuns = true → exec .sweepForce s = .next { s.reach (r.slotStart + s.slotNs * 3 / 4) with ras := { r with sweepForced := true } }
        ∧ ∃ t, exec .sweepSlotEnd s = .next t ∧ moves t ∧ t.ras.misses = sat1 16 r.misses ∧ t.ras.missed = true ∧ t.ras.bound = false
          ∧ { t with ras := s.ras, ledg := s.ledg, clk := s.clk } = s)
    ∧ (s.sweepRuns = false → exec .sweepForce s = .next s ∧ exec .sweepSlotEnd s = .next s)
    ∧ (∀ v : Word,
        let a := fld v 0 12
        let w := { s with regs := NMap.set s.regs offAudit (BitVec.ofNat 64 a) }
        let asked := if r.drain ≠ 0 then { r with auditRes := 5, auditTest := 0 }
          else if isUnit a = false ∨ (s.unit a).health = .retired then { r with auditRes := 4, auditTest := 0 }
          else { r with auditBusy := true, auditUnit := a, auditAt := s.clk.gtc, auditRes := 0, auditTest := 0 }
        ((bitOf v 16 = false ∨ r.auditBusy = true) → exec (.auditGo v) s = .next w)
        ∧ (bitOf v 16 = true → r.auditBusy = false → exec (.auditGo v) s = .next { w with ras := asked }))
    ∧ (let a := r.auditUnit
      let ready := r.auditBusy = true ∧ s.auditable a = true
      (¬ready → ∀ f, exec (.auditTestDone none f) s = .next s)
      ∧ (ready → (∃ t, exec (.auditTestDone none none) s = .next t ∧ t.ras.auditBusy = false ∧ t.ras.auditRes = 1 ∧ t.ras.auditTest = 0
            ∧ t.unit a = { s.unit a with lastPass := s.view 0 } ∧ t.ras.drain = r.drain)
          ∧ (isUnit a = true → ∀ k, ∃ t, exec (.auditTestDone none (some k)) s = .next t ∧ t.ras.auditBusy = false ∧ t.ras.auditRes = 2
              ∧ t.ras.auditTest = testNo a k
              ∧ s.marginTaken a { (s.unit a).suspected 3 (s.view 0) with health := .verifying, lastFail := testNo a k } t))
      ∧ (r.auditBusy = true → s.auditable a = false →
          exec .auditAbort s = .next { s.reach (r.auditAt + 100000000) with ras := { r with auditBusy := false, auditRes := 3 } })
      ∧ (¬(r.auditBusy = true ∧ s.auditable a = false) → exec .auditAbort s = .next s))
    ∧ (∀ (m : Room) v rest, (s.roomAudit m).todo = v :: rest →
        (s.auditable v = false → exec (.auditTestDone (some m) none) s = .next s)
        ∧ (s.auditable v = true → isUnit v = true → ∀ f, ∃ t, exec (.auditTestDone (some m) f) s = .next t ∧ (t.roomAudit m).todo = rest
          ∧ (∀ k, f = some k → (t.roomAudit m).failed = (s.roomAudit m).failed ++ [(v, testNo v k)])
          ∧ (f = none → (t.roomAudit m).failed = (s.roomAudit m).failed ∧ t.unit v = { s.unit v with lastPass := s.view 0 })
          ∧ (∀ k, f = some k → s.marginTaken v { (s.unit v).suspected 3 (s.view 0) with health := .verifying, lastFail := testNo v k } t)
          ∧ (rest = [] → (t.roomAudit m).doneSeq = (s.roomAudit m).req
              ∧ (t.roomAudit m).result = (if (s.roomAudit m).failed = [] ∧ f = none then 1 else 2))))
    ∧ (∀ v,
        let may := (s.unit v).health = .suspect ∧ s.unitFree v = true ∧ s.auditable v = true
        (may → ∃ t, exec (.verifyStart v) s = .next t ∧ t.unit v = { s.unit v with health := .verifying } ∧ v ∉ t.plat.gated
            ∧ (∀ n, v = 0x10 + n → n < 64 → (t.island n).crates = []) ∧ { t with ras := s.ras, plat := s.plat, isl := s.isl } = s)
        ∧ (¬may → exec (.verifyStart v) s = .next s)
        ∧ ((s.unit v).health ≠ .verifying → ∀ f, exec (.verifyDone v f) s = .next s)
        ∧ ((s.unit v).health = .verifying →
          let ps := (s.unit v).passes.filter (fun g => decide (s.clk.gtc ≤ g + 3600000000000)) ++ [s.clk.gtc]
          let x := { s.unit v with health := .healthy, passes := ps, lastPass := s.view 0 }
          (ps.length < 3 → ∃ t, exec (.verifyDone v none) s = .next t ∧ t.unit v = x ∧ { t with ras := s.ras } = s)
          ∧ (3 ≤ ps.length → ∃ t, exec (.verifyDone v none) s = .next t ∧ s.marginTaken v x t)
          ∧ ∀ k, ∃ t, exec (.verifyDone v (some k)) s = .next t ∧ s.marginTaken v { s.unit v with lastFail := testNo v k } t))
    ∧ (r.drain ≠ 1 → exec .drainLimit s = .next s)
    ∧ (r.drain = 1 → ∃ t, exec .drainLimit s = .next t
        ∧ (∀ i tk n k more, s.task? i = some tk → tk.slots = (n, k) :: more → (s.slot n k).st ≠ .ending → tk.status = none →
            (t.task? i).map (·.status) = some (some (0x7F, 0xD1 + n * 256)))
        ∧ t.ras = { r with stopped := Nat.repeat (wrap1 16) (s.tasks.live.filter (fun e => match e.2.slots with
            | (n, k) :: _ => (s.slot n k).st != .ending && e.2.status.isNone
            | [] => false)).length r.stopped }
        ∧ { t with ras := s.ras, tasks := s.tasks, isl := s.isl, eng := s.eng, clk := s.clk } = s)
    ∧ (let entry : Nat × Nat → Retire := fun x =>
        { a := BitVec.ofNat 64 x.2,
          b := packW [(0, 12, x.1), (12, 4, (s.unit x.1).firstCause), (16, 3, (s.unit x.1).vstep), (20, 3, (s.unit x.1).cstep), (24, 8, (s.unit x.1).lastFail), (32, 1, 1)] }
      let done := r.drain ≠ 0 ∧ s.tasks.live = [] ∧ r.toRetire ≠ []
      (¬done → exec .drainComplete s = .next s)
      ∧ (done → ∃ t, exec .drainComplete s = .next t ∧ t.ras.toRetire = [] ∧ (∀ x ∈ r.toRetire, (t.unit x.1).health = .retired)
          ∧ t.ras.record = (if 8 ≤ r.record.length then r.record else (r.record ++ r.toRetire.map entry).take 8)
          ∧ t.ras.drain = (if r.drain = 1 then 2 else r.drain) ∧ (r.drain = 1 → t.ledg = (s.emit 0 8 7 noTenant 4 [0]).ledg)
          ∧ (s.plat.recovery = false → ¬(s.plat.stage = 4 ∧ s.plat.fail = 5) → t.led = .lit)
          ∧ { t with ras := s.ras, ledg := s.ledg, clk := s.clk } = s))

/-- Events are staged, coalesced or lost with a count, sealed into 64-byte records, mirrored and viewed; audits judge
every book (R36, R409, R410, R411, R413, R414, R415, R416, R417, R420, R421, R422). LEDGER_EVENT stamps the event
above its source's last stamp and counts it in an open counter of its kind, stages it while fewer than 32 wait, opens
a counter while fewer than 4 are open, or counts the loss. COALESCE_CLOSE turns a counter that is due, with room, into
one COALESCED event. LEDGER_SEAL writes, while the ring has a slot, first a LOSS record that is due, else the next
event in the order of stamps and sources: its 64 bytes hold the fields of Table 19-1 and end in their CRC-32C, they go
to the ring slot of the next number and, with a number of its own, to every enabled view that takes it; in a full ring
the event is discarded and counted as lost. MIRROR_COPY, with PF0's bus mastering enabled, posts the next record, or
POISONED_RECORD for a poisoned line, and moves on. A host head within the records takes effect, another counts as bad;
LEDG_CFG takes a size of 12 to 20 only with the mirror off and the ring empty, else counts it as refused, and its
MIRROR bit always, rising from the head. LEDG_INJECT with GO raises the tenant's event of class 12. LEDG_INV_CTRL with
GO sets an audit for T, or 2 us ahead of now where T is not 1 us ahead. At its instant every book is judged by Table
19-4: unbalanced, windowed, waiting for credits or balanced; the counts are posted and an event tells each imbalance
and the end. (Where the spec leaves a point open the statement takes the model's choice: log entries 65, 66, 70, 71.)
It concludes that these commands answer a next state: ledgerEvent, ledgerSeal, coalesceClose, mirrorCopy,
hostHeadWrite, ledgCfgWrite, inject, inventoryAudit, auditInstant. -/
def Obligations.LedgerRecordsAndTheInventoryBalances : Prop :=
  (∀ gtc src cls code seq ten sev (pl : Bytes),
    let b := recordBytes gtc src cls code seq ten sev pl
    b.length = 64 ∧ leAt b 0 8 = gtc % 2 ^ 64 ∧ leAt b 8 2 = src % 4096 + cls % 16 * 4096 ∧ leAt b 10 2 = code % 2 ^ 16
      ∧ leAt b 12 4 = seq % 2 ^ 32 ∧ leAt b 16 2 = ten % 128 + sev % 8 * 256 ∧ slice b 18 42 = fit 42 pl
      ∧ leAt b 60 4 = crc32c (b.take 60) % 2 ^ 32)
  ∧ ∀ s : State,
    let l := s.ledg
    let onlyLedg := fun (t : State) => { t with ledg := s.ledg, clk := s.clk } = s
    let seals := fun (e : Event) (t : State) =>
      let vs := (List.range 64).filter (fun v => bitOf (s.reg (offViewCtrl v) 6) 8 && viewTakes v e.tenant e.cls)
      let bytes := fun (n : Nat) => recordBytes e.gtc e.src e.cls e.code n e.tenant e.sev e.payload
      Store.stored lineB (l.slotAddr l.next) (bytes l.next) s.cellar.store t.cellar.store
        ∧ { t.cellar with store := s.cellar.store } = s.cellar ∧ t.ledg.next = wrap1 32 l.next
        ∧ t.out.msgs = s.out.msgs ++ vs.map (fun v =>
            let c := s.reg (offViewCtrl v) 6
            let n := NMap.getD l.viewSeq v 0
            OutMsg.hostWrite v ((s.reg (offViewAddr v) 0).toNat / 4096 * 4096 + n % 2 ^ viewLog2 c * 64) (bytes (n % 2 ^ 32)))
        ∧ (∀ v < 64, NMap.getD t.ledg.viewSeq v 0 = if v ∈ vs then (NMap.getD l.viewSeq v 0 + 1) % 2 ^ 32 else NMap.getD l.viewSeq v 0)
        ∧ t.ledg.coalesced = (if e.cls = 0 ∧ e.code = 2 then wrap1 16 l.coalesced else l.coalesced)
        ∧ { t with ledg := s.ledg, clk := s.clk, cellar := s.cellar, out := s.out } = s
    (∀ src cls code ten sev (pl : Bytes),
      let g := NMap.getD l.stages src { buf := [], coal := [] }
      let e : Event := { gtc := s.stamp src, src := src, cls := cls, code := code, tenant := ten, sev := sev, payload := fit 42 pl }
      let same := fun (c : Coal) => c.cls = cls ∧ c.code = code ∧ c.tenant = ten
      ∃ t, exec (.ledgerEvent src cls code ten sev pl) s = .next t ∧ onlyLedg t
        ∧ t.clk = { s.clk with stamps := NMap.set s.clk.stamps src e.gtc }
        ∧ (∀ p, NMap.find? s.clk.stamps src = some p → p < e.gtc) ∧ s.view src ≤ e.gtc
        ∧ (∀ a c b, g.coal = a ++ c :: b → same c → (∀ d ∈ a, ¬same d) →
            NMap.find? t.ledg.stages src = some { g with coal := a ++ { c with last := e.gtc, count := c.count + 1 } :: b })
        ∧ ((∀ c ∈ g.coal, ¬same c) → g.buf.length < 32 → NMap.find? t.ledg.stages src = some { g with buf := g.buf ++ [e] }
            ∧ t.ledg.loss = l.loss)
        ∧ ((∀ c ∈ g.coal, ¬same c) → 32 ≤ g.buf.length → g.coal.length < 4 →
            NMap.find? t.ledg.stages src = some { g with coal := g.coal ++
              [{ cls := cls, code := code, tenant := ten, sev := sev, first := e.gtc, last := e.gtc, count := 1,
                 word0 := leAt (fit 42 pl) 0 8, opened := s.clk.gtc }] } ∧ t.ledg.loss = l.loss)
        ∧ ((∀ c ∈ g.coal, ¬same c) → 32 ≤ g.buf.length → 4 ≤ g.coal.length →
            t.ledg = { l with stageDrops := wrap1 16 l.stageDrops, loss := Loss.add l.loss e.gtc e.gtc 0 1 sev (2 ^ cls) }))
    ∧ (∀ src cls code ten c,
        let g := NMap.getD l.stages src { buf := [], coal := [] }
        g.coal.find? (fun c => c.cls == cls && c.code == code && c.tenant == ten) = some c →
        let due := (g.buf.length ≤ 16 ∨ c.opened + 1000000 ≤ s.clk.gtc) ∧ g.buf.length < 32
        (¬due → exec (.coalesceClose src cls code ten) s = .next s)
        ∧ (due → ∃ t, exec (.coalesceClose src cls code ten) s = .next t ∧ onlyLedg t
            ∧ NMap.find? t.ledg.stages src = some
              { buf := g.buf ++ [{ gtc := s.stamp src, src := src, cls := 0, code := 2, tenant := ten, sev := c.sev, payload := fit 42 c.payload }],
                coal := g.coal.filter (fun d => !(d.cls == cls && d.code == code && d.tenant == ten)) }))
    ∧ (∀ x, l.loss = some x → l.full = false → ∃ t, exec .ledgerSeal s = .next t ∧ t.ledg.loss = none ∧ t.ledg.stages = l.stages
        ∧ seals { gtc := s.stamp 0, src := 0, cls := 0, code := 1, tenant := noTenant, sev := 3, payload := x.payload } t)
    ∧ ((l.loss = none ∨ l.full = true) → l.headEvent = none → exec .ledgerSeal s = .next s)
    ∧ (∀ e, l.headEvent = some e →
        (∃ x ∈ l.stages, x.2.buf.head? = some e) ∧ (∀ x ∈ l.stages, ∀ f, x.2.buf.head? = some f → e.gtc < f.gtc ∨ (e.gtc = f.gtc ∧ e.src ≤ f.src))
        ∧ (l.loss = none → l.full = false → ∃ t, exec .ledgerSeal s = .next t ∧ seals e t
            ∧ (NMap.getD t.ledg.stages e.src { buf := [], coal := [] }).buf = (NMap.getD l.stages e.src { buf := [], coal := [] }).buf.drop 1)
        ∧ (l.full = true → ∃ t, exec .ledgerSeal s = .next t ∧ onlyLedg t ∧ t.ledg.next = l.next
            ∧ t.ledg.ringDrops = (l.ringDrops + (if e.cls = 0 ∧ e.code = 2 then leAt e.payload 16 4 else 1)) % 2 ^ 32 ∧ t.ledg.loss.isSome
            ∧ (NMap.getD t.ledg.stages e.src { buf := [], coal := [] }).buf = (NMap.getD l.stages e.src { buf := [], coal := [] }).buf.drop 1))
    ∧ (let goes := l.mirror = true ∧ s.plat.bme = true ∧ l.mirrorNext ≠ l.next
      (¬goes → exec .mirrorCopy s = .next s)
      ∧ (goes → ∃ t, exec .mirrorCopy s = .next t ∧ t.ledg = { l with mirrorNext := wrap1 32 l.mirrorNext }
          ∧ t.out.msgs = s.out.msgs ++ [.hostWrite 0 ((s.reg 0x80008 0).toNat / 4096 * 4096 + l.mirrorNext % 2 ^ l.log2 * 64)
              (if (s.cellar.store.poisonIn lineB (l.slotAddr l.mirrorNext) 64).isSome then recordBytes 0 0 0 3 l.mirrorNext noTenant 3 []
               else s.cellar.store.read (l.slotAddr l.mirrorNext) 64)]
          ∧ { t with ledg := s.ledg, out := s.out } = s))
    ∧ (∀ v, exec (.hostHeadWrite v) s = .next { s with ledg :=
        if (fld v 0 32 + 2 ^ 32 - l.head) % 2 ^ 32 ≤ (l.next + 2 ^ 32 - l.head) % 2 ^ 32 then { l with head := fld v 0 32 }
        else { l with badHead := sat1 4 l.badHead } })
    ∧ (∀ v, ∃ t, exec (.ledgCfgWrite v) s = .next t ∧ { t with ledg := s.ledg } = s
        ∧ t.ledg.mirror = bitOf v 8 ∧ t.ledg.mirrorNext = (if bitOf v 8 = true ∧ l.mirror = false then l.head else l.mirrorNext)
        ∧ (let ok := 12 ≤ fld v 0 5 ∧ fld v 0 5 ≤ 20 ∧ l.mirror = false ∧ l.next = l.head
          t.ledg.log2 = (if ok then fld v 0 5 else l.log2)
            ∧ t.ledg.cfgRefused = (if fld v 0 5 = l.log2 ∨ ok then l.cfgRefused else sat1 4 l.cfgRefused)))
    ∧ (∀ v,
        let t6 := fld v 16 6
        (bitOf v 32 = false → exec (.inject v) s = .next s)
        ∧ (bitOf v 32 = true → ∃ t, exec (.inject v) s = .next t ∧ onlyLedg t
            ∧ s.raises (0x100 + t6) 12 (fld v 0 16) t6 (min (fld v 24 3) 4) [(s.reg 0x80038 0).toNat] t))
    ∧ (∀ v,
        let at_ := (s.reg 0x80108 0).toNat
        let late := at_ = 0 ∨ at_ < s.clk.gtc + 1000
        ((bitOf v 0 = false ∨ s.inv.busy = true) → exec (.inventoryAudit v) s = .next s)
        ∧ (bitOf v 0 = true → s.inv.busy = false → exec (.inventoryAudit v) s = .next { s with inv :=
            { s.inv with busy := true, lateT := decide late, at_ := if late then s.clk.gtc + 2000 else at_ } }))
    ∧ ∀ wrong : List BookIn,
        (s.inv.busy = false → exec (.auditInstant wrong) s = .next s)
        ∧ (s.inv.busy = true →
          let u := s.reach s.inv.at_
          let bs := u.booksNow ++ u.idleBooks wrong
          let held := fun (b : BookNow) => match wrong.find? (fun w => w.q == b.q && w.index == b.index) with | some w => w.held | none => b.held
          let atMost := fun (b : BookNow) => b.q = 1 ∨ b.q = 2 ∨ b.q = 8 ∨ b.q = 9
          let balanced := fun (b : BookNow) => held b ≤ b.pool ∧ (atMost b ∨ held b = b.held)
          let code := fun (b : BookNow) =>
            if ¬balanced b then b.window.getD 1 else if b.q = 2 ∧ held b < b.pool ∧ (s.port (b.index / 16)).st = .up then 2 else 0
          ∃ t, exec (.auditInstant wrong) s = .next t ∧ t.inv.busy = false ∧ t.inv.checked = 139715
            ∧ t.clk.gtc = (if s.clk.valid then max s.clk.gtc s.inv.at_ else s.clk.gtc)
            ∧ t.regs = NMap.set s.regs 0x80108 (BitVec.ofNat 64 s.inv.at_)
            ∧ t.inv.imbalanced = (bs.filter (fun b => code b == 1)).length ∧ t.inv.windowed = (bs.filter (fun b => decide (2 ≤ code b))).length
            ∧ (∀ b ∈ bs, (∀ c ∈ bs, c.q * 2 ^ 17 + c.index = b.q * 2 ^ 17 + b.index → c = b) →
                NMap.find? t.inv.books (b.q * 2 ^ 17 + b.index) = some { pool := b.pool, held := held b, aux := b.aux, state := code b })
            ∧ ((∀ b ∈ bs, code b ≠ 1) → t.ledg = (u.emit 0 11 1 noTenant 0 []).ledg)
            ∧ { t with inv := s.inv, regs := s.regs, ledg := s.ledg, clk := s.clk } = s)

/-- A step runs the command at the front of the queue on the rest of it; an empty queue is one GTC tick (log 3); reset
holds the invariant (01_briurjor_in_one_pass.md, R34, R432, R447). For every command c, state s and queue rest: a step
of s with c at the front of its queue and the rest behind it is exec of c on s with the rest as its queue. A step of a
state whose queue is empty answers the state with one more on the GTC, modulo 2^64, where the GTC is valid and the
main domain is powered, and the same state otherwise: that an empty queue ticks is the model's choice (log entry 3).
After reset the queue is empty, the GTC is not valid, the device is not READY, the thermal factor is 32, which lies in
its range, and a step changes nothing. -/
def Obligations.StepRunsTheFrontCommand : Prop :=
  (∀ (c : Instr) (s : State) (rest : List Instr), step { s with pending := c :: rest } = exec c { s with pending := rest })
    ∧ (∀ s : State, s.pending = [] → step s = .next (if s.clk.valid = true ∧ s.mainOn = true
        then { s with clk := { s.clk with gtc := (s.clk.gtc + 1) % 2 ^ 64 } } else s))
    ∧ State.reset.pending = [] ∧ State.reset.clk.valid = false ∧ State.reset.plat.ready = false ∧ State.reset.throttleOk
    ∧ State.reset.plat.k = 32 ∧ step State.reset = .next State.reset

/-- Every step of every state answers a next state, keeps the thermal factor from 8 to 32 and the device's identity,
and takes just its command (R447, Table 0-2, 01_briurjor_in_one_pass.md). For every state s whose thermal factor lies
between 8 and 32, whatever command stands at the front of its queue and whatever else the state holds, and whether or
not a run could reach it: a step answers a next state, neither a fault nor a refusal; in it the thermal factor lies
between 8 and 32, the stepping, grade, board and serial number are those of s, and the queue is the rest of s's queue:
no command puts a command in, takes one out or reorders what waits. (Where the spec leaves a point open the statement
takes the model's choice: log entry 1.) -/
def Obligations.EveryStepKeepsTheInvariant : Prop :=
  ∀ s : State, s.throttleOk → ∃ t, step s = .next t ∧ t.throttleOk ∧ t.ident = s.ident ∧ t.pending = s.pending.tail
end

