-- ==== Sys2Proof/Laws/State.lean ====
section
/-! SUPPORT. What each update of a part of the state leaves in each field, so that no proof unfolds a record update, and
what a read of one island, slot, room, queue or the like gives after an update of one. -/

namespace Sys2Proof.Machine

open Sys2Proof

/-! ### State.modClk -/

@[simp] theorem State.modClk_pending (f : Clk → Clk) (s : State) : (s.modClk f).pending = s.pending := rfl
@[simp] theorem State.modClk_ident (f : Clk → Clk) (s : State) : (s.modClk f).ident = s.ident := rfl
@[simp] theorem State.modClk_clk (f : Clk → Clk) (s : State) : (s.modClk f).clk = f s.clk := rfl
@[simp] theorem State.modClk_living (f : Clk → Clk) (s : State) : (s.modClk f).living = s.living := rfl
@[simp] theorem State.modClk_attic (f : Clk → Clk) (s : State) : (s.modClk f).attic = s.attic := rfl
@[simp] theorem State.modClk_txn (f : Clk → Clk) (s : State) : (s.modClk f).txn = s.txn := rfl
@[simp] theorem State.modClk_regs (f : Clk → Clk) (s : State) : (s.modClk f).regs = s.regs := rfl
@[simp] theorem State.modClk_bar2 (f : Clk → Clk) (s : State) : (s.modClk f).bar2 = s.bar2 := rfl
@[simp] theorem State.modClk_ten (f : Clk → Clk) (s : State) : (s.modClk f).ten = s.ten := rfl
@[simp] theorem State.modClk_qm (f : Clk → Clk) (s : State) : (s.modClk f).qm = s.qm := rfl
@[simp] theorem State.modClk_isl (f : Clk → Clk) (s : State) : (s.modClk f).isl = s.isl := rfl
@[simp] theorem State.modClk_tasks (f : Clk → Clk) (s : State) : (s.modClk f).tasks = s.tasks := rfl
@[simp] theorem State.modClk_streams (f : Clk → Clk) (s : State) : (s.modClk f).streams = s.streams := rfl
@[simp] theorem State.modClk_mesh (f : Clk → Clk) (s : State) : (s.modClk f).mesh = s.mesh := rfl
@[simp] theorem State.modClk_eng (f : Clk → Clk) (s : State) : (s.modClk f).eng = s.eng := rfl
@[simp] theorem State.modClk_repro (f : Clk → Clk) (s : State) : (s.modClk f).repro = s.repro := rfl
@[simp] theorem State.modClk_cellar (f : Clk → Clk) (s : State) : (s.modClk f).cellar = s.cellar := rfl
@[simp] theorem State.modClk_pantry (f : Clk → Clk) (s : State) : (s.modClk f).pantry = s.pantry := rfl
@[simp] theorem State.modClk_ledg (f : Clk → Clk) (s : State) : (s.modClk f).ledg = s.ledg := rfl
@[simp] theorem State.modClk_inv (f : Clk → Clk) (s : State) : (s.modClk f).inv = s.inv := rfl
@[simp] theorem State.modClk_link (f : Clk → Clk) (s : State) : (s.modClk f).link = s.link := rfl
@[simp] theorem State.modClk_cell (f : Clk → Clk) (s : State) : (s.modClk f).cell = s.cell := rfl
@[simp] theorem State.modClk_ras (f : Clk → Clk) (s : State) : (s.modClk f).ras = s.ras := rfl
@[simp] theorem State.modClk_plat (f : Clk → Clk) (s : State) : (s.modClk f).plat = s.plat := rfl
@[simp] theorem State.modClk_out (f : Clk → Clk) (s : State) : (s.modClk f).out = s.out := rfl
@[simp] theorem State.modClk_free (f : Clk → Clk) (s : State) : (s.modClk f).free = s.free := rfl

/-! ### State.setLiving -/

@[simp] theorem State.setLiving_pending (x : ConfigSet) (s : State) : (s.setLiving x).pending = s.pending := rfl
@[simp] theorem State.setLiving_ident (x : ConfigSet) (s : State) : (s.setLiving x).ident = s.ident := rfl
@[simp] theorem State.setLiving_clk (x : ConfigSet) (s : State) : (s.setLiving x).clk = s.clk := rfl
@[simp] theorem State.setLiving_living (x : ConfigSet) (s : State) : (s.setLiving x).living = x := rfl
@[simp] theorem State.setLiving_attic (x : ConfigSet) (s : State) : (s.setLiving x).attic = s.attic := rfl
@[simp] theorem State.setLiving_txn (x : ConfigSet) (s : State) : (s.setLiving x).txn = s.txn := rfl
@[simp] theorem State.setLiving_regs (x : ConfigSet) (s : State) : (s.setLiving x).regs = s.regs := rfl
@[simp] theorem State.setLiving_bar2 (x : ConfigSet) (s : State) : (s.setLiving x).bar2 = s.bar2 := rfl
@[simp] theorem State.setLiving_ten (x : ConfigSet) (s : State) : (s.setLiving x).ten = s.ten := rfl
@[simp] theorem State.setLiving_qm (x : ConfigSet) (s : State) : (s.setLiving x).qm = s.qm := rfl
@[simp] theorem State.setLiving_isl (x : ConfigSet) (s : State) : (s.setLiving x).isl = s.isl := rfl
@[simp] theorem State.setLiving_tasks (x : ConfigSet) (s : State) : (s.setLiving x).tasks = s.tasks := rfl
@[simp] theorem State.setLiving_streams (x : ConfigSet) (s : State) : (s.setLiving x).streams = s.streams := rfl
@[simp] theorem State.setLiving_mesh (x : ConfigSet) (s : State) : (s.setLiving x).mesh = s.mesh := rfl
@[simp] theorem State.setLiving_eng (x : ConfigSet) (s : State) : (s.setLiving x).eng = s.eng := rfl
@[simp] theorem State.setLiving_repro (x : ConfigSet) (s : State) : (s.setLiving x).repro = s.repro := rfl
@[simp] theorem State.setLiving_cellar (x : ConfigSet) (s : State) : (s.setLiving x).cellar = s.cellar := rfl
@[simp] theorem State.setLiving_pantry (x : ConfigSet) (s : State) : (s.setLiving x).pantry = s.pantry := rfl
@[simp] theorem State.setLiving_ledg (x : ConfigSet) (s : State) : (s.setLiving x).ledg = s.ledg := rfl
@[simp] theorem State.setLiving_inv (x : ConfigSet) (s : State) : (s.setLiving x).inv = s.inv := rfl
@[simp] theorem State.setLiving_link (x : ConfigSet) (s : State) : (s.setLiving x).link = s.link := rfl
@[simp] theorem State.setLiving_cell (x : ConfigSet) (s : State) : (s.setLiving x).cell = s.cell := rfl
@[simp] theorem State.setLiving_ras (x : ConfigSet) (s : State) : (s.setLiving x).ras = s.ras := rfl
@[simp] theorem State.setLiving_plat (x : ConfigSet) (s : State) : (s.setLiving x).plat = s.plat := rfl
@[simp] theorem State.setLiving_out (x : ConfigSet) (s : State) : (s.setLiving x).out = s.out := rfl
@[simp] theorem State.setLiving_free (x : ConfigSet) (s : State) : (s.setLiving x).free = s.free := rfl

/-! ### State.setAttic -/

@[simp] theorem State.setAttic_pending (x : ConfigSet) (s : State) : (s.setAttic x).pending = s.pending := rfl
@[simp] theorem State.setAttic_ident (x : ConfigSet) (s : State) : (s.setAttic x).ident = s.ident := rfl
@[simp] theorem State.setAttic_clk (x : ConfigSet) (s : State) : (s.setAttic x).clk = s.clk := rfl
@[simp] theorem State.setAttic_living (x : ConfigSet) (s : State) : (s.setAttic x).living = s.living := rfl
@[simp] theorem State.setAttic_attic (x : ConfigSet) (s : State) : (s.setAttic x).attic = x := rfl
@[simp] theorem State.setAttic_txn (x : ConfigSet) (s : State) : (s.setAttic x).txn = s.txn := rfl
@[simp] theorem State.setAttic_regs (x : ConfigSet) (s : State) : (s.setAttic x).regs = s.regs := rfl
@[simp] theorem State.setAttic_bar2 (x : ConfigSet) (s : State) : (s.setAttic x).bar2 = s.bar2 := rfl
@[simp] theorem State.setAttic_ten (x : ConfigSet) (s : State) : (s.setAttic x).ten = s.ten := rfl
@[simp] theorem State.setAttic_qm (x : ConfigSet) (s : State) : (s.setAttic x).qm = s.qm := rfl
@[simp] theorem State.setAttic_isl (x : ConfigSet) (s : State) : (s.setAttic x).isl = s.isl := rfl
@[simp] theorem State.setAttic_tasks (x : ConfigSet) (s : State) : (s.setAttic x).tasks = s.tasks := rfl
@[simp] theorem State.setAttic_streams (x : ConfigSet) (s : State) : (s.setAttic x).streams = s.streams := rfl
@[simp] theorem State.setAttic_mesh (x : ConfigSet) (s : State) : (s.setAttic x).mesh = s.mesh := rfl
@[simp] theorem State.setAttic_eng (x : ConfigSet) (s : State) : (s.setAttic x).eng = s.eng := rfl
@[simp] theorem State.setAttic_repro (x : ConfigSet) (s : State) : (s.setAttic x).repro = s.repro := rfl
@[simp] theorem State.setAttic_cellar (x : ConfigSet) (s : State) : (s.setAttic x).cellar = s.cellar := rfl
@[simp] theorem State.setAttic_pantry (x : ConfigSet) (s : State) : (s.setAttic x).pantry = s.pantry := rfl
@[simp] theorem State.setAttic_ledg (x : ConfigSet) (s : State) : (s.setAttic x).ledg = s.ledg := rfl
@[simp] theorem State.setAttic_inv (x : ConfigSet) (s : State) : (s.setAttic x).inv = s.inv := rfl
@[simp] theorem State.setAttic_link (x : ConfigSet) (s : State) : (s.setAttic x).link = s.link := rfl
@[simp] theorem State.setAttic_cell (x : ConfigSet) (s : State) : (s.setAttic x).cell = s.cell := rfl
@[simp] theorem State.setAttic_ras (x : ConfigSet) (s : State) : (s.setAttic x).ras = s.ras := rfl
@[simp] theorem State.setAttic_plat (x : ConfigSet) (s : State) : (s.setAttic x).plat = s.plat := rfl
@[simp] theorem State.setAttic_out (x : ConfigSet) (s : State) : (s.setAttic x).out = s.out := rfl
@[simp] theorem State.setAttic_free (x : ConfigSet) (s : State) : (s.setAttic x).free = s.free := rfl

/-! ### State.modTxn -/

@[simp] theorem State.modTxn_pending (f : TxnUnit → TxnUnit) (s : State) : (s.modTxn f).pending = s.pending := rfl
@[simp] theorem State.modTxn_ident (f : TxnUnit → TxnUnit) (s : State) : (s.modTxn f).ident = s.ident := rfl
@[simp] theorem State.modTxn_clk (f : TxnUnit → TxnUnit) (s : State) : (s.modTxn f).clk = s.clk := rfl
@[simp] theorem State.modTxn_living (f : TxnUnit → TxnUnit) (s : State) : (s.modTxn f).living = s.living := rfl
@[simp] theorem State.modTxn_attic (f : TxnUnit → TxnUnit) (s : State) : (s.modTxn f).attic = s.attic := rfl
@[simp] theorem State.modTxn_txn (f : TxnUnit → TxnUnit) (s : State) : (s.modTxn f).txn = f s.txn := rfl
@[simp] theorem State.modTxn_regs (f : TxnUnit → TxnUnit) (s : State) : (s.modTxn f).regs = s.regs := rfl
@[simp] theorem State.modTxn_bar2 (f : TxnUnit → TxnUnit) (s : State) : (s.modTxn f).bar2 = s.bar2 := rfl
@[simp] theorem State.modTxn_ten (f : TxnUnit → TxnUnit) (s : State) : (s.modTxn f).ten = s.ten := rfl
@[simp] theorem State.modTxn_qm (f : TxnUnit → TxnUnit) (s : State) : (s.modTxn f).qm = s.qm := rfl
@[simp] theorem State.modTxn_isl (f : TxnUnit → TxnUnit) (s : State) : (s.modTxn f).isl = s.isl := rfl
@[simp] theorem State.modTxn_tasks (f : TxnUnit → TxnUnit) (s : State) : (s.modTxn f).tasks = s.tasks := rfl
@[simp] theorem State.modTxn_streams (f : TxnUnit → TxnUnit) (s : State) : (s.modTxn f).streams = s.streams := rfl
@[simp] theorem State.modTxn_mesh (f : TxnUnit → TxnUnit) (s : State) : (s.modTxn f).mesh = s.mesh := rfl
@[simp] theorem State.modTxn_eng (f : TxnUnit → TxnUnit) (s : State) : (s.modTxn f).eng = s.eng := rfl
@[simp] theorem State.modTxn_repro (f : TxnUnit → TxnUnit) (s : State) : (s.modTxn f).repro = s.repro := rfl
@[simp] theorem State.modTxn_cellar (f : TxnUnit → TxnUnit) (s : State) : (s.modTxn f).cellar = s.cellar := rfl
@[simp] theorem State.modTxn_pantry (f : TxnUnit → TxnUnit) (s : State) : (s.modTxn f).pantry = s.pantry := rfl
@[simp] theorem State.modTxn_ledg (f : TxnUnit → TxnUnit) (s : State) : (s.modTxn f).ledg = s.ledg := rfl
@[simp] theorem State.modTxn_inv (f : TxnUnit → TxnUnit) (s : State) : (s.modTxn f).inv = s.inv := rfl
@[simp] theorem State.modTxn_link (f : TxnUnit → TxnUnit) (s : State) : (s.modTxn f).link = s.link := rfl
@[simp] theorem State.modTxn_cell (f : TxnUnit → TxnUnit) (s : State) : (s.modTxn f).cell = s.cell := rfl
@[simp] theorem State.modTxn_ras (f : TxnUnit → TxnUnit) (s : State) : (s.modTxn f).ras = s.ras := rfl
@[simp] theorem State.modTxn_plat (f : TxnUnit → TxnUnit) (s : State) : (s.modTxn f).plat = s.plat := rfl
@[simp] theorem State.modTxn_out (f : TxnUnit → TxnUnit) (s : State) : (s.modTxn f).out = s.out := rfl
@[simp] theorem State.modTxn_free (f : TxnUnit → TxnUnit) (s : State) : (s.modTxn f).free = s.free := rfl

/-! ### State.setRegs -/

@[simp] theorem State.setRegs_pending (x : NMap Word) (s : State) : (s.setRegs x).pending = s.pending := rfl
@[simp] theorem State.setRegs_ident (x : NMap Word) (s : State) : (s.setRegs x).ident = s.ident := rfl
@[simp] theorem State.setRegs_clk (x : NMap Word) (s : State) : (s.setRegs x).clk = s.clk := rfl
@[simp] theorem State.setRegs_living (x : NMap Word) (s : State) : (s.setRegs x).living = s.living := rfl
@[simp] theorem State.setRegs_attic (x : NMap Word) (s : State) : (s.setRegs x).attic = s.attic := rfl
@[simp] theorem State.setRegs_txn (x : NMap Word) (s : State) : (s.setRegs x).txn = s.txn := rfl
@[simp] theorem State.setRegs_regs (x : NMap Word) (s : State) : (s.setRegs x).regs = x := rfl
@[simp] theorem State.setRegs_bar2 (x : NMap Word) (s : State) : (s.setRegs x).bar2 = s.bar2 := rfl
@[simp] theorem State.setRegs_ten (x : NMap Word) (s : State) : (s.setRegs x).ten = s.ten := rfl
@[simp] theorem State.setRegs_qm (x : NMap Word) (s : State) : (s.setRegs x).qm = s.qm := rfl
@[simp] theorem State.setRegs_isl (x : NMap Word) (s : State) : (s.setRegs x).isl = s.isl := rfl
@[simp] theorem State.setRegs_tasks (x : NMap Word) (s : State) : (s.setRegs x).tasks = s.tasks := rfl
@[simp] theorem State.setRegs_streams (x : NMap Word) (s : State) : (s.setRegs x).streams = s.streams := rfl
@[simp] theorem State.setRegs_mesh (x : NMap Word) (s : State) : (s.setRegs x).mesh = s.mesh := rfl
@[simp] theorem State.setRegs_eng (x : NMap Word) (s : State) : (s.setRegs x).eng = s.eng := rfl
@[simp] theorem State.setRegs_repro (x : NMap Word) (s : State) : (s.setRegs x).repro = s.repro := rfl
@[simp] theorem State.setRegs_cellar (x : NMap Word) (s : State) : (s.setRegs x).cellar = s.cellar := rfl
@[simp] theorem State.setRegs_pantry (x : NMap Word) (s : State) : (s.setRegs x).pantry = s.pantry := rfl
@[simp] theorem State.setRegs_ledg (x : NMap Word) (s : State) : (s.setRegs x).ledg = s.ledg := rfl
@[simp] theorem State.setRegs_inv (x : NMap Word) (s : State) : (s.setRegs x).inv = s.inv := rfl
@[simp] theorem State.setRegs_link (x : NMap Word) (s : State) : (s.setRegs x).link = s.link := rfl
@[simp] theorem State.setRegs_cell (x : NMap Word) (s : State) : (s.setRegs x).cell = s.cell := rfl
@[simp] theorem State.setRegs_ras (x : NMap Word) (s : State) : (s.setRegs x).ras = s.ras := rfl
@[simp] theorem State.setRegs_plat (x : NMap Word) (s : State) : (s.setRegs x).plat = s.plat := rfl
@[simp] theorem State.setRegs_out (x : NMap Word) (s : State) : (s.setRegs x).out = s.out := rfl
@[simp] theorem State.setRegs_free (x : NMap Word) (s : State) : (s.setRegs x).free = s.free := rfl

/-! ### State.setBar2 -/

@[simp] theorem State.setBar2_pending (x : NMap (NMap Word)) (s : State) : (s.setBar2 x).pending = s.pending := rfl
@[simp] theorem State.setBar2_ident (x : NMap (NMap Word)) (s : State) : (s.setBar2 x).ident = s.ident := rfl
@[simp] theorem State.setBar2_clk (x : NMap (NMap Word)) (s : State) : (s.setBar2 x).clk = s.clk := rfl
@[simp] theorem State.setBar2_living (x : NMap (NMap Word)) (s : State) : (s.setBar2 x).living = s.living := rfl
@[simp] theorem State.setBar2_attic (x : NMap (NMap Word)) (s : State) : (s.setBar2 x).attic = s.attic := rfl
@[simp] theorem State.setBar2_txn (x : NMap (NMap Word)) (s : State) : (s.setBar2 x).txn = s.txn := rfl
@[simp] theorem State.setBar2_regs (x : NMap (NMap Word)) (s : State) : (s.setBar2 x).regs = s.regs := rfl
@[simp] theorem State.setBar2_bar2 (x : NMap (NMap Word)) (s : State) : (s.setBar2 x).bar2 = x := rfl
@[simp] theorem State.setBar2_ten (x : NMap (NMap Word)) (s : State) : (s.setBar2 x).ten = s.ten := rfl
@[simp] theorem State.setBar2_qm (x : NMap (NMap Word)) (s : State) : (s.setBar2 x).qm = s.qm := rfl
@[simp] theorem State.setBar2_isl (x : NMap (NMap Word)) (s : State) : (s.setBar2 x).isl = s.isl := rfl
@[simp] theorem State.setBar2_tasks (x : NMap (NMap Word)) (s : State) : (s.setBar2 x).tasks = s.tasks := rfl
@[simp] theorem State.setBar2_streams (x : NMap (NMap Word)) (s : State) : (s.setBar2 x).streams = s.streams := rfl
@[simp] theorem State.setBar2_mesh (x : NMap (NMap Word)) (s : State) : (s.setBar2 x).mesh = s.mesh := rfl
@[simp] theorem State.setBar2_eng (x : NMap (NMap Word)) (s : State) : (s.setBar2 x).eng = s.eng := rfl
@[simp] theorem State.setBar2_repro (x : NMap (NMap Word)) (s : State) : (s.setBar2 x).repro = s.repro := rfl
@[simp] theorem State.setBar2_cellar (x : NMap (NMap Word)) (s : State) : (s.setBar2 x).cellar = s.cellar := rfl
@[simp] theorem State.setBar2_pantry (x : NMap (NMap Word)) (s : State) : (s.setBar2 x).pantry = s.pantry := rfl
@[simp] theorem State.setBar2_ledg (x : NMap (NMap Word)) (s : State) : (s.setBar2 x).ledg = s.ledg := rfl
@[simp] theorem State.setBar2_inv (x : NMap (NMap Word)) (s : State) : (s.setBar2 x).inv = s.inv := rfl
@[simp] theorem State.setBar2_link (x : NMap (NMap Word)) (s : State) : (s.setBar2 x).link = s.link := rfl
@[simp] theorem State.setBar2_cell (x : NMap (NMap Word)) (s : State) : (s.setBar2 x).cell = s.cell := rfl
@[simp] theorem State.setBar2_ras (x : NMap (NMap Word)) (s : State) : (s.setBar2 x).ras = s.ras := rfl
@[simp] theorem State.setBar2_plat (x : NMap (NMap Word)) (s : State) : (s.setBar2 x).plat = s.plat := rfl
@[simp] theorem State.setBar2_out (x : NMap (NMap Word)) (s : State) : (s.setBar2 x).out = s.out := rfl
@[simp] theorem State.setBar2_free (x : NMap (NMap Word)) (s : State) : (s.setBar2 x).free = s.free := rfl

/-! ### State.modTenU -/

@[simp] theorem State.modTenU_pending (f : TenUnit → TenUnit) (s : State) : (s.modTenU f).pending = s.pending := rfl
@[simp] theorem State.modTenU_ident (f : TenUnit → TenUnit) (s : State) : (s.modTenU f).ident = s.ident := rfl
@[simp] theorem State.modTenU_clk (f : TenUnit → TenUnit) (s : State) : (s.modTenU f).clk = s.clk := rfl
@[simp] theorem State.modTenU_living (f : TenUnit → TenUnit) (s : State) : (s.modTenU f).living = s.living := rfl
@[simp] theorem State.modTenU_attic (f : TenUnit → TenUnit) (s : State) : (s.modTenU f).attic = s.attic := rfl
@[simp] theorem State.modTenU_txn (f : TenUnit → TenUnit) (s : State) : (s.modTenU f).txn = s.txn := rfl
@[simp] theorem State.modTenU_regs (f : TenUnit → TenUnit) (s : State) : (s.modTenU f).regs = s.regs := rfl
@[simp] theorem State.modTenU_bar2 (f : TenUnit → TenUnit) (s : State) : (s.modTenU f).bar2 = s.bar2 := rfl
@[simp] theorem State.modTenU_ten (f : TenUnit → TenUnit) (s : State) : (s.modTenU f).ten = f s.ten := rfl
@[simp] theorem State.modTenU_qm (f : TenUnit → TenUnit) (s : State) : (s.modTenU f).qm = s.qm := rfl
@[simp] theorem State.modTenU_isl (f : TenUnit → TenUnit) (s : State) : (s.modTenU f).isl = s.isl := rfl
@[simp] theorem State.modTenU_tasks (f : TenUnit → TenUnit) (s : State) : (s.modTenU f).tasks = s.tasks := rfl
@[simp] theorem State.modTenU_streams (f : TenUnit → TenUnit) (s : State) : (s.modTenU f).streams = s.streams := rfl
@[simp] theorem State.modTenU_mesh (f : TenUnit → TenUnit) (s : State) : (s.modTenU f).mesh = s.mesh := rfl
@[simp] theorem State.modTenU_eng (f : TenUnit → TenUnit) (s : State) : (s.modTenU f).eng = s.eng := rfl
@[simp] theorem State.modTenU_repro (f : TenUnit → TenUnit) (s : State) : (s.modTenU f).repro = s.repro := rfl
@[simp] theorem State.modTenU_cellar (f : TenUnit → TenUnit) (s : State) : (s.modTenU f).cellar = s.cellar := rfl
@[simp] theorem State.modTenU_pantry (f : TenUnit → TenUnit) (s : State) : (s.modTenU f).pantry = s.pantry := rfl
@[simp] theorem State.modTenU_ledg (f : TenUnit → TenUnit) (s : State) : (s.modTenU f).ledg = s.ledg := rfl
@[simp] theorem State.modTenU_inv (f : TenUnit → TenUnit) (s : State) : (s.modTenU f).inv = s.inv := rfl
@[simp] theorem State.modTenU_link (f : TenUnit → TenUnit) (s : State) : (s.modTenU f).link = s.link := rfl
@[simp] theorem State.modTenU_cell (f : TenUnit → TenUnit) (s : State) : (s.modTenU f).cell = s.cell := rfl
@[simp] theorem State.modTenU_ras (f : TenUnit → TenUnit) (s : State) : (s.modTenU f).ras = s.ras := rfl
@[simp] theorem State.modTenU_plat (f : TenUnit → TenUnit) (s : State) : (s.modTenU f).plat = s.plat := rfl
@[simp] theorem State.modTenU_out (f : TenUnit → TenUnit) (s : State) : (s.modTenU f).out = s.out := rfl
@[simp] theorem State.modTenU_free (f : TenUnit → TenUnit) (s : State) : (s.modTenU f).free = s.free := rfl

/-! ### State.modQm -/

@[simp] theorem State.modQm_pending (f : QMgr → QMgr) (s : State) : (s.modQm f).pending = s.pending := rfl
@[simp] theorem State.modQm_ident (f : QMgr → QMgr) (s : State) : (s.modQm f).ident = s.ident := rfl
@[simp] theorem State.modQm_clk (f : QMgr → QMgr) (s : State) : (s.modQm f).clk = s.clk := rfl
@[simp] theorem State.modQm_living (f : QMgr → QMgr) (s : State) : (s.modQm f).living = s.living := rfl
@[simp] theorem State.modQm_attic (f : QMgr → QMgr) (s : State) : (s.modQm f).attic = s.attic := rfl
@[simp] theorem State.modQm_txn (f : QMgr → QMgr) (s : State) : (s.modQm f).txn = s.txn := rfl
@[simp] theorem State.modQm_regs (f : QMgr → QMgr) (s : State) : (s.modQm f).regs = s.regs := rfl
@[simp] theorem State.modQm_bar2 (f : QMgr → QMgr) (s : State) : (s.modQm f).bar2 = s.bar2 := rfl
@[simp] theorem State.modQm_ten (f : QMgr → QMgr) (s : State) : (s.modQm f).ten = s.ten := rfl
@[simp] theorem State.modQm_qm (f : QMgr → QMgr) (s : State) : (s.modQm f).qm = f s.qm := rfl
@[simp] theorem State.modQm_isl (f : QMgr → QMgr) (s : State) : (s.modQm f).isl = s.isl := rfl
@[simp] theorem State.modQm_tasks (f : QMgr → QMgr) (s : State) : (s.modQm f).tasks = s.tasks := rfl
@[simp] theorem State.modQm_streams (f : QMgr → QMgr) (s : State) : (s.modQm f).streams = s.streams := rfl
@[simp] theorem State.modQm_mesh (f : QMgr → QMgr) (s : State) : (s.modQm f).mesh = s.mesh := rfl
@[simp] theorem State.modQm_eng (f : QMgr → QMgr) (s : State) : (s.modQm f).eng = s.eng := rfl
@[simp] theorem State.modQm_repro (f : QMgr → QMgr) (s : State) : (s.modQm f).repro = s.repro := rfl
@[simp] theorem State.modQm_cellar (f : QMgr → QMgr) (s : State) : (s.modQm f).cellar = s.cellar := rfl
@[simp] theorem State.modQm_pantry (f : QMgr → QMgr) (s : State) : (s.modQm f).pantry = s.pantry := rfl
@[simp] theorem State.modQm_ledg (f : QMgr → QMgr) (s : State) : (s.modQm f).ledg = s.ledg := rfl
@[simp] theorem State.modQm_inv (f : QMgr → QMgr) (s : State) : (s.modQm f).inv = s.inv := rfl
@[simp] theorem State.modQm_link (f : QMgr → QMgr) (s : State) : (s.modQm f).link = s.link := rfl
@[simp] theorem State.modQm_cell (f : QMgr → QMgr) (s : State) : (s.modQm f).cell = s.cell := rfl
@[simp] theorem State.modQm_ras (f : QMgr → QMgr) (s : State) : (s.modQm f).ras = s.ras := rfl
@[simp] theorem State.modQm_plat (f : QMgr → QMgr) (s : State) : (s.modQm f).plat = s.plat := rfl
@[simp] theorem State.modQm_out (f : QMgr → QMgr) (s : State) : (s.modQm f).out = s.out := rfl
@[simp] theorem State.modQm_free (f : QMgr → QMgr) (s : State) : (s.modQm f).free = s.free := rfl

/-! ### State.setIsls -/

@[simp] theorem State.setIsls_pending (x : NMap Isl) (s : State) : (s.setIsls x).pending = s.pending := rfl
@[simp] theorem State.setIsls_ident (x : NMap Isl) (s : State) : (s.setIsls x).ident = s.ident := rfl
@[simp] theorem State.setIsls_clk (x : NMap Isl) (s : State) : (s.setIsls x).clk = s.clk := rfl
@[simp] theorem State.setIsls_living (x : NMap Isl) (s : State) : (s.setIsls x).living = s.living := rfl
@[simp] theorem State.setIsls_attic (x : NMap Isl) (s : State) : (s.setIsls x).attic = s.attic := rfl
@[simp] theorem State.setIsls_txn (x : NMap Isl) (s : State) : (s.setIsls x).txn = s.txn := rfl
@[simp] theorem State.setIsls_regs (x : NMap Isl) (s : State) : (s.setIsls x).regs = s.regs := rfl
@[simp] theorem State.setIsls_bar2 (x : NMap Isl) (s : State) : (s.setIsls x).bar2 = s.bar2 := rfl
@[simp] theorem State.setIsls_ten (x : NMap Isl) (s : State) : (s.setIsls x).ten = s.ten := rfl
@[simp] theorem State.setIsls_qm (x : NMap Isl) (s : State) : (s.setIsls x).qm = s.qm := rfl
@[simp] theorem State.setIsls_isl (x : NMap Isl) (s : State) : (s.setIsls x).isl = x := rfl
@[simp] theorem State.setIsls_tasks (x : NMap Isl) (s : State) : (s.setIsls x).tasks = s.tasks := rfl
@[simp] theorem State.setIsls_streams (x : NMap Isl) (s : State) : (s.setIsls x).streams = s.streams := rfl
@[simp] theorem State.setIsls_mesh (x : NMap Isl) (s : State) : (s.setIsls x).mesh = s.mesh := rfl
@[simp] theorem State.setIsls_eng (x : NMap Isl) (s : State) : (s.setIsls x).eng = s.eng := rfl
@[simp] theorem State.setIsls_repro (x : NMap Isl) (s : State) : (s.setIsls x).repro = s.repro := rfl
@[simp] theorem State.setIsls_cellar (x : NMap Isl) (s : State) : (s.setIsls x).cellar = s.cellar := rfl
@[simp] theorem State.setIsls_pantry (x : NMap Isl) (s : State) : (s.setIsls x).pantry = s.pantry := rfl
@[simp] theorem State.setIsls_ledg (x : NMap Isl) (s : State) : (s.setIsls x).ledg = s.ledg := rfl
@[simp] theorem State.setIsls_inv (x : NMap Isl) (s : State) : (s.setIsls x).inv = s.inv := rfl
@[simp] theorem State.setIsls_link (x : NMap Isl) (s : State) : (s.setIsls x).link = s.link := rfl
@[simp] theorem State.setIsls_cell (x : NMap Isl) (s : State) : (s.setIsls x).cell = s.cell := rfl
@[simp] theorem State.setIsls_ras (x : NMap Isl) (s : State) : (s.setIsls x).ras = s.ras := rfl
@[simp] theorem State.setIsls_plat (x : NMap Isl) (s : State) : (s.setIsls x).plat = s.plat := rfl
@[simp] theorem State.setIsls_out (x : NMap Isl) (s : State) : (s.setIsls x).out = s.out := rfl
@[simp] theorem State.setIsls_free (x : NMap Isl) (s : State) : (s.setIsls x).free = s.free := rfl

/-! ### State.modTasks -/

@[simp] theorem State.modTasks_pending (f : Tasks → Tasks) (s : State) : (s.modTasks f).pending = s.pending := rfl
@[simp] theorem State.modTasks_ident (f : Tasks → Tasks) (s : State) : (s.modTasks f).ident = s.ident := rfl
@[simp] theorem State.modTasks_clk (f : Tasks → Tasks) (s : State) : (s.modTasks f).clk = s.clk := rfl
@[simp] theorem State.modTasks_living (f : Tasks → Tasks) (s : State) : (s.modTasks f).living = s.living := rfl
@[simp] theorem State.modTasks_attic (f : Tasks → Tasks) (s : State) : (s.modTasks f).attic = s.attic := rfl
@[simp] theorem State.modTasks_txn (f : Tasks → Tasks) (s : State) : (s.modTasks f).txn = s.txn := rfl
@[simp] theorem State.modTasks_regs (f : Tasks → Tasks) (s : State) : (s.modTasks f).regs = s.regs := rfl
@[simp] theorem State.modTasks_bar2 (f : Tasks → Tasks) (s : State) : (s.modTasks f).bar2 = s.bar2 := rfl
@[simp] theorem State.modTasks_ten (f : Tasks → Tasks) (s : State) : (s.modTasks f).ten = s.ten := rfl
@[simp] theorem State.modTasks_qm (f : Tasks → Tasks) (s : State) : (s.modTasks f).qm = s.qm := rfl
@[simp] theorem State.modTasks_isl (f : Tasks → Tasks) (s : State) : (s.modTasks f).isl = s.isl := rfl
@[simp] theorem State.modTasks_tasks (f : Tasks → Tasks) (s : State) : (s.modTasks f).tasks = f s.tasks := rfl
@[simp] theorem State.modTasks_streams (f : Tasks → Tasks) (s : State) : (s.modTasks f).streams = s.streams := rfl
@[simp] theorem State.modTasks_mesh (f : Tasks → Tasks) (s : State) : (s.modTasks f).mesh = s.mesh := rfl
@[simp] theorem State.modTasks_eng (f : Tasks → Tasks) (s : State) : (s.modTasks f).eng = s.eng := rfl
@[simp] theorem State.modTasks_repro (f : Tasks → Tasks) (s : State) : (s.modTasks f).repro = s.repro := rfl
@[simp] theorem State.modTasks_cellar (f : Tasks → Tasks) (s : State) : (s.modTasks f).cellar = s.cellar := rfl
@[simp] theorem State.modTasks_pantry (f : Tasks → Tasks) (s : State) : (s.modTasks f).pantry = s.pantry := rfl
@[simp] theorem State.modTasks_ledg (f : Tasks → Tasks) (s : State) : (s.modTasks f).ledg = s.ledg := rfl
@[simp] theorem State.modTasks_inv (f : Tasks → Tasks) (s : State) : (s.modTasks f).inv = s.inv := rfl
@[simp] theorem State.modTasks_link (f : Tasks → Tasks) (s : State) : (s.modTasks f).link = s.link := rfl
@[simp] theorem State.modTasks_cell (f : Tasks → Tasks) (s : State) : (s.modTasks f).cell = s.cell := rfl
@[simp] theorem State.modTasks_ras (f : Tasks → Tasks) (s : State) : (s.modTasks f).ras = s.ras := rfl
@[simp] theorem State.modTasks_plat (f : Tasks → Tasks) (s : State) : (s.modTasks f).plat = s.plat := rfl
@[simp] theorem State.modTasks_out (f : Tasks → Tasks) (s : State) : (s.modTasks f).out = s.out := rfl
@[simp] theorem State.modTasks_free (f : Tasks → Tasks) (s : State) : (s.modTasks f).free = s.free := rfl

/-! ### State.modMesh -/

@[simp] theorem State.modMesh_pending (f : Mesh → Mesh) (s : State) : (s.modMesh f).pending = s.pending := rfl
@[simp] theorem State.modMesh_ident (f : Mesh → Mesh) (s : State) : (s.modMesh f).ident = s.ident := rfl
@[simp] theorem State.modMesh_clk (f : Mesh → Mesh) (s : State) : (s.modMesh f).clk = s.clk := rfl
@[simp] theorem State.modMesh_living (f : Mesh → Mesh) (s : State) : (s.modMesh f).living = s.living := rfl
@[simp] theorem State.modMesh_attic (f : Mesh → Mesh) (s : State) : (s.modMesh f).attic = s.attic := rfl
@[simp] theorem State.modMesh_txn (f : Mesh → Mesh) (s : State) : (s.modMesh f).txn = s.txn := rfl
@[simp] theorem State.modMesh_regs (f : Mesh → Mesh) (s : State) : (s.modMesh f).regs = s.regs := rfl
@[simp] theorem State.modMesh_bar2 (f : Mesh → Mesh) (s : State) : (s.modMesh f).bar2 = s.bar2 := rfl
@[simp] theorem State.modMesh_ten (f : Mesh → Mesh) (s : State) : (s.modMesh f).ten = s.ten := rfl
@[simp] theorem State.modMesh_qm (f : Mesh → Mesh) (s : State) : (s.modMesh f).qm = s.qm := rfl
@[simp] theorem State.modMesh_isl (f : Mesh → Mesh) (s : State) : (s.modMesh f).isl = s.isl := rfl
@[simp] theorem State.modMesh_tasks (f : Mesh → Mesh) (s : State) : (s.modMesh f).tasks = s.tasks := rfl
@[simp] theorem State.modMesh_streams (f : Mesh → Mesh) (s : State) : (s.modMesh f).streams = s.streams := rfl
@[simp] theorem State.modMesh_mesh (f : Mesh → Mesh) (s : State) : (s.modMesh f).mesh = f s.mesh := rfl
@[simp] theorem State.modMesh_eng (f : Mesh → Mesh) (s : State) : (s.modMesh f).eng = s.eng := rfl
@[simp] theorem State.modMesh_repro (f : Mesh → Mesh) (s : State) : (s.modMesh f).repro = s.repro := rfl
@[simp] theorem State.modMesh_cellar (f : Mesh → Mesh) (s : State) : (s.modMesh f).cellar = s.cellar := rfl
@[simp] theorem State.modMesh_pantry (f : Mesh → Mesh) (s : State) : (s.modMesh f).pantry = s.pantry := rfl
@[simp] theorem State.modMesh_ledg (f : Mesh → Mesh) (s : State) : (s.modMesh f).ledg = s.ledg := rfl
@[simp] theorem State.modMesh_inv (f : Mesh → Mesh) (s : State) : (s.modMesh f).inv = s.inv := rfl
@[simp] theorem State.modMesh_link (f : Mesh → Mesh) (s : State) : (s.modMesh f).link = s.link := rfl
@[simp] theorem State.modMesh_cell (f : Mesh → Mesh) (s : State) : (s.modMesh f).cell = s.cell := rfl
@[simp] theorem State.modMesh_ras (f : Mesh → Mesh) (s : State) : (s.modMesh f).ras = s.ras := rfl
@[simp] theorem State.modMesh_plat (f : Mesh → Mesh) (s : State) : (s.modMesh f).plat = s.plat := rfl
@[simp] theorem State.modMesh_out (f : Mesh → Mesh) (s : State) : (s.modMesh f).out = s.out := rfl
@[simp] theorem State.modMesh_free (f : Mesh → Mesh) (s : State) : (s.modMesh f).free = s.free := rfl

/-! ### State.modEng -/

@[simp] theorem State.modEng_pending (f : Engines → Engines) (s : State) : (s.modEng f).pending = s.pending := rfl
@[simp] theorem State.modEng_ident (f : Engines → Engines) (s : State) : (s.modEng f).ident = s.ident := rfl
@[simp] theorem State.modEng_clk (f : Engines → Engines) (s : State) : (s.modEng f).clk = s.clk := rfl
@[simp] theorem State.modEng_living (f : Engines → Engines) (s : State) : (s.modEng f).living = s.living := rfl
@[simp] theorem State.modEng_attic (f : Engines → Engines) (s : State) : (s.modEng f).attic = s.attic := rfl
@[simp] theorem State.modEng_txn (f : Engines → Engines) (s : State) : (s.modEng f).txn = s.txn := rfl
@[simp] theorem State.modEng_regs (f : Engines → Engines) (s : State) : (s.modEng f).regs = s.regs := rfl
@[simp] theorem State.modEng_bar2 (f : Engines → Engines) (s : State) : (s.modEng f).bar2 = s.bar2 := rfl
@[simp] theorem State.modEng_ten (f : Engines → Engines) (s : State) : (s.modEng f).ten = s.ten := rfl
@[simp] theorem State.modEng_qm (f : Engines → Engines) (s : State) : (s.modEng f).qm = s.qm := rfl
@[simp] theorem State.modEng_isl (f : Engines → Engines) (s : State) : (s.modEng f).isl = s.isl := rfl
@[simp] theorem State.modEng_tasks (f : Engines → Engines) (s : State) : (s.modEng f).tasks = s.tasks := rfl
@[simp] theorem State.modEng_streams (f : Engines → Engines) (s : State) : (s.modEng f).streams = s.streams := rfl
@[simp] theorem State.modEng_mesh (f : Engines → Engines) (s : State) : (s.modEng f).mesh = s.mesh := rfl
@[simp] theorem State.modEng_eng (f : Engines → Engines) (s : State) : (s.modEng f).eng = f s.eng := rfl
@[simp] theorem State.modEng_repro (f : Engines → Engines) (s : State) : (s.modEng f).repro = s.repro := rfl
@[simp] theorem State.modEng_cellar (f : Engines → Engines) (s : State) : (s.modEng f).cellar = s.cellar := rfl
@[simp] theorem State.modEng_pantry (f : Engines → Engines) (s : State) : (s.modEng f).pantry = s.pantry := rfl
@[simp] theorem State.modEng_ledg (f : Engines → Engines) (s : State) : (s.modEng f).ledg = s.ledg := rfl
@[simp] theorem State.modEng_inv (f : Engines → Engines) (s : State) : (s.modEng f).inv = s.inv := rfl
@[simp] theorem State.modEng_link (f : Engines → Engines) (s : State) : (s.modEng f).link = s.link := rfl
@[simp] theorem State.modEng_cell (f : Engines → Engines) (s : State) : (s.modEng f).cell = s.cell := rfl
@[simp] theorem State.modEng_ras (f : Engines → Engines) (s : State) : (s.modEng f).ras = s.ras := rfl
@[simp] theorem State.modEng_plat (f : Engines → Engines) (s : State) : (s.modEng f).plat = s.plat := rfl
@[simp] theorem State.modEng_out (f : Engines → Engines) (s : State) : (s.modEng f).out = s.out := rfl
@[simp] theorem State.modEng_free (f : Engines → Engines) (s : State) : (s.modEng f).free = s.free := rfl

/-! ### State.modRepro -/

@[simp] theorem State.modRepro_pending (f : Repro → Repro) (s : State) : (s.modRepro f).pending = s.pending := rfl
@[simp] theorem State.modRepro_ident (f : Repro → Repro) (s : State) : (s.modRepro f).ident = s.ident := rfl
@[simp] theorem State.modRepro_clk (f : Repro → Repro) (s : State) : (s.modRepro f).clk = s.clk := rfl
@[simp] theorem State.modRepro_living (f : Repro → Repro) (s : State) : (s.modRepro f).living = s.living := rfl
@[simp] theorem State.modRepro_attic (f : Repro → Repro) (s : State) : (s.modRepro f).attic = s.attic := rfl
@[simp] theorem State.modRepro_txn (f : Repro → Repro) (s : State) : (s.modRepro f).txn = s.txn := rfl
@[simp] theorem State.modRepro_regs (f : Repro → Repro) (s : State) : (s.modRepro f).regs = s.regs := rfl
@[simp] theorem State.modRepro_bar2 (f : Repro → Repro) (s : State) : (s.modRepro f).bar2 = s.bar2 := rfl
@[simp] theorem State.modRepro_ten (f : Repro → Repro) (s : State) : (s.modRepro f).ten = s.ten := rfl
@[simp] theorem State.modRepro_qm (f : Repro → Repro) (s : State) : (s.modRepro f).qm = s.qm := rfl
@[simp] theorem State.modRepro_isl (f : Repro → Repro) (s : State) : (s.modRepro f).isl = s.isl := rfl
@[simp] theorem State.modRepro_tasks (f : Repro → Repro) (s : State) : (s.modRepro f).tasks = s.tasks := rfl
@[simp] theorem State.modRepro_streams (f : Repro → Repro) (s : State) : (s.modRepro f).streams = s.streams := rfl
@[simp] theorem State.modRepro_mesh (f : Repro → Repro) (s : State) : (s.modRepro f).mesh = s.mesh := rfl
@[simp] theorem State.modRepro_eng (f : Repro → Repro) (s : State) : (s.modRepro f).eng = s.eng := rfl
@[simp] theorem State.modRepro_repro (f : Repro → Repro) (s : State) : (s.modRepro f).repro = f s.repro := rfl
@[simp] theorem State.modRepro_cellar (f : Repro → Repro) (s : State) : (s.modRepro f).cellar = s.cellar := rfl
@[simp] theorem State.modRepro_pantry (f : Repro → Repro) (s : State) : (s.modRepro f).pantry = s.pantry := rfl
@[simp] theorem State.modRepro_ledg (f : Repro → Repro) (s : State) : (s.modRepro f).ledg = s.ledg := rfl
@[simp] theorem State.modRepro_inv (f : Repro → Repro) (s : State) : (s.modRepro f).inv = s.inv := rfl
@[simp] theorem State.modRepro_link (f : Repro → Repro) (s : State) : (s.modRepro f).link = s.link := rfl
@[simp] theorem State.modRepro_cell (f : Repro → Repro) (s : State) : (s.modRepro f).cell = s.cell := rfl
@[simp] theorem State.modRepro_ras (f : Repro → Repro) (s : State) : (s.modRepro f).ras = s.ras := rfl
@[simp] theorem State.modRepro_plat (f : Repro → Repro) (s : State) : (s.modRepro f).plat = s.plat := rfl
@[simp] theorem State.modRepro_out (f : Repro → Repro) (s : State) : (s.modRepro f).out = s.out := rfl
@[simp] theorem State.modRepro_free (f : Repro → Repro) (s : State) : (s.modRepro f).free = s.free := rfl

/-! ### State.modCellar -/

@[simp] theorem State.modCellar_pending (f : Cellar → Cellar) (s : State) : (s.modCellar f).pending = s.pending := rfl
@[simp] theorem State.modCellar_ident (f : Cellar → Cellar) (s : State) : (s.modCellar f).ident = s.ident := rfl
@[simp] theorem State.modCellar_clk (f : Cellar → Cellar) (s : State) : (s.modCellar f).clk = s.clk := rfl
@[simp] theorem State.modCellar_living (f : Cellar → Cellar) (s : State) : (s.modCellar f).living = s.living := rfl
@[simp] theorem State.modCellar_attic (f : Cellar → Cellar) (s : State) : (s.modCellar f).attic = s.attic := rfl
@[simp] theorem State.modCellar_txn (f : Cellar → Cellar) (s : State) : (s.modCellar f).txn = s.txn := rfl
@[simp] theorem State.modCellar_regs (f : Cellar → Cellar) (s : State) : (s.modCellar f).regs = s.regs := rfl
@[simp] theorem State.modCellar_bar2 (f : Cellar → Cellar) (s : State) : (s.modCellar f).bar2 = s.bar2 := rfl
@[simp] theorem State.modCellar_ten (f : Cellar → Cellar) (s : State) : (s.modCellar f).ten = s.ten := rfl
@[simp] theorem State.modCellar_qm (f : Cellar → Cellar) (s : State) : (s.modCellar f).qm = s.qm := rfl
@[simp] theorem State.modCellar_isl (f : Cellar → Cellar) (s : State) : (s.modCellar f).isl = s.isl := rfl
@[simp] theorem State.modCellar_tasks (f : Cellar → Cellar) (s : State) : (s.modCellar f).tasks = s.tasks := rfl
@[simp] theorem State.modCellar_streams (f : Cellar → Cellar) (s : State) : (s.modCellar f).streams = s.streams := rfl
@[simp] theorem State.modCellar_mesh (f : Cellar → Cellar) (s : State) : (s.modCellar f).mesh = s.mesh := rfl
@[simp] theorem State.modCellar_eng (f : Cellar → Cellar) (s : State) : (s.modCellar f).eng = s.eng := rfl
@[simp] theorem State.modCellar_repro (f : Cellar → Cellar) (s : State) : (s.modCellar f).repro = s.repro := rfl
@[simp] theorem State.modCellar_cellar (f : Cellar → Cellar) (s : State) : (s.modCellar f).cellar = f s.cellar := rfl
@[simp] theorem State.modCellar_pantry (f : Cellar → Cellar) (s : State) : (s.modCellar f).pantry = s.pantry := rfl
@[simp] theorem State.modCellar_ledg (f : Cellar → Cellar) (s : State) : (s.modCellar f).ledg = s.ledg := rfl
@[simp] theorem State.modCellar_inv (f : Cellar → Cellar) (s : State) : (s.modCellar f).inv = s.inv := rfl
@[simp] theorem State.modCellar_link (f : Cellar → Cellar) (s : State) : (s.modCellar f).link = s.link := rfl
@[simp] theorem State.modCellar_cell (f : Cellar → Cellar) (s : State) : (s.modCellar f).cell = s.cell := rfl
@[simp] theorem State.modCellar_ras (f : Cellar → Cellar) (s : State) : (s.modCellar f).ras = s.ras := rfl
@[simp] theorem State.modCellar_plat (f : Cellar → Cellar) (s : State) : (s.modCellar f).plat = s.plat := rfl
@[simp] theorem State.modCellar_out (f : Cellar → Cellar) (s : State) : (s.modCellar f).out = s.out := rfl
@[simp] theorem State.modCellar_free (f : Cellar → Cellar) (s : State) : (s.modCellar f).free = s.free := rfl

/-! ### State.setPantry -/

@[simp] theorem State.setPantry_pending (x : NMap PWin) (s : State) : (s.setPantry x).pending = s.pending := rfl
@[simp] theorem State.setPantry_ident (x : NMap PWin) (s : State) : (s.setPantry x).ident = s.ident := rfl
@[simp] theorem State.setPantry_clk (x : NMap PWin) (s : State) : (s.setPantry x).clk = s.clk := rfl
@[simp] theorem State.setPantry_living (x : NMap PWin) (s : State) : (s.setPantry x).living = s.living := rfl
@[simp] theorem State.setPantry_attic (x : NMap PWin) (s : State) : (s.setPantry x).attic = s.attic := rfl
@[simp] theorem State.setPantry_txn (x : NMap PWin) (s : State) : (s.setPantry x).txn = s.txn := rfl
@[simp] theorem State.setPantry_regs (x : NMap PWin) (s : State) : (s.setPantry x).regs = s.regs := rfl
@[simp] theorem State.setPantry_bar2 (x : NMap PWin) (s : State) : (s.setPantry x).bar2 = s.bar2 := rfl
@[simp] theorem State.setPantry_ten (x : NMap PWin) (s : State) : (s.setPantry x).ten = s.ten := rfl
@[simp] theorem State.setPantry_qm (x : NMap PWin) (s : State) : (s.setPantry x).qm = s.qm := rfl
@[simp] theorem State.setPantry_isl (x : NMap PWin) (s : State) : (s.setPantry x).isl = s.isl := rfl
@[simp] theorem State.setPantry_tasks (x : NMap PWin) (s : State) : (s.setPantry x).tasks = s.tasks := rfl
@[simp] theorem State.setPantry_streams (x : NMap PWin) (s : State) : (s.setPantry x).streams = s.streams := rfl
@[simp] theorem State.setPantry_mesh (x : NMap PWin) (s : State) : (s.setPantry x).mesh = s.mesh := rfl
@[simp] theorem State.setPantry_eng (x : NMap PWin) (s : State) : (s.setPantry x).eng = s.eng := rfl
@[simp] theorem State.setPantry_repro (x : NMap PWin) (s : State) : (s.setPantry x).repro = s.repro := rfl
@[simp] theorem State.setPantry_cellar (x : NMap PWin) (s : State) : (s.setPantry x).cellar = s.cellar := rfl
@[simp] theorem State.setPantry_pantry (x : NMap PWin) (s : State) : (s.setPantry x).pantry = x := rfl
@[simp] theorem State.setPantry_ledg (x : NMap PWin) (s : State) : (s.setPantry x).ledg = s.ledg := rfl
@[simp] theorem State.setPantry_inv (x : NMap PWin) (s : State) : (s.setPantry x).inv = s.inv := rfl
@[simp] theorem State.setPantry_link (x : NMap PWin) (s : State) : (s.setPantry x).link = s.link := rfl
@[simp] theorem State.setPantry_cell (x : NMap PWin) (s : State) : (s.setPantry x).cell = s.cell := rfl
@[simp] theorem State.setPantry_ras (x : NMap PWin) (s : State) : (s.setPantry x).ras = s.ras := rfl
@[simp] theorem State.setPantry_plat (x : NMap PWin) (s : State) : (s.setPantry x).plat = s.plat := rfl
@[simp] theorem State.setPantry_out (x : NMap PWin) (s : State) : (s.setPantry x).out = s.out := rfl
@[simp] theorem State.setPantry_free (x : NMap PWin) (s : State) : (s.setPantry x).free = s.free := rfl

/-! ### State.modLedg -/

@[simp] theorem State.modLedg_pending (f : Ledger → Ledger) (s : State) : (s.modLedg f).pending = s.pending := rfl
@[simp] theorem State.modLedg_ident (f : Ledger → Ledger) (s : State) : (s.modLedg f).ident = s.ident := rfl
@[simp] theorem State.modLedg_clk (f : Ledger → Ledger) (s : State) : (s.modLedg f).clk = s.clk := rfl
@[simp] theorem State.modLedg_living (f : Ledger → Ledger) (s : State) : (s.modLedg f).living = s.living := rfl
@[simp] theorem State.modLedg_attic (f : Ledger → Ledger) (s : State) : (s.modLedg f).attic = s.attic := rfl
@[simp] theorem State.modLedg_txn (f : Ledger → Ledger) (s : State) : (s.modLedg f).txn = s.txn := rfl
@[simp] theorem State.modLedg_regs (f : Ledger → Ledger) (s : State) : (s.modLedg f).regs = s.regs := rfl
@[simp] theorem State.modLedg_bar2 (f : Ledger → Ledger) (s : State) : (s.modLedg f).bar2 = s.bar2 := rfl
@[simp] theorem State.modLedg_ten (f : Ledger → Ledger) (s : State) : (s.modLedg f).ten = s.ten := rfl
@[simp] theorem State.modLedg_qm (f : Ledger → Ledger) (s : State) : (s.modLedg f).qm = s.qm := rfl
@[simp] theorem State.modLedg_isl (f : Ledger → Ledger) (s : State) : (s.modLedg f).isl = s.isl := rfl
@[simp] theorem State.modLedg_tasks (f : Ledger → Ledger) (s : State) : (s.modLedg f).tasks = s.tasks := rfl
@[simp] theorem State.modLedg_streams (f : Ledger → Ledger) (s : State) : (s.modLedg f).streams = s.streams := rfl
@[simp] theorem State.modLedg_mesh (f : Ledger → Ledger) (s : State) : (s.modLedg f).mesh = s.mesh := rfl
@[simp] theorem State.modLedg_eng (f : Ledger → Ledger) (s : State) : (s.modLedg f).eng = s.eng := rfl
@[simp] theorem State.modLedg_repro (f : Ledger → Ledger) (s : State) : (s.modLedg f).repro = s.repro := rfl
@[simp] theorem State.modLedg_cellar (f : Ledger → Ledger) (s : State) : (s.modLedg f).cellar = s.cellar := rfl
@[simp] theorem State.modLedg_pantry (f : Ledger → Ledger) (s : State) : (s.modLedg f).pantry = s.pantry := rfl
@[simp] theorem State.modLedg_ledg (f : Ledger → Ledger) (s : State) : (s.modLedg f).ledg = f s.ledg := rfl
@[simp] theorem State.modLedg_inv (f : Ledger → Ledger) (s : State) : (s.modLedg f).inv = s.inv := rfl
@[simp] theorem State.modLedg_link (f : Ledger → Ledger) (s : State) : (s.modLedg f).link = s.link := rfl
@[simp] theorem State.modLedg_cell (f : Ledger → Ledger) (s : State) : (s.modLedg f).cell = s.cell := rfl
@[simp] theorem State.modLedg_ras (f : Ledger → Ledger) (s : State) : (s.modLedg f).ras = s.ras := rfl
@[simp] theorem State.modLedg_plat (f : Ledger → Ledger) (s : State) : (s.modLedg f).plat = s.plat := rfl
@[simp] theorem State.modLedg_out (f : Ledger → Ledger) (s : State) : (s.modLedg f).out = s.out := rfl
@[simp] theorem State.modLedg_free (f : Ledger → Ledger) (s : State) : (s.modLedg f).free = s.free := rfl

/-! ### State.modInv -/

@[simp] theorem State.modInv_pending (f : Inventory → Inventory) (s : State) : (s.modInv f).pending = s.pending := rfl
@[simp] theorem State.modInv_ident (f : Inventory → Inventory) (s : State) : (s.modInv f).ident = s.ident := rfl
@[simp] theorem State.modInv_clk (f : Inventory → Inventory) (s : State) : (s.modInv f).clk = s.clk := rfl
@[simp] theorem State.modInv_living (f : Inventory → Inventory) (s : State) : (s.modInv f).living = s.living := rfl
@[simp] theorem State.modInv_attic (f : Inventory → Inventory) (s : State) : (s.modInv f).attic = s.attic := rfl
@[simp] theorem State.modInv_txn (f : Inventory → Inventory) (s : State) : (s.modInv f).txn = s.txn := rfl
@[simp] theorem State.modInv_regs (f : Inventory → Inventory) (s : State) : (s.modInv f).regs = s.regs := rfl
@[simp] theorem State.modInv_bar2 (f : Inventory → Inventory) (s : State) : (s.modInv f).bar2 = s.bar2 := rfl
@[simp] theorem State.modInv_ten (f : Inventory → Inventory) (s : State) : (s.modInv f).ten = s.ten := rfl
@[simp] theorem State.modInv_qm (f : Inventory → Inventory) (s : State) : (s.modInv f).qm = s.qm := rfl
@[simp] theorem State.modInv_isl (f : Inventory → Inventory) (s : State) : (s.modInv f).isl = s.isl := rfl
@[simp] theorem State.modInv_tasks (f : Inventory → Inventory) (s : State) : (s.modInv f).tasks = s.tasks := rfl
@[simp] theorem State.modInv_streams (f : Inventory → Inventory) (s : State) : (s.modInv f).streams = s.streams := rfl
@[simp] theorem State.modInv_mesh (f : Inventory → Inventory) (s : State) : (s.modInv f).mesh = s.mesh := rfl
@[simp] theorem State.modInv_eng (f : Inventory → Inventory) (s : State) : (s.modInv f).eng = s.eng := rfl
@[simp] theorem State.modInv_repro (f : Inventory → Inventory) (s : State) : (s.modInv f).repro = s.repro := rfl
@[simp] theorem State.modInv_cellar (f : Inventory → Inventory) (s : State) : (s.modInv f).cellar = s.cellar := rfl
@[simp] theorem State.modInv_pantry (f : Inventory → Inventory) (s : State) : (s.modInv f).pantry = s.pantry := rfl
@[simp] theorem State.modInv_ledg (f : Inventory → Inventory) (s : State) : (s.modInv f).ledg = s.ledg := rfl
@[simp] theorem State.modInv_inv (f : Inventory → Inventory) (s : State) : (s.modInv f).inv = f s.inv := rfl
@[simp] theorem State.modInv_link (f : Inventory → Inventory) (s : State) : (s.modInv f).link = s.link := rfl
@[simp] theorem State.modInv_cell (f : Inventory → Inventory) (s : State) : (s.modInv f).cell = s.cell := rfl
@[simp] theorem State.modInv_ras (f : Inventory → Inventory) (s : State) : (s.modInv f).ras = s.ras := rfl
@[simp] theorem State.modInv_plat (f : Inventory → Inventory) (s : State) : (s.modInv f).plat = s.plat := rfl
@[simp] theorem State.modInv_out (f : Inventory → Inventory) (s : State) : (s.modInv f).out = s.out := rfl
@[simp] theorem State.modInv_free (f : Inventory → Inventory) (s : State) : (s.modInv f).free = s.free := rfl

/-! ### State.modLink -/

@[simp] theorem State.modLink_pending (f : Link → Link) (s : State) : (s.modLink f).pending = s.pending := rfl
@[simp] theorem State.modLink_ident (f : Link → Link) (s : State) : (s.modLink f).ident = s.ident := rfl
@[simp] theorem State.modLink_clk (f : Link → Link) (s : State) : (s.modLink f).clk = s.clk := rfl
@[simp] theorem State.modLink_living (f : Link → Link) (s : State) : (s.modLink f).living = s.living := rfl
@[simp] theorem State.modLink_attic (f : Link → Link) (s : State) : (s.modLink f).attic = s.attic := rfl
@[simp] theorem State.modLink_txn (f : Link → Link) (s : State) : (s.modLink f).txn = s.txn := rfl
@[simp] theorem State.modLink_regs (f : Link → Link) (s : State) : (s.modLink f).regs = s.regs := rfl
@[simp] theorem State.modLink_bar2 (f : Link → Link) (s : State) : (s.modLink f).bar2 = s.bar2 := rfl
@[simp] theorem State.modLink_ten (f : Link → Link) (s : State) : (s.modLink f).ten = s.ten := rfl
@[simp] theorem State.modLink_qm (f : Link → Link) (s : State) : (s.modLink f).qm = s.qm := rfl
@[simp] theorem State.modLink_isl (f : Link → Link) (s : State) : (s.modLink f).isl = s.isl := rfl
@[simp] theorem State.modLink_tasks (f : Link → Link) (s : State) : (s.modLink f).tasks = s.tasks := rfl
@[simp] theorem State.modLink_streams (f : Link → Link) (s : State) : (s.modLink f).streams = s.streams := rfl
@[simp] theorem State.modLink_mesh (f : Link → Link) (s : State) : (s.modLink f).mesh = s.mesh := rfl
@[simp] theorem State.modLink_eng (f : Link → Link) (s : State) : (s.modLink f).eng = s.eng := rfl
@[simp] theorem State.modLink_repro (f : Link → Link) (s : State) : (s.modLink f).repro = s.repro := rfl
@[simp] theorem State.modLink_cellar (f : Link → Link) (s : State) : (s.modLink f).cellar = s.cellar := rfl
@[simp] theorem State.modLink_pantry (f : Link → Link) (s : State) : (s.modLink f).pantry = s.pantry := rfl
@[simp] theorem State.modLink_ledg (f : Link → Link) (s : State) : (s.modLink f).ledg = s.ledg := rfl
@[simp] theorem State.modLink_inv (f : Link → Link) (s : State) : (s.modLink f).inv = s.inv := rfl
@[simp] theorem State.modLink_link (f : Link → Link) (s : State) : (s.modLink f).link = f s.link := rfl
@[simp] theorem State.modLink_cell (f : Link → Link) (s : State) : (s.modLink f).cell = s.cell := rfl
@[simp] theorem State.modLink_ras (f : Link → Link) (s : State) : (s.modLink f).ras = s.ras := rfl
@[simp] theorem State.modLink_plat (f : Link → Link) (s : State) : (s.modLink f).plat = s.plat := rfl
@[simp] theorem State.modLink_out (f : Link → Link) (s : State) : (s.modLink f).out = s.out := rfl
@[simp] theorem State.modLink_free (f : Link → Link) (s : State) : (s.modLink f).free = s.free := rfl

/-! ### State.modCell -/

@[simp] theorem State.modCell_pending (f : Cell → Cell) (s : State) : (s.modCell f).pending = s.pending := rfl
@[simp] theorem State.modCell_ident (f : Cell → Cell) (s : State) : (s.modCell f).ident = s.ident := rfl
@[simp] theorem State.modCell_clk (f : Cell → Cell) (s : State) : (s.modCell f).clk = s.clk := rfl
@[simp] theorem State.modCell_living (f : Cell → Cell) (s : State) : (s.modCell f).living = s.living := rfl
@[simp] theorem State.modCell_attic (f : Cell → Cell) (s : State) : (s.modCell f).attic = s.attic := rfl
@[simp] theorem State.modCell_txn (f : Cell → Cell) (s : State) : (s.modCell f).txn = s.txn := rfl
@[simp] theorem State.modCell_regs (f : Cell → Cell) (s : State) : (s.modCell f).regs = s.regs := rfl
@[simp] theorem State.modCell_bar2 (f : Cell → Cell) (s : State) : (s.modCell f).bar2 = s.bar2 := rfl
@[simp] theorem State.modCell_ten (f : Cell → Cell) (s : State) : (s.modCell f).ten = s.ten := rfl
@[simp] theorem State.modCell_qm (f : Cell → Cell) (s : State) : (s.modCell f).qm = s.qm := rfl
@[simp] theorem State.modCell_isl (f : Cell → Cell) (s : State) : (s.modCell f).isl = s.isl := rfl
@[simp] theorem State.modCell_tasks (f : Cell → Cell) (s : State) : (s.modCell f).tasks = s.tasks := rfl
@[simp] theorem State.modCell_streams (f : Cell → Cell) (s : State) : (s.modCell f).streams = s.streams := rfl
@[simp] theorem State.modCell_mesh (f : Cell → Cell) (s : State) : (s.modCell f).mesh = s.mesh := rfl
@[simp] theorem State.modCell_eng (f : Cell → Cell) (s : State) : (s.modCell f).eng = s.eng := rfl
@[simp] theorem State.modCell_repro (f : Cell → Cell) (s : State) : (s.modCell f).repro = s.repro := rfl
@[simp] theorem State.modCell_cellar (f : Cell → Cell) (s : State) : (s.modCell f).cellar = s.cellar := rfl
@[simp] theorem State.modCell_pantry (f : Cell → Cell) (s : State) : (s.modCell f).pantry = s.pantry := rfl
@[simp] theorem State.modCell_ledg (f : Cell → Cell) (s : State) : (s.modCell f).ledg = s.ledg := rfl
@[simp] theorem State.modCell_inv (f : Cell → Cell) (s : State) : (s.modCell f).inv = s.inv := rfl
@[simp] theorem State.modCell_link (f : Cell → Cell) (s : State) : (s.modCell f).link = s.link := rfl
@[simp] theorem State.modCell_cell (f : Cell → Cell) (s : State) : (s.modCell f).cell = f s.cell := rfl
@[simp] theorem State.modCell_ras (f : Cell → Cell) (s : State) : (s.modCell f).ras = s.ras := rfl
@[simp] theorem State.modCell_plat (f : Cell → Cell) (s : State) : (s.modCell f).plat = s.plat := rfl
@[simp] theorem State.modCell_out (f : Cell → Cell) (s : State) : (s.modCell f).out = s.out := rfl
@[simp] theorem State.modCell_free (f : Cell → Cell) (s : State) : (s.modCell f).free = s.free := rfl

/-! ### State.modRas -/

@[simp] theorem State.modRas_pending (f : Ras → Ras) (s : State) : (s.modRas f).pending = s.pending := rfl
@[simp] theorem State.modRas_ident (f : Ras → Ras) (s : State) : (s.modRas f).ident = s.ident := rfl
@[simp] theorem State.modRas_clk (f : Ras → Ras) (s : State) : (s.modRas f).clk = s.clk := rfl
@[simp] theorem State.modRas_living (f : Ras → Ras) (s : State) : (s.modRas f).living = s.living := rfl
@[simp] theorem State.modRas_attic (f : Ras → Ras) (s : State) : (s.modRas f).attic = s.attic := rfl
@[simp] theorem State.modRas_txn (f : Ras → Ras) (s : State) : (s.modRas f).txn = s.txn := rfl
@[simp] theorem State.modRas_regs (f : Ras → Ras) (s : State) : (s.modRas f).regs = s.regs := rfl
@[simp] theorem State.modRas_bar2 (f : Ras → Ras) (s : State) : (s.modRas f).bar2 = s.bar2 := rfl
@[simp] theorem State.modRas_ten (f : Ras → Ras) (s : State) : (s.modRas f).ten = s.ten := rfl
@[simp] theorem State.modRas_qm (f : Ras → Ras) (s : State) : (s.modRas f).qm = s.qm := rfl
@[simp] theorem State.modRas_isl (f : Ras → Ras) (s : State) : (s.modRas f).isl = s.isl := rfl
@[simp] theorem State.modRas_tasks (f : Ras → Ras) (s : State) : (s.modRas f).tasks = s.tasks := rfl
@[simp] theorem State.modRas_streams (f : Ras → Ras) (s : State) : (s.modRas f).streams = s.streams := rfl
@[simp] theorem State.modRas_mesh (f : Ras → Ras) (s : State) : (s.modRas f).mesh = s.mesh := rfl
@[simp] theorem State.modRas_eng (f : Ras → Ras) (s : State) : (s.modRas f).eng = s.eng := rfl
@[simp] theorem State.modRas_repro (f : Ras → Ras) (s : State) : (s.modRas f).repro = s.repro := rfl
@[simp] theorem State.modRas_cellar (f : Ras → Ras) (s : State) : (s.modRas f).cellar = s.cellar := rfl
@[simp] theorem State.modRas_pantry (f : Ras → Ras) (s : State) : (s.modRas f).pantry = s.pantry := rfl
@[simp] theorem State.modRas_ledg (f : Ras → Ras) (s : State) : (s.modRas f).ledg = s.ledg := rfl
@[simp] theorem State.modRas_inv (f : Ras → Ras) (s : State) : (s.modRas f).inv = s.inv := rfl
@[simp] theorem State.modRas_link (f : Ras → Ras) (s : State) : (s.modRas f).link = s.link := rfl
@[simp] theorem State.modRas_cell (f : Ras → Ras) (s : State) : (s.modRas f).cell = s.cell := rfl
@[simp] theorem State.modRas_ras (f : Ras → Ras) (s : State) : (s.modRas f).ras = f s.ras := rfl
@[simp] theorem State.modRas_plat (f : Ras → Ras) (s : State) : (s.modRas f).plat = s.plat := rfl
@[simp] theorem State.modRas_out (f : Ras → Ras) (s : State) : (s.modRas f).out = s.out := rfl
@[simp] theorem State.modRas_free (f : Ras → Ras) (s : State) : (s.modRas f).free = s.free := rfl

/-! ### State.modPlat -/

@[simp] theorem State.modPlat_pending (f : Plat → Plat) (s : State) : (s.modPlat f).pending = s.pending := rfl
@[simp] theorem State.modPlat_ident (f : Plat → Plat) (s : State) : (s.modPlat f).ident = s.ident := rfl
@[simp] theorem State.modPlat_clk (f : Plat → Plat) (s : State) : (s.modPlat f).clk = s.clk := rfl
@[simp] theorem State.modPlat_living (f : Plat → Plat) (s : State) : (s.modPlat f).living = s.living := rfl
@[simp] theorem State.modPlat_attic (f : Plat → Plat) (s : State) : (s.modPlat f).attic = s.attic := rfl
@[simp] theorem State.modPlat_txn (f : Plat → Plat) (s : State) : (s.modPlat f).txn = s.txn := rfl
@[simp] theorem State.modPlat_regs (f : Plat → Plat) (s : State) : (s.modPlat f).regs = s.regs := rfl
@[simp] theorem State.modPlat_bar2 (f : Plat → Plat) (s : State) : (s.modPlat f).bar2 = s.bar2 := rfl
@[simp] theorem State.modPlat_ten (f : Plat → Plat) (s : State) : (s.modPlat f).ten = s.ten := rfl
@[simp] theorem State.modPlat_qm (f : Plat → Plat) (s : State) : (s.modPlat f).qm = s.qm := rfl
@[simp] theorem State.modPlat_isl (f : Plat → Plat) (s : State) : (s.modPlat f).isl = s.isl := rfl
@[simp] theorem State.modPlat_tasks (f : Plat → Plat) (s : State) : (s.modPlat f).tasks = s.tasks := rfl
@[simp] theorem State.modPlat_streams (f : Plat → Plat) (s : State) : (s.modPlat f).streams = s.streams := rfl
@[simp] theorem State.modPlat_mesh (f : Plat → Plat) (s : State) : (s.modPlat f).mesh = s.mesh := rfl
@[simp] theorem State.modPlat_eng (f : Plat → Plat) (s : State) : (s.modPlat f).eng = s.eng := rfl
@[simp] theorem State.modPlat_repro (f : Plat → Plat) (s : State) : (s.modPlat f).repro = s.repro := rfl
@[simp] theorem State.modPlat_cellar (f : Plat → Plat) (s : State) : (s.modPlat f).cellar = s.cellar := rfl
@[simp] theorem State.modPlat_pantry (f : Plat → Plat) (s : State) : (s.modPlat f).pantry = s.pantry := rfl
@[simp] theorem State.modPlat_ledg (f : Plat → Plat) (s : State) : (s.modPlat f).ledg = s.ledg := rfl
@[simp] theorem State.modPlat_inv (f : Plat → Plat) (s : State) : (s.modPlat f).inv = s.inv := rfl
@[simp] theorem State.modPlat_link (f : Plat → Plat) (s : State) : (s.modPlat f).link = s.link := rfl
@[simp] theorem State.modPlat_cell (f : Plat → Plat) (s : State) : (s.modPlat f).cell = s.cell := rfl
@[simp] theorem State.modPlat_ras (f : Plat → Plat) (s : State) : (s.modPlat f).ras = s.ras := rfl
@[simp] theorem State.modPlat_plat (f : Plat → Plat) (s : State) : (s.modPlat f).plat = f s.plat := rfl
@[simp] theorem State.modPlat_out (f : Plat → Plat) (s : State) : (s.modPlat f).out = s.out := rfl
@[simp] theorem State.modPlat_free (f : Plat → Plat) (s : State) : (s.modPlat f).free = s.free := rfl

/-! ### State.modOut -/

@[simp] theorem State.modOut_pending (f : Out → Out) (s : State) : (s.modOut f).pending = s.pending := rfl
@[simp] theorem State.modOut_ident (f : Out → Out) (s : State) : (s.modOut f).ident = s.ident := rfl
@[simp] theorem State.modOut_clk (f : Out → Out) (s : State) : (s.modOut f).clk = s.clk := rfl
@[simp] theorem State.modOut_living (f : Out → Out) (s : State) : (s.modOut f).living = s.living := rfl
@[simp] theorem State.modOut_attic (f : Out → Out) (s : State) : (s.modOut f).attic = s.attic := rfl
@[simp] theorem State.modOut_txn (f : Out → Out) (s : State) : (s.modOut f).txn = s.txn := rfl
@[simp] theorem State.modOut_regs (f : Out → Out) (s : State) : (s.modOut f).regs = s.regs := rfl
@[simp] theorem State.modOut_bar2 (f : Out → Out) (s : State) : (s.modOut f).bar2 = s.bar2 := rfl
@[simp] theorem State.modOut_ten (f : Out → Out) (s : State) : (s.modOut f).ten = s.ten := rfl
@[simp] theorem State.modOut_qm (f : Out → Out) (s : State) : (s.modOut f).qm = s.qm := rfl
@[simp] theorem State.modOut_isl (f : Out → Out) (s : State) : (s.modOut f).isl = s.isl := rfl
@[simp] theorem State.modOut_tasks (f : Out → Out) (s : State) : (s.modOut f).tasks = s.tasks := rfl
@[simp] theorem State.modOut_streams (f : Out → Out) (s : State) : (s.modOut f).streams = s.streams := rfl
@[simp] theorem State.modOut_mesh (f : Out → Out) (s : State) : (s.modOut f).mesh = s.mesh := rfl
@[simp] theorem State.modOut_eng (f : Out → Out) (s : State) : (s.modOut f).eng = s.eng := rfl
@[simp] theorem State.modOut_repro (f : Out → Out) (s : State) : (s.modOut f).repro = s.repro := rfl
@[simp] theorem State.modOut_cellar (f : Out → Out) (s : State) : (s.modOut f).cellar = s.cellar := rfl
@[simp] theorem State.modOut_pantry (f : Out → Out) (s : State) : (s.modOut f).pantry = s.pantry := rfl
@[simp] theorem State.modOut_ledg (f : Out → Out) (s : State) : (s.modOut f).ledg = s.ledg := rfl
@[simp] theorem State.modOut_inv (f : Out → Out) (s : State) : (s.modOut f).inv = s.inv := rfl
@[simp] theorem State.modOut_link (f : Out → Out) (s : State) : (s.modOut f).link = s.link := rfl
@[simp] theorem State.modOut_cell (f : Out → Out) (s : State) : (s.modOut f).cell = s.cell := rfl
@[simp] theorem State.modOut_ras (f : Out → Out) (s : State) : (s.modOut f).ras = s.ras := rfl
@[simp] theorem State.modOut_plat (f : Out → Out) (s : State) : (s.modOut f).plat = s.plat := rfl
@[simp] theorem State.modOut_out (f : Out → Out) (s : State) : (s.modOut f).out = f s.out := rfl
@[simp] theorem State.modOut_free (f : Out → Out) (s : State) : (s.modOut f).free = s.free := rfl

/-! ### State.withPending and State.draw -/

@[simp] theorem State.withPending_pending (s : State) (q : List Instr) : (s.withPending q).pending = q := rfl
@[simp] theorem State.withPending_ident (s : State) (q : List Instr) : (s.withPending q).ident = s.ident := rfl
@[simp] theorem State.withPending_clk (s : State) (q : List Instr) : (s.withPending q).clk = s.clk := rfl
@[simp] theorem State.withPending_living (s : State) (q : List Instr) : (s.withPending q).living = s.living := rfl
@[simp] theorem State.withPending_attic (s : State) (q : List Instr) : (s.withPending q).attic = s.attic := rfl
@[simp] theorem State.withPending_txn (s : State) (q : List Instr) : (s.withPending q).txn = s.txn := rfl
@[simp] theorem State.withPending_regs (s : State) (q : List Instr) : (s.withPending q).regs = s.regs := rfl
@[simp] theorem State.withPending_bar2 (s : State) (q : List Instr) : (s.withPending q).bar2 = s.bar2 := rfl
@[simp] theorem State.withPending_ten (s : State) (q : List Instr) : (s.withPending q).ten = s.ten := rfl
@[simp] theorem State.withPending_qm (s : State) (q : List Instr) : (s.withPending q).qm = s.qm := rfl
@[simp] theorem State.withPending_isl (s : State) (q : List Instr) : (s.withPending q).isl = s.isl := rfl
@[simp] theorem State.withPending_tasks (s : State) (q : List Instr) : (s.withPending q).tasks = s.tasks := rfl
@[simp] theorem State.withPending_streams (s : State) (q : List Instr) : (s.withPending q).streams = s.streams := rfl
@[simp] theorem State.withPending_mesh (s : State) (q : List Instr) : (s.withPending q).mesh = s.mesh := rfl
@[simp] theorem State.withPending_eng (s : State) (q : List Instr) : (s.withPending q).eng = s.eng := rfl
@[simp] theorem State.withPending_repro (s : State) (q : List Instr) : (s.withPending q).repro = s.repro := rfl
@[simp] theorem State.withPending_cellar (s : State) (q : List Instr) : (s.withPending q).cellar = s.cellar := rfl
@[simp] theorem State.withPending_pantry (s : State) (q : List Instr) : (s.withPending q).pantry = s.pantry := rfl
@[simp] theorem State.withPending_ledg (s : State) (q : List Instr) : (s.withPending q).ledg = s.ledg := rfl
@[simp] theorem State.withPending_inv (s : State) (q : List Instr) : (s.withPending q).inv = s.inv := rfl
@[simp] theorem State.withPending_link (s : State) (q : List Instr) : (s.withPending q).link = s.link := rfl
@[simp] theorem State.withPending_cell (s : State) (q : List Instr) : (s.withPending q).cell = s.cell := rfl
@[simp] theorem State.withPending_ras (s : State) (q : List Instr) : (s.withPending q).ras = s.ras := rfl
@[simp] theorem State.withPending_plat (s : State) (q : List Instr) : (s.withPending q).plat = s.plat := rfl
@[simp] theorem State.withPending_out (s : State) (q : List Instr) : (s.withPending q).out = s.out := rfl
@[simp] theorem State.withPending_free (s : State) (q : List Instr) : (s.withPending q).free = s.free := rfl

@[simp] theorem State.draw_pending (s : State) : (s.draw).2.pending = s.pending := rfl
@[simp] theorem State.draw_ident (s : State) : (s.draw).2.ident = s.ident := rfl
@[simp] theorem State.draw_clk (s : State) : (s.draw).2.clk = s.clk := rfl
@[simp] theorem State.draw_living (s : State) : (s.draw).2.living = s.living := rfl
@[simp] theorem State.draw_attic (s : State) : (s.draw).2.attic = s.attic := rfl
@[simp] theorem State.draw_txn (s : State) : (s.draw).2.txn = s.txn := rfl
@[simp] theorem State.draw_regs (s : State) : (s.draw).2.regs = s.regs := rfl
@[simp] theorem State.draw_bar2 (s : State) : (s.draw).2.bar2 = s.bar2 := rfl
@[simp] theorem State.draw_ten (s : State) : (s.draw).2.ten = s.ten := rfl
@[simp] theorem State.draw_qm (s : State) : (s.draw).2.qm = s.qm := rfl
@[simp] theorem State.draw_isl (s : State) : (s.draw).2.isl = s.isl := rfl
@[simp] theorem State.draw_tasks (s : State) : (s.draw).2.tasks = s.tasks := rfl
@[simp] theorem State.draw_streams (s : State) : (s.draw).2.streams = s.streams := rfl
@[simp] theorem State.draw_mesh (s : State) : (s.draw).2.mesh = s.mesh := rfl
@[simp] theorem State.draw_eng (s : State) : (s.draw).2.eng = s.eng := rfl
@[simp] theorem State.draw_repro (s : State) : (s.draw).2.repro = s.repro := rfl
@[simp] theorem State.draw_cellar (s : State) : (s.draw).2.cellar = s.cellar := rfl
@[simp] theorem State.draw_pantry (s : State) : (s.draw).2.pantry = s.pantry := rfl
@[simp] theorem State.draw_ledg (s : State) : (s.draw).2.ledg = s.ledg := rfl
@[simp] theorem State.draw_inv (s : State) : (s.draw).2.inv = s.inv := rfl
@[simp] theorem State.draw_link (s : State) : (s.draw).2.link = s.link := rfl
@[simp] theorem State.draw_cell (s : State) : (s.draw).2.cell = s.cell := rfl
@[simp] theorem State.draw_ras (s : State) : (s.draw).2.ras = s.ras := rfl
@[simp] theorem State.draw_plat (s : State) : (s.draw).2.plat = s.plat := rfl
@[simp] theorem State.draw_out (s : State) : (s.draw).2.out = s.out := rfl
@[simp] theorem State.draw_free (s : State) : (s.draw).2.free = s.free + 1 := rfl
@[simp] theorem State.draw_value (s : State) : (s.draw).1 = Config.freeValue s.free := rfl

/-! ### State.modStream -/

@[simp] theorem State.modStream_pending (key : Nat) (f : List (Bytes × Bool) → List (Bytes × Bool)) (s : State) :
    (s.modStream key f).pending = s.pending := rfl
@[simp] theorem State.modStream_ident (key : Nat) (f : List (Bytes × Bool) → List (Bytes × Bool)) (s : State) :
    (s.modStream key f).ident = s.ident := rfl
@[simp] theorem State.modStream_clk (key : Nat) (f : List (Bytes × Bool) → List (Bytes × Bool)) (s : State) :
    (s.modStream key f).clk = s.clk := rfl
@[simp] theorem State.modStream_living (key : Nat) (f : List (Bytes × Bool) → List (Bytes × Bool)) (s : State) :
    (s.modStream key f).living = s.living := rfl
@[simp] theorem State.modStream_attic (key : Nat) (f : List (Bytes × Bool) → List (Bytes × Bool)) (s : State) :
    (s.modStream key f).attic = s.attic := rfl
@[simp] theorem State.modStream_txn (key : Nat) (f : List (Bytes × Bool) → List (Bytes × Bool)) (s : State) :
    (s.modStream key f).txn = s.txn := rfl
@[simp] theorem State.modStream_regs (key : Nat) (f : List (Bytes × Bool) → List (Bytes × Bool)) (s : State) :
    (s.modStream key f).regs = s.regs := rfl
@[simp] theorem State.modStream_bar2 (key : Nat) (f : List (Bytes × Bool) → List (Bytes × Bool)) (s : State) :
    (s.modStream key f).bar2 = s.bar2 := rfl
@[simp] theorem State.modStream_ten (key : Nat) (f : List (Bytes × Bool) → List (Bytes × Bool)) (s : State) :
    (s.modStream key f).ten = s.ten := rfl
@[simp] theorem State.modStream_qm (key : Nat) (f : List (Bytes × Bool) → List (Bytes × Bool)) (s : State) :
    (s.modStream key f).qm = s.qm := rfl
@[simp] theorem State.modStream_isl (key : Nat) (f : List (Bytes × Bool) → List (Bytes × Bool)) (s : State) :
    (s.modStream key f).isl = s.isl := rfl
@[simp] theorem State.modStream_tasks (key : Nat) (f : List (Bytes × Bool) → List (Bytes × Bool)) (s : State) :
    (s.modStream key f).tasks = s.tasks := rfl
@[simp] theorem State.modStream_streams (key : Nat) (f : List (Bytes × Bool) → List (Bytes × Bool)) (s : State) :
    (s.modStream key f).streams = NMap.upd s.streams key [] f := rfl
@[simp] theorem State.modStream_mesh (key : Nat) (f : List (Bytes × Bool) → List (Bytes × Bool)) (s : State) :
    (s.modStream key f).mesh = s.mesh := rfl
@[simp] theorem State.modStream_eng (key : Nat) (f : List (Bytes × Bool) → List (Bytes × Bool)) (s : State) :
    (s.modStream key f).eng = s.eng := rfl
@[simp] theorem State.modStream_repro (key : Nat) (f : List (Bytes × Bool) → List (Bytes × Bool)) (s : State) :
    (s.modStream key f).repro = s.repro := rfl
@[simp] theorem State.modStream_cellar (key : Nat) (f : List (Bytes × Bool) → List (Bytes × Bool)) (s : State) :
    (s.modStream key f).cellar = s.cellar := rfl
@[simp] theorem State.modStream_pantry (key : Nat) (f : List (Bytes × Bool) → List (Bytes × Bool)) (s : State) :
    (s.modStream key f).pantry = s.pantry := rfl
@[simp] theorem State.modStream_ledg (key : Nat) (f : List (Bytes × Bool) → List (Bytes × Bool)) (s : State) :
    (s.modStream key f).ledg = s.ledg := rfl
@[simp] theorem State.modStream_inv (key : Nat) (f : List (Bytes × Bool) → List (Bytes × Bool)) (s : State) :
    (s.modStream key f).inv = s.inv := rfl
@[simp] theorem State.modStream_link (key : Nat) (f : List (Bytes × Bool) → List (Bytes × Bool)) (s : State) :
    (s.modStream key f).link = s.link := rfl
@[simp] theorem State.modStream_cell (key : Nat) (f : List (Bytes × Bool) → List (Bytes × Bool)) (s : State) :
    (s.modStream key f).cell = s.cell := rfl
@[simp] theorem State.modStream_ras (key : Nat) (f : List (Bytes × Bool) → List (Bytes × Bool)) (s : State) :
    (s.modStream key f).ras = s.ras := rfl
@[simp] theorem State.modStream_plat (key : Nat) (f : List (Bytes × Bool) → List (Bytes × Bool)) (s : State) :
    (s.modStream key f).plat = s.plat := rfl
@[simp] theorem State.modStream_out (key : Nat) (f : List (Bytes × Bool) → List (Bytes × Bool)) (s : State) :
    (s.modStream key f).out = s.out := rfl
@[simp] theorem State.modStream_free (key : Nat) (f : List (Bytes × Bool) → List (Bytes × Bool)) (s : State) :
    (s.modStream key f).free = s.free := rfl

/-! ### One of many, after an update of one -/

@[simp] theorem State.island_modIsl (s : State) (n m : Nat) (f : Isl → Isl) :
    (s.modIsl n f).island m = if n = m then f (s.island n) else s.island m := by
  simp [State.island, State.modIsl]

@[simp] theorem State.room_modRoom (s : State) (n m : Nat) (f : RoomRt → RoomRt) :
    (s.modRoom n f).room m = if n = m then f (s.room n) else s.room m := by
  simp [State.room, State.modRoom]

@[simp] theorem State.tenant_modTen (s : State) (n m : Nat) (f : TenRt → TenRt) :
    (s.modTen n f).tenant m = if n = m then f (s.tenant n) else s.tenant m := by
  simp [State.tenant, State.modTen]

@[simp] theorem State.queue_modQueue (s : State) (n m : Nat) (f : Queue → Queue) :
    (s.modQueue n f).queue m = if n = m then f (s.queue n) else s.queue m := by
  simp [State.queue, State.modQueue]

@[simp] theorem State.ring_modRing (s : State) (n m : Nat) (f : CRing → CRing) :
    (s.modRing n f).ring m = if n = m then f (s.ring n) else s.ring m := by
  simp [State.ring, State.modRing]

@[simp] theorem State.fnq_modFnq (s : State) (n m : Nat) (f : FnQ → FnQ) :
    (s.modFnq n f).fnq m = if n = m then f (s.fnq n) else s.fnq m := by
  simp [State.fnq, State.modFnq]

@[simp] theorem State.clkIsl_modClkIsl (s : State) (n m : Nat) (f : ClkIsl → ClkIsl) :
    (s.modClkIsl n f).clkIsl m = if n = m then f (s.clkIsl n) else s.clkIsl m := by
  simp [State.clkIsl, State.modClkIsl]

@[simp] theorem State.port_modPort (s : State) (n m : Nat) (f : LPort → LPort) :
    (s.modPort n f).port m = if n = m then f (s.port n) else s.port m := by
  simp [State.port, State.modPort]

@[simp] theorem State.unit_modUnit (s : State) (n m : Nat) (f : UnitRt → UnitRt) :
    (s.modUnit n f).unit m = if n = m then f (s.unit n) else s.unit m := by
  simp [State.unit, State.modUnit]

@[simp] theorem State.rceRt_modRce (s : State) (n m : Nat) (f : RceRt → RceRt) :
    (s.modRce n f).rceRt m = if n = m then f (s.rceRt n) else s.rceRt m := by
  simp [State.rceRt, State.modRce]

@[simp] theorem State.eleRt_modEle (s : State) (n m : Nat) (f : EleRt → EleRt) :
    (s.modEle n f).eleRt m = if n = m then f (s.eleRt n) else s.eleRt m := by
  simp [State.eleRt, State.modEle]

@[simp] theorem State.pwin_modPwin (s : State) (n m : Nat) (f : PWin → PWin) :
    (s.modPwin n f).pwin m = if n = m then f (s.pwin n) else s.pwin m := by
  simp [State.pwin, State.modPwin]

@[simp] theorem State.spanRt_modSpan (s : State) (n m : Nat) (f : SpanRt → SpanRt) :
    (s.modSpan n f).spanRt m = if n = m then f (s.spanRt n) else s.spanRt m := by
  simp [State.spanRt, State.modSpan]

@[simp] theorem State.cctl_modCctl (s : State) (n m : Nat) (f : CellarCtl → CellarCtl) :
    (s.modCctl n f).cctl m = if n = m then f (s.cctl n) else s.cctl m := by
  simp [State.cctl, State.modCctl]

@[simp] theorem State.slot_modSlot (s : State) (n k m j : Nat) (f : Slot → Slot) :
    (s.modSlot n k f).slot m j = if n = m ∧ k = j then f (s.slot n k) else s.slot m j := by
  simp only [State.slot, State.modSlot, State.island_modIsl]
  by_cases h : n = m
  · subst h; simp
  · simp [h]

@[simp] theorem State.reg_setReg (s : State) (o p : Nat) (v d : Word) :
    (s.setReg o v).reg p d = if o = p then v else s.reg p d := by
  simp [State.reg, State.setReg]

@[simp] theorem State.b2_setB2 (s : State) (fn o gn p : Nat) (v : Word) :
    (s.setB2 fn o v).b2 gn p = if fn = gn ∧ o = p then v else s.b2 gn p := by
  simp only [State.b2, State.setB2, State.setBar2_bar2, NMap.getD_upd]
  by_cases h : fn = gn
  · subst h; simp
  · simp [h]

end Sys2Proof.Machine
end

