-- ==== Sys2Proof/Laws/Ops.lean ====
section
/-! SUPPORT. What each shared operation can do, said once: committing an instruction, acting on the running slot, taking a
handler-group exception, raising an event, storing to a Shelf and the Cellar, completing a DMA tag, sticking flags. -/

namespace Sys2Proof.Machine

open Sys2Proof

-- The theorems of this file are checked one after another, which bounds the memory that a check takes.
set_option Elab.async false

/-! ### The state after reset -/

theorem reset_pending : State.reset.pending = [] := rfl

/-- Every memory of the state after reset lists nothing, which is the canonical form. -/
theorem reset_memory_wf : Mem.wf State.reset.cellar.store.mem = true ∧ ∀ n, Mem.wf (State.reset.island n).shelf.mem = true ∧
    ∀ c, Mem.wf ((State.reset.island n).crate c).mem = true :=
  ⟨rfl, fun _ => ⟨rfl, fun _ => rfl⟩⟩

/-! ### Registers and the running slot -/

@[simp] theorem Slot.getReg_zero (x : Slot) : x.getReg 0 = 0 := rfl

@[simp] theorem Slot.setReg_zero (x : Slot) (v : Word) : x.setReg 0 v = x := rfl

/-- Writing a register and moving the pc commute. -/
theorem Slot.setReg_withPc (x : Slot) (r : Nat) (v : Word) (p : Nat) :
    ({ x with pc := p } : Slot).setReg r v = { x.setReg r v with pc := p } := by
  unfold Slot.setReg; split <;> rfl

theorem Slot.setReg_pc (x : Slot) (r : Nat) (v : Word) : (x.setReg r v).pc = x.pc := by unfold Slot.setReg; split <;> rfl
theorem Slot.setReg_evec (x : Slot) (r : Nat) (v : Word) : (x.setReg r v).evec = x.evec := by unfold Slot.setReg; split <;> rfl
theorem Slot.setReg_task (x : Slot) (r : Nat) (v : Word) : (x.setReg r v).task = x.task := by unfold Slot.setReg; split <;> rfl
theorem Slot.setReg_tags (x : Slot) (r : Nat) (v : Word) : (x.setReg r v).tags = x.tags := by unfold Slot.setReg; split <;> rfl

/-- On an island whose slot `k` runs at a pc it may fetch from, an instruction is its own effect on that slot. -/
theorem State.onSteward_runs {s : State} {n k : Nat} (h : s.runsAt n k) (f : Nat → State → State) : s.onSteward n f = f k s := by
  simp [State.onSteward, h.1, h.2]

/-- On an island that runs no slot, an instruction does nothing. -/
theorem State.onSteward_idle {s : State} {n : Nat} (h : s.runningSlot n = none) (f : Nat → State → State) : s.onSteward n f = s := by
  simp [State.onSteward, h]

/-- Committing an instruction changes the slot as `f` says from 4 bytes further, counts it, and nothing else. -/
theorem State.retire_commits (s : State) (n k : Nat) (f : Slot → Slot) :
    s.commits n k (f { s.slot n k with pc := (s.slot n k).pc + 4 }) (s.retire n k f) := by
  refine ⟨?_, ?_, ⟨?_, ?_⟩, ?_, ?_⟩
  · simp [State.slot, State.retire]
  · simp [State.retire, wrap1]
  · rfl
  · intro m hm; simp [State.retire, Ne.symm hm]
  · simp [State.retire]
  · intro j hj; simp [State.slot, State.retire, Ne.symm hj]

/-- An instruction that only writes a register commits with that register written. -/
theorem State.aluOp_commits {s : State} {n k : Nat} (h : s.runsAt n k) (rd : Reg) (v : Nat → State → Word) :
    s.commits n k ((s.slot n k).after rd (v k s)) (s.aluOp n rd v) := by
  simp only [State.aluOp, State.onSteward_runs h]
  have := State.retire_commits s n k (fun x => x.setReg rd.val (v k s))
  simpa only [Slot.setReg_withPc, Slot.after] using this

/-! ### Stores -/

theorem mem_filter_not_inWhole (n a len x : Nat) (l : List Nat) :
    x ∈ l.filter (fun u => !inWhole n a len u) ↔ x ∈ l ∧ ¬(a ≤ x ∧ x + n ≤ a + len) := by
  simp only [inWhole, List.mem_filter, Bool.not_eq_true', Bool.and_eq_false_iff, decide_eq_false_iff_not, not_and_or]

/-- A clean write holds its data, leaves every other byte, and cleans exactly the units it rewrites whole. -/
theorem Store.write_stored (u a : Nat) (d : Bytes) (st : Store) : Store.stored u a d st (st.write u a d) :=
  ⟨⟨Mem.read_write_self st.mem a d, fun b h => Mem.byte_write_outside st.mem a d b h⟩,
    fun x => mem_filter_not_inWhole u a d.length x st.poison⟩

theorem mem_insN (k x : Nat) (l : List Nat) : x ∈ insN k l ↔ x = k ∨ x ∈ l := by
  induction l with
  | nil => simp [insN]
  | cons y r ih =>
    unfold insN
    split
    · simp
    · split
      · rename_i h; subst h; simp
      · simp only [List.mem_cons, ih]; tauto

theorem mem_insAll (ks l : List Nat) (x : Nat) : x ∈ insAll ks l ↔ x ∈ ks ∨ x ∈ l := by
  unfold insAll
  induction ks generalizing l with
  | nil => simp
  | cons k r ih => simp only [List.foldl_cons, ih, mem_insN, List.mem_cons]; tauto

/-- Data that carry poison land with every unit a poisoned part touches poisoned. -/
theorem Store.land_landed (u a : Nat) (d : Bytes) (bad : List (Nat × Nat)) (st : Store) :
    Store.landed u a d bad st (st.land u a d bad) := by
  refine ⟨(Store.write_stored u a d st).1, fun x => ?_⟩
  have h := (Store.write_stored u a d st).2 x
  simp only [Store.land, Store.mark, mem_insAll, List.mem_flatMap, h, or_comm]

/-- Counting Cellar lines leaves the Cellar's bytes and poison, and everything outside the Cellar. -/
theorem State.countLines_store (wr : Bool) (a len : Nat) (s : State) :
    (s.countLines wr a len).cellar.store = s.cellar.store ∧ { s.countLines wr a len with cellar := s.cellar } = s := by
  unfold State.countLines
  generalize unitsOf 64 a len = us
  induction us generalizing s with
  | nil => exact ⟨rfl, rfl⟩
  | cons u r ih => exact ⟨(ih _).1, (congrArg (fun x : State => { x with cellar := s.cellar }) (ih _).2)⟩

/-- A Cellar write stores its data, cleans the lines it rewrites whole, and changes nothing outside the Cellar. -/
theorem State.cellarWrite_stored (a : Nat) (d : Bytes) (s : State) :
    Store.stored lineB a d s.cellar.store (s.cellarWrite a d).cellar.store ∧ { s.cellarWrite a d with cellar := s.cellar } = s := by
  obtain ⟨h1, h2⟩ := State.countLines_store true a d.length (s.modStore (fun st => st.write lineB a d))
  refine ⟨?_, congrArg (fun x : State => { x with cellar := s.cellar }) h2⟩
  unfold State.cellarWrite
  rw [h1]
  exact Store.write_stored lineB a d s.cellar.store

/-! ### Events -/

/-- Staging an event changes the Ledger only, and there neither the ring, its head nor its size. -/
theorem State.stageEvent_only (e : Event) (s : State) :
    { s.stageEvent e with ledg := s.ledg } = s ∧ (s.stageEvent e).clk = s.clk ∧ (s.stageEvent e).ledg.next = s.ledg.next
      ∧ (s.stageEvent e).ledg.head = s.ledg.head ∧ (s.stageEvent e).ledg.log2 = s.ledg.log2 := by
  unfold State.stageEvent; dsimp only
  split <;> exact ⟨rfl, rfl, rfl, rfl, rfl⟩

/-- Raising an event changes the Ledger's staging and the time stamps only. -/
theorem State.emit_only (src cls code ten sev : Nat) (words : List Nat) (s : State) :
    { s.emit src cls code ten sev words with clk := s.clk, ledg := s.ledg } = s :=
  congrArg (fun x : State => { x with clk := s.clk }) (State.stageEvent_only _ _).1

/-- Raising an event moves no clock: only the last stamp of its source changes. -/
theorem State.emit_clk (src cls code ten sev : Nat) (words : List Nat) (s : State) :
    (s.emit src cls code ten sev words).clk = { s.clk with stamps := NMap.set s.clk.stamps src (s.stamp src) } :=
  (State.stageEvent_only _ _).2.1

/-- A source's stamps rise strictly (R36). -/
theorem State.stamp_rises (s : State) (src p : Nat) (h : NMap.find? s.clk.stamps src = some p) : p < s.stamp src := by
  simp only [State.stamp, h]; omega

/-- An event is taken into staging, or counted as a loss; the ring, its head and its size stay as they are. -/
theorem State.emit_ring (src cls code ten sev : Nat) (words : List Nat) (s : State) :
    (s.emit src cls code ten sev words).ledg.next = s.ledg.next ∧ (s.emit src cls code ten sev words).ledg.head = s.ledg.head
      ∧ (s.emit src cls code ten sev words).ledg.log2 = s.ledg.log2 :=
  (State.stageEvent_only _ _).2.2

/-! ### Tags, flags and tasks -/

/-- Completing a tag completes that tag only. -/
theorem State.finishTag_completes (s : State) (n k g : Nat) (err : Bool) : s.tagCompletes n k g err (s.finishTag n k g err) := by
  have hs : ∀ j, (s.finishTag n k g err).slot n j = if j = k then (match NMap.find? (s.slot n k).tags g with
      | some d => { s.slot n k with tags := NMap.set (s.slot n k).tags g { d with done := true, err := err && !d.drop, held := none } }
      | none => s.slot n k) else s.slot n j := by
    intro j
    unfold State.finishTag State.modTag
    rw [State.slot_modSlot]
    by_cases h : j = k
    · subst h; cases NMap.find? (s.slot n j).tags g <;> simp
    · simp [h, Ne.symm h]
  refine ⟨fun d hd => ?_, fun j hj => ?_, ?_, fun j hj => ?_⟩
  · unfold State.tag? at hd ⊢
    rw [hs, if_pos rfl, hd]; simp
  · unfold State.tag?
    rw [hs, if_pos rfl]
    split
    · simp [Ne.symm hj]
    · rfl
  · rw [hs, if_pos rfl]; split <;> rfl
  · rw [hs, if_neg hj]

/-- Looking up a tag of the slot after an update of one. -/
theorem State.tag?_modTag (s : State) (n k g j : Nat) (f : Dma → Dma) :
    (s.modTag n k g f).tag? n k j = if j = g then (s.tag? n k g).map f else s.tag? n k j := by
  simp only [State.modTag, State.tag?, State.slot_modSlot]
  cases hf : NMap.find? (s.slot n k).tags g with
  | none =>
    by_cases h : j = g
    · subst h; simp [hf]
    · simp [h]
  | some d =>
    by_cases h : j = g
    · simp [h]
    · simp [h, Ne.symm h]

/-- Serving a request with a packet changes the islands only, and there only an outstanding request that the packet serves. -/
theorem State.meshServe_serves (p : MeshPacket) (f : MeshReq → Dma → Dma) (s : State) :
    { s.meshServe p f with isl := s.isl } = s
      ∧ (∀ r d, p.req = some r → s.meshTag r = true → s.tag? r.isl r.slot r.tag = some d →
          (s.meshServe p f).tag? r.isl r.slot r.tag = some (f r d))
      ∧ ((p.req = none ∨ ∀ r, p.req = some r → s.meshTag r = false) → s.meshServe p f = s) := by
  refine ⟨?_, fun r d hr hm hd => ?_, fun h => ?_⟩
  · unfold State.meshServe
    split
    · split <;> rfl
    · rfl
  · simp [State.meshServe, hr, hm, State.tag?_modTag, hd]
  · unfold State.meshServe
    split
    · rename_i r hr
      have : s.meshTag r = false := h.elim (fun h => by rw [h] at hr; cases hr) (fun h => h r hr)
      simp [this]
    · rfl

/-- Serving a request with a packet and raising an event changes the islands and the Ledger only. -/
theorem State.meshServe_emit_only (p : MeshPacket) (f : MeshReq → Dma → Dma) (src cls code ten sev : Nat) (ws : List Nat) (s : State) :
    { (s.meshServe p f).emit src cls code ten sev ws with isl := s.isl, ledg := s.ledg, clk := s.clk } = s := by
  have h := (State.meshServe_serves p f s).1
  have he := State.emit_only src cls code ten sev ws (s.meshServe p f)
  have hc : (s.meshServe p f).clk = s.clk := by have := congrArg State.clk h; exact this
  have hl : (s.meshServe p f).ledg = s.ledg := by have := congrArg State.ledg h; exact this
  rw [hc, hl] at he
  generalize (s.meshServe p f).emit src cls code ten sev ws = e at he
  exact (congrArg (fun x : State => { x with isl := s.isl }) he).trans h

/-- A packet of the mesh changes the flows, the request it serves and the Ledger only. -/
theorem State.meshArrive_only (p : MeshPacket) (s : State) :
    { s.meshArrive p with mesh := s.mesh, isl := s.isl, ledg := s.ledg, clk := s.clk } = s := by
  have key : ∀ (g : Mesh → Mesh) (f : MeshReq → Dma → Dma) (src cls code ten sev : Nat) (ws : List Nat),
      { ((s.modMesh g).meshServe p f).emit src cls code ten sev ws with mesh := s.mesh, isl := s.isl, ledg := s.ledg, clk := s.clk } = s := by
    intro g f src cls code ten sev ws
    have he := State.meshServe_emit_only p f src cls code ten sev ws (s.modMesh g)
    generalize ((s.modMesh g).meshServe p f).emit src cls code ten sev ws = e at he ⊢
    exact congrArg (fun x : State => { x with mesh := s.mesh }) he
  suffices h : ∀ e, e = s.meshArrive p → { e with mesh := s.mesh, isl := s.isl, ledg := s.ledg, clk := s.clk } = s from h _ rfl
  intro e he
  unfold State.meshArrive at he
  dsimp only at he
  split at he
  · rw [he]
  · split at he
    · rw [he]; exact key ..
    · split at he
      · rw [he]; rfl
      · rw [he]; exact key ..

/-- Looking up a live task after an update of one. -/
theorem State.task?_modTask (s : State) (t j : Nat) (f : Task → Task) :
    (s.modTask t f).task? j = if j = t then (s.task? t).map f else s.task? j := by
  unfold State.modTask State.task?
  cases hf : NMap.find? s.tasks.live t with
  | none => by_cases h : j = t <;> simp [h, hf]
  | some v =>
    by_cases h : j = t
    · simp [h, hf]
    · simp [h, Ne.symm h, hf]

/-- Updating a task changes the tasks only. -/
theorem State.modTask_only (s : State) (t : Nat) (f : Task → Task) : { s.modTask t f with tasks := s.tasks } = s := rfl

/-- Sticking flags leaves everything outside the islands and the tasks. -/
theorem State.stickFlags_only (n k : Nat) (w : Word) (s : State) :
    { s.stickFlags n k w with isl := s.isl, tasks := s.tasks } = s := rfl

/-- The flags stick in the slot and in the island's register. -/
theorem State.stickFlags_slot (n k : Nat) (w : Word) (s : State) :
    (s.stickFlags n k w).slot n k = { s.slot n k with nflags := (s.slot n k).nflags ||| w }
      ∧ ((s.stickFlags n k w).island n).nflags = (s.island n).nflags ||| w := by
  have h : ∀ (x : State) (t : Nat) (f : Task → Task), (x.modTask t f).isl = x.isl := fun _ _ _ => rfl
  constructor <;> simp [State.stickFlags, State.slot, State.island, State.modSlot, State.modIsl, h]

/-! ### Exceptions -/

/-- The checks of R149 answer 0 exactly where the slot in `handles` has a valid sp: the entry of R148 is then taken. -/
theorem State.raise_enters {s : State} {n k : Nat} (hh : (s.slot n k).inHandler = false) (he : (s.slot n k).evec ≠ 0)
    (hr : s.spReason n k = 0) (code epc tval : Nat) :
    (s.raise n k code epc tval).slot n k =
        { (s.slot n k).setReg 30 ((s.slot n k).getReg 30 - 64) with inHandler := true, pc := (s.slot n k).evec.toNat }
      ∧ ((s.raise n k code epc tval).island n).shelf
          = (s.island n).shelf.write wordB ((s.slot n k).getReg 30 - 64).toNat ((s.frameOf n k code epc tval).flatMap (le 8))
      ∧ ((s.raise n k code epc tval).island n).excHandled = ((s.island n).excHandled + 1) % 2 ^ 32
      ∧ s.onlyIsl n (s.raise n k code epc tval) := by
  have e : s.raise n k code epc tval = (s.modShelf n (fun st => st.write wordB ((s.slot n k).getReg 30 - 64).toNat
      ((s.frameOf n k code epc tval).flatMap (le 8)))).modIsl n (fun i =>
        { i with excHandled := wrap1 32 i.excHandled
                 slots := NMap.upd i.slots k .reset (fun x =>
                   { x.setReg 30 ((s.slot n k).getReg 30 - 64) with inHandler := true, pc := x.evec.toNat }) }) := by
    simp only [State.raise, hh, he, hr, Bool.false_eq_true, if_false, if_true]
  rw [e]
  refine ⟨?_, ?_, ?_, rfl, fun m hm => ?_⟩
  · simp [State.slot, State.modShelf]
  · simp [State.modShelf]
  · simp [State.modShelf, wrap1]
  · simp [State.modShelf, Ne.symm hm]

/-- An exception within the handler, or with no handler, leaves the handler's entry count (R149, R150). -/
theorem State.raise_inHandler {s : State} {n k : Nat} (h : (s.slot n k).inHandler = true) (code epc tval : Nat) :
    s.raise n k code epc tval
      = ((s.faultFrame n k code epc tval 0 0x13).countEnded n).slotFault n k 0x2D (code + n * 256 + 2 ^ 14) := by
  simp [State.raise, h]

theorem State.raise_noHandler {s : State} {n k : Nat} (h : (s.slot n k).inHandler = false) (he : (s.slot n k).evec = 0)
    (code epc tval : Nat) :
    s.raise n k code epc tval
      = ((s.faultFrame n k code epc tval 0 0x14).countEnded n).slotFault n k 0x2D (code + n * 256 + 2 ^ 15) := by
  simp [State.raise, h, he]

/-! ### Ending work: what a stop, an end or a fault of a slot can change -/

/-- Only the islands, the tasks, the shared engines, the Ledger, the time stamps and the count of free values drawn may differ. -/
def State.onlyWork (s t : State) : Prop :=
  { t with isl := s.isl, tasks := s.tasks, eng := s.eng, ledg := s.ledg, clk := s.clk, free := s.free } = s

theorem State.onlyWork_refl (s : State) : s.onlyWork s := rfl

theorem State.onlyWork_trans {s t u : State} (h : s.onlyWork t) (g : t.onlyWork u) : s.onlyWork u := by
  have h' := congrArg (fun x : State =>
    { x with isl := s.isl, tasks := s.tasks, eng := s.eng, ledg := s.ledg, clk := s.clk, free := s.free }) g
  exact h'.trans h

/-- A fold of effects that change only the work changes only the work. -/
theorem State.onlyWork_foldl {α : Type} (f : State → α → State) (h : ∀ (s : State) x, s.onlyWork (f s x)) (l : List α) (s : State) :
    s.onlyWork (l.foldl f s) := by
  induction l generalizing s with
  | nil => exact rfl
  | cons x r ih => exact State.onlyWork_trans (h s x) (ih _)

theorem State.onlyWork_modIsl (n : Nat) (f : Isl → Isl) (s : State) : s.onlyWork (s.modIsl n f) := rfl
theorem State.onlyWork_setStatus (tid status detail : Nat) (s : State) : s.onlyWork (s.setStatus tid status detail) := rfl
theorem State.onlyWork_countEnded (n : Nat) (s : State) : s.onlyWork (s.countEnded n) := rfl
theorem State.onlyWork_stickFlags (n k : Nat) (w : Word) (s : State) : s.onlyWork (s.stickFlags n k w) := rfl

theorem State.onlyWork_emit (src cls code ten sev : Nat) (words : List Nat) (s : State) :
    s.onlyWork (s.emit src cls code ten sev words) :=
  congrArg (fun x : State => ({ x with isl := s.isl, tasks := s.tasks, eng := s.eng, free := s.free } : State))
    (State.emit_only src cls code ten sev words s)

theorem State.onlyWork_stopSlot (n k : Nat) (s : State) : s.onlyWork (s.stopSlot n k) := by
  unfold State.stopSlot; dsimp only; split <;> rfl

theorem State.onlyWork_endLead (n k : Nat) (s : State) : s.onlyWork (s.endLead n k) := by
  unfold State.endLead; dsimp only; split <;> rfl

theorem State.onlyWork_stopSlots (l : List (Nat × Nat)) (s : State) :
    s.onlyWork (l.foldl (fun (s : State) (x : Nat × Nat) => s.stopSlot x.1 x.2) s) := by
  induction l generalizing s with
  | nil => exact State.onlyWork_refl s
  | cons x r ih =>
    rw [List.foldl_cons]
    exact State.onlyWork_trans (State.onlyWork_stopSlot x.1 x.2 s) (ih _)

theorem State.onlyWork_endTask (tid status detail : Nat) (s : State) : s.onlyWork (s.endTask tid status detail) := by
  unfold State.endTask
  split
  · exact rfl
  · have hs := State.onlyWork_setStatus tid status detail s
    dsimp only
    split
    · exact hs
    · refine State.onlyWork_trans (State.onlyWork_trans hs ?_) (State.onlyWork_stopSlots _ _)
      split
      · exact State.onlyWork_stopSlot ..
      · exact State.onlyWork_endLead ..

theorem State.onlyWork_stopTask (tid status detail : Nat) (s : State) : s.onlyWork (s.stopTask tid status detail) := by
  unfold State.stopTask
  split
  · exact rfl
  · split
    · split
      · exact rfl
      · exact State.onlyWork_trans (State.onlyWork_setStatus ..) (State.onlyWork_stopSlots _ _)
    · exact rfl

/-- A fault that ends a slot's task (R144) touches slots, tasks and shared engines only. -/
theorem State.onlyWork_slotFault (n k status detail : Nat) (s : State) : s.onlyWork (s.slotFault n k status detail) := by
  unfold State.slotFault; dsimp only
  split
  · exact State.onlyWork_endTask ..
  · exact State.onlyWork_trans (State.onlyWork_stopSlot n k s) (State.onlyWork_endTask ..)

theorem State.onlyWork_endCause (n k status code : Nat) (s : State) : s.onlyWork (s.endCause n k status code) :=
  State.onlyWork_trans (State.onlyWork_countEnded n s) (State.onlyWork_slotFault ..)

theorem State.onlyWork_faultFrame (n k code epc tval reason ending : Nat) (s : State) :
    s.onlyWork (s.faultFrame n k code epc tval reason ending) := by
  unfold State.faultFrame; dsimp only
  exact State.onlyWork_trans (State.onlyWork_modIsl n _ s) (State.onlyWork_emit ..)

/-- Whatever way an exception takes (R148–R150), it touches islands, tasks, shared engines and the Ledger only. -/
theorem State.onlyWork_raise (n k code epc tval : Nat) (s : State) : s.onlyWork (s.raise n k code epc tval) := by
  have go : ∀ reason ending status detail,
      s.onlyWork (((s.faultFrame n k code epc tval reason ending).countEnded n).slotFault n k status detail) := by
    intro reason ending status detail
    exact State.onlyWork_trans (State.onlyWork_trans (State.onlyWork_faultFrame ..) (State.onlyWork_countEnded ..))
      (State.onlyWork_slotFault ..)
  unfold State.raise; dsimp only
  split
  · exact go _ _ _ _
  · split
    · exact go _ _ _ _
    · split
      · exact rfl
      · exact go _ _ _ _

/-- Poison consumed ends the task with its event, and touches nothing else. -/
theorem State.onlyWork_poisoned (n k epc tval : Nat) (s : State) : s.onlyWork (s.poisoned n k epc tval) := by
  unfold State.poisoned; dsimp only
  exact State.onlyWork_trans (State.onlyWork_trans (State.onlyWork_emit ..) (State.onlyWork_modIsl ..)) (State.onlyWork_endCause ..)

/-- The event of a trapped flag draws one free value and raises an event. -/
theorem State.onlyWork_trapEvent (n k epc tval : Nat) (s : State) : s.onlyWork (s.trapEvent n k epc tval) :=
  State.onlyWork_trans (t := { s with free := s.free + 1 }) rfl (State.onlyWork_emit ..)

/-- Flags stick, and a trapped one ends the task; nothing else is touched. -/
theorem State.onlyWork_raiseFlags (n k epc : Nat) (w : Word) (s : State) : s.onlyWork (s.raiseFlags n k epc w) := by
  have hs := State.onlyWork_stickFlags n k w s
  unfold State.raiseFlags; dsimp only
  split
  · exact hs
  · split
    · exact hs
    · exact State.onlyWork_trans (State.onlyWork_trans (State.onlyWork_trans hs (State.onlyWork_trapEvent ..)) (State.onlyWork_modIsl ..))
        (State.onlyWork_endCause ..)

end Sys2Proof.Machine
end

