-- ==== Sys2Proof/Laws/Sums.lean ====
section
/-! SUPPORT. The truncation error of a group sum (R202): what aligning a product drops, and the bound over a group. -/

namespace Sys2Proof.Machine

open Sys2Proof

/-- A product as an integer in units of `2^b`. -/
def signedBy (b : Int) (t : Bool × Nat × Int) : Int := (if t.1 then -(t.2.1 : Int) else t.2.1) * 2 ^ (t.2.2 - b).toNat

/-- A truncated product lies less than u below the product, and an exact one is the product (R202). -/
theorem alignTerm_error (b u : Int) (t : Bool × Nat × Int) (hb : b ≤ t.2.2) (hu : b ≤ u) :
    0 ≤ signedBy b t - (alignTerm u t).1 * 2 ^ (u - b).toNat ∧
    signedBy b t - (alignTerm u t).1 * 2 ^ (u - b).toNat ≤ if (alignTerm u t).2 then 2 ^ (u - b).toNat - 1 else 0 := by
  obtain ⟨s, m, e⟩ := t
  simp only [alignTerm, signedBy] at *
  generalize (if s then -(m : Int) else m) = i
  split
  · rw [show (e - b).toNat = (e - u).toNat + (u - b).toNat by omega, pow_add]
    simp [mul_assoc]
  · rw [show (u - b).toNat = (u - e).toNat + (e - b).toNat by omega, pow_add, ← mul_assoc, ← sub_mul]
    have hp : (0 : Int) < 2 ^ (u - e).toNat := by positivity
    have hq : (0 : Int) < 2 ^ (e - b).toNat := by positivity
    have h1 := Int.emod_nonneg i hp.ne'
    have h2 := Int.emod_lt_of_pos i hp
    rw [show i - i / 2 ^ (u - e).toNat * 2 ^ (u - e).toNat = i % 2 ^ (u - e).toNat by have := Int.emod_add_mul_ediv i (2 ^ (u - e).toNat); linarith]
    refine ⟨by positivity, ?_⟩
    by_cases h0 : i % 2 ^ (u - e).toNat = 0
    · simp [h0]
    · simp only [h0, ne_eq, not_false_eq_true, decide_true, if_true]
      nlinarith

/-- The error of a group: at most one u less a bit for each product that lost a bit (R202). -/
theorem alignTerms_error (b u : Int) (fs : List (Bool × Nat × Int)) (hb : ∀ t ∈ fs, b ≤ t.2.2) (hu : b ≤ u) :
    0 ≤ (fs.map (signedBy b)).sum - (fs.map (fun t => (alignTerm u t).1)).sum * 2 ^ (u - b).toNat ∧
    (fs.map (signedBy b)).sum - (fs.map (fun t => (alignTerm u t).1)).sum * 2 ^ (u - b).toNat
      ≤ (fs.countP (fun t => (alignTerm u t).2) : Int) * (2 ^ (u - b).toNat - 1) := by
  induction fs with
  | nil => simp
  | cons t fs ih =>
    have h := alignTerm_error b u t (hb t (by simp)) hu
    have ih := ih (fun t ht => hb t (by simp [ht]))
    simp only [List.map_cons, List.sum_cons, List.countP_cons]
    refine ⟨by linarith [h.1, ih.1], ?_⟩
    have h2 := h.2
    have i2 := ih.2
    by_cases hc : (alignTerm u t).2 = true <;> simp only [hc, if_true, Bool.false_eq_true, if_false] at h2 ⊢ <;> push_cast <;> linarith

/-- The bound of R202: a group of at most 32 products, one of them exact, lies within (−31u, 0] of its exact sum. -/
theorem alignTerms_bound (b u : Int) (fs : List (Bool × Nat × Int)) (hb : ∀ t ∈ fs, b ≤ t.2.2) (hu : b ≤ u)
    (hn : fs.length ≤ 32) (hx : ∃ t ∈ fs, u ≤ t.2.2) :
    0 ≤ (fs.map (signedBy b)).sum - (fs.map (fun t => (alignTerm u t).1)).sum * 2 ^ (u - b).toNat ∧
    (fs.map (signedBy b)).sum - (fs.map (fun t => (alignTerm u t).1)).sum * 2 ^ (u - b).toNat < 31 * 2 ^ (u - b).toNat := by
  obtain ⟨h1, h2⟩ := alignTerms_error b u fs hb hu
  obtain ⟨t, ht, hut⟩ := hx
  have hc : fs.countP (fun t => (alignTerm u t).2) < fs.length := by
    refine lt_of_le_of_ne List.countP_le_length (fun he => ?_)
    have := List.countP_eq_length.mp he t ht
    simp [alignTerm, hut] at this
  have hp : (0 : Int) < 2 ^ (u - b).toNat := by positivity
  refine ⟨h1, lt_of_le_of_lt h2 ?_⟩
  have : (fs.countP (fun t => (alignTerm u t).2) : Int) ≤ 31 := by exact_mod_cast (by omega)
  nlinarith

end Sys2Proof.Machine
end

