-- ==== Sys2Proof/Tests/Witness1.lean ====
section
/-! SUPPORT. Witnesses: for each statement with hypotheses, concrete states and operands that meet them together, clause
by clause, at the boundary values of their ranges. Stewards, tasks, DMA. -/

namespace Sys2Proof.Tests

open Sys2Proof Sys2Proof.Machine

-- The theorems of this file are checked one after another, which bounds the memory that a check takes.
set_option Elab.async false

/-! ### Small states -/

def room0 : RoomCfg :=
  { tenant := 1, level := 0, dispatcher := 0, restart := false, islands := 1, rces := 1, eles := 1, slots := 4,
    numericKey := 0, rasKey := 0 }
/-- A room 0 of tenant 1 on T-island 0, RCE 0 and ELE 0, with 1 KiB pinned and 4 KiB stacks. -/
def live0 : ConfigSet :=
  { ConfigSet.empty with rooms := [(0, room0)], islands := [(0, { pinKib := 1, stackKib := 4 })] }
def slot0 : Slot :=
  { Slot.reset with st := .running, regs := [(1, 1016), (2, 5), (3, 3), (30, 5120)], evec := 0x40, pages := [66560] }
def desc0 : Bytes :=
  le 1 1 ++ le 1 8 ++ le 2 1 ++ le 4 0 ++ le 8 0 ++ le 8 0x10000 ++ le 4 0x100 ++ le 4 0x100 ++ le 8 0x20000 ++ le 8 0
    ++ zeros 8 ++ le 4 100 ++ zeros 4
def task0 : Task :=
  Task.new 100 0 1 { raw := desc0, accGtc := 0, ord := 0, twin := none } 0 [(0, 0)] false 0 0 0 0

/-- Island 0 with slot 0 as given, and what else of the island. -/
def stewI (x : Slot) (f : Isl → Isl) : State :=
  { State.reset with living := live0, isl := [(0, f { Isl.reset with run := some 0, slots := [(0, x)] })] }
def stew (x : Slot) : State := stewI x id
/-- The same with task 0 live, as given. -/
def stewT (x : Slot) (t : Task) (f : Isl → Isl) : State := { stewI x f with tasks := { live := [(0, t)], next := 1 } }
def st0 : State := stew slot0
def st1 : State := stewT slot0 task0 id

theorem runs0 : st0.runsAt 0 0 := ⟨by decide, by decide⟩
theorem runs1 : st1.runsAt 0 0 := ⟨by decide, by decide⟩
/-- At the last instruction of the pinned region. -/
theorem runs_edge : (stew { slot0 with pc := 1020 }).runsAt 0 0 := ⟨by decide, by decide⟩

/-! ### 01: instructions -/

theorem witness_AluInstructionsWriteRd : st0.runsAt 0 0 ∧ (stew { slot0 with pc := 1020 }).runsAt 0 0 := ⟨runs0, runs_edge⟩

theorem witness_ImmediateInstructionsWriteRd : st0.runsAt 0 0 ∧ (63 : Imm15).toNat < 64 ∧ (0 : Imm15).toNat < 64 :=
  ⟨runs0, by decide, by decide⟩

def stMap : State := stewI { slot0 with maps := [(3, 66560)], regs := [(1, 66560), (4, 70648)] } id

theorem witness_LoadsReadShelfOrOverlay :
    (st0.runsAt 0 0 ∧ (st0.greg 0 0 1 + BitVec.ofInt 64 (0 : Imm15).toInt).toNat = 1016 ∧ 1016 % 8 = 0
      ∧ st0.canLoad 0 0 1016 8 = true ∧ (st0.slot 0 0).overlay 1016 = none ∧ (st0.island 0).shelf.poisonIn wordB 1016 8 = none)
    ∧ (stMap.runsAt 0 0 ∧ (stMap.greg 0 0 4 + BitVec.ofInt 64 (0 : Imm15).toInt).toNat = 70648 ∧ 70648 % 8 = 0
      ∧ stMap.canLoad 0 0 70648 8 = true ∧ (stMap.slot 0 0).overlay 70648 = some (3, 4088) ∧ (stMap.island 0).inPlace 0 = true
      ∧ ((stMap.island 0).crate 3).poisonIn wordB 4088 8 = none) :=
  ⟨⟨runs0, by decide⟩, ⟨by decide, by decide⟩, by decide⟩

theorem witness_StoresWriteTheirBytesOnly :
    (st0.runsAt 0 0 ∧ (st0.greg 0 0 1 + BitVec.ofInt 64 (4096 : Imm15).toInt).toNat = 5112 ∧ 5112 % 8 = 0
      ∧ st0.canStore 0 0 5112 8 = true ∧ (st0.slot 0 0).overlay 5112 = none)
    ∧ (stMap.runsAt 0 0 ∧ stMap.canStore 0 0 70648 8 = true ∧ (stMap.slot 0 0).overlay 70648 = some (3, 4088)
      ∧ (stMap.island 0).inPlace 0 = true) :=
  ⟨⟨runs0, by decide⟩, ⟨by decide, by decide⟩, by decide⟩

/-- Taken and not taken branches, mispredicted from the counter's reset value and predicted. -/
theorem witness_BranchesAndJumpsSetThePc :
    st0.runsAt 0 0 ∧ condTaken .eq (st0.greg 0 0 0) (st0.greg 0 0 4) ∧ ¬condTaken .ne (st0.greg 0 0 0) (st0.greg 0 0 4)
      ∧ (st0.island 0).counter 0 = 1 ∧ 4 / 4 % 256 ≠ 0 / 4 % 256 ∧ ((0 : Reg) = 0 ∧ (31 : Reg) = 31) := by
  refine ⟨runs0, ?_⟩; unfold condTaken; decide

theorem handles0 : st0.handles 0 0 := by unfold State.handles State.spValid; decide
theorem handles1 : st1.handles 0 0 := by unfold State.handles State.spValid; decide

theorem witness_TaskControlWordsReadAndWrite :
    (st1.runsAt 0 0 ∧ st1.task? (st1.slot 0 0).task = some task0 ∧ st1.isLead 0 0 = true)
      ∧ (st0.runsAt 0 0 ∧ st0.handles 0 0 ∧ st0.isLead 0 0 = false
        ∧ ((0 : Csr) = 0 ∨ 7 < (0 : Csr).toNat) ∧ ((8 : Csr) = 0 ∨ 7 < (8 : Csr).toNat) ∧ ((2 : Csr) ≠ 3 ∧ (2 : Csr) ≠ 4)) :=
  ⟨⟨runs1, by decide⟩, runs0, handles0, by decide⟩

def stHandler : State := stew { slot0 with inHandler := true, regs := [(30, 5056)] }

theorem witness_ExceptionsEnterTheHandler :
    (st0.runsAt 0 0 ∧ st0.handles 0 0 ∧ stewWord ((0xF0000000 : Word).toNat % 2 ^ 32) = none ∧ 64 ≤ (64 : Imm15).toNat
      ∧ 1017 % 8 ≠ 0 ∧ st0.canLoad 0 0 5120 8 = false ∧ 5120 % 8 = 0 ∧ st0.canStore 0 0 1016 8 = false)
    ∧ (stHandler.runsAt 0 0 ∧ (stHandler.slot 0 0).inHandler = true ∧ ((stHandler.slot 0 0).getReg 30).toNat % 8 = 0
      ∧ stHandler.canLoad 0 0 5056 64 = true ∧ stHandler.stewRead 0 0 5056 64 = some (zeros 64, false)) :=
  ⟨⟨runs0, handles0, by decide⟩, ⟨by decide, by decide⟩, by decide⟩

def vec0 : VecOp :=
  { slot := 0, addr := 0, arg := 0, ord := 0, epc := 0, sync := none, full := [], late := false, started := true, pc := 0, v := [], p := [] }
def stVec : State := stewT slot0 task0 (fun i => { i with vec := [vec0], ord := 1 })

theorem witness_ReservedVectorWordsRaiseIllegal :
    (stewWord ((0 : Word).toNat % 2 ^ 32)).isSome = true ∧ (vecInstrWord (0 : Word).toNat).isSome = true
      ∧ (vecInstrWord (0xFF : Word).toNat).isSome = false ∧ stVec.vecProg 0 = some (vec0, task0) := by decide

/-! ### 02: waits, tasks, DMA -/

def dma0 : Dma :=
  { write := false, blk := 0, shelf := 66560, len := 64, chip := 0, far := 4 * 2 ^ 61 + 0x10000, cls := 4, issued := 0, done := false,
    err := false, drop := false, held := none, moved := 0, buf := [], bufBad := [], epc := 0, retried := false, ord := 0,
    waits := false, meshBad := [], lost := false }
def stDma (d : Dma) : State := stewT { slot0 with tags := [(0, d)], regs := [(1, 1), (30, 5120)] } task0 id
/-- A second slot, READY for a later task. -/
def stTwo : State := stewI slot0 (fun i => { i with slots := [(0, slot0), (15, { slot0 with st := .ready, task := 1 })] })

theorem witness_WaitsHoldUntilTheirConditions :
    (st0.runsAt 0 0 ∧ st0.waitHolds 0 0 (st0.greg 0 0 0) = true ∧ (st0.slot 0 0).badTag (tagsOf (st0.greg 0 0 0)) = none
      ∧ st0.nextReady 0 = none)
    ∧ ((stDma { dma0 with done := true }).runsAt 0 0 ∧ (stDma { dma0 with done := true }).waitHolds 0 0 1 = true
      ∧ ((stDma { dma0 with done := true }).slot 0 0).badTag (tagsOf 1) = none
      ∧ ((stDma { dma0 with done := true }).greg 0 0 1).toNat % 4096 ≠ 0
      ∧ (tagsOf 1).all ((stDma { dma0 with done := true }).slot 0 0).tagDone = true)
    ∧ (stTwo.runsAt 0 0 ∧ (stTwo.greg 0 0 0).toNat % 4096 = 0 ∧ stTwo.nextReady 0 = some 15 ∧ (stTwo.slot 0 15).st = .ready
      ∧ (stTwo.slot 0 0).full.length ≤ (stTwo.slot 0 0).hold)
    ∧ ((stDma dma0).runsAt 0 0 ∧ (stDma dma0).waitHolds 0 0 1 = false ∧ ((stDma dma0).slot 0 0).full.length ≤ 0
      ∧ (tagsOf 1).all ((stDma dma0).slot 0 0).tagDone = false)
    ∧ ((stDma { dma0 with done := true, err := true }).runsAt 0 0
      ∧ ((stDma { dma0 with done := true, err := true }).slot 0 0).badTag (tagsOf 1) = some (0, { dma0 with done := true, err := true })
      ∧ (stDma { dma0 with done := true, err := true }).handles 0 0)
    ∧ ((stDma { dma0 with write := true }).slot 0 0).tags.all (fun e => !e.2.write || e.2.done) = false
    ∧ ((stDma dma0).slot 0 0).tags.all (fun e => !e.2.write || e.2.done) = true
    ∧ ((stew { slot0 with st := .waiting }).slot 0 0).st = .waiting ∧ (stew { slot0 with st := .waiting }).waitHolds 0 0 0 = true := by
  refine ⟨⟨runs0, by decide⟩, ⟨⟨by decide, by decide⟩, by decide⟩, ⟨⟨by decide, by decide⟩, by decide⟩,
    ⟨⟨by decide, by decide⟩, by decide⟩, ⟨⟨by decide, by decide⟩, by decide, ?_⟩, by decide⟩
  unfold State.handles State.spValid; decide

/-- Slot 0 of island 0 in a task whose lead is another slot. -/
def taskB : Task := { task0 with slots := [(1, 0), (0, 0)] }
def stB (v : Word) : State := stewT { slot0 with regs := [(1, v), (30, 5120)] } taskB id

theorem witness_ExitEndsTheTaskOrTheSegment :
    (st1.runsAt 0 0 ∧ st1.task? (st1.slot 0 0).task = some task0 ∧ (st1.greg 0 0 0).toNat = 0 ∧ (st1.slot 0 0).vfault = none
      ∧ st1.idle 0 0 = true ∧ st1.isLead 0 0 = true)
    ∧ ((stB 0).runsAt 0 0 ∧ (stB 0).task? 0 = some taskB ∧ (stB 0).idle 0 0 = true ∧ (stB 0).isLead 0 0 = false ∧ taskB.span = none)
    ∧ ((stB 0x2D).runsAt 0 0 ∧ ((stB 0x2D).greg 0 0 1).toNat = 0x2D ∧ (stB 0x2D).idle 0 0 = true ∧ (stB 0x2D).isLead 0 0 = false)
    ∧ ((st1.greg 0 0 2).toNat = 5 ∧ st1.handles 0 0) :=
  ⟨⟨runs1, by decide⟩, ⟨⟨by decide, by decide⟩, by decide⟩, ⟨⟨by decide, by decide⟩, by decide⟩, by decide, handles1⟩

def stReady : State := stewI { slot0 with st := .ready } (fun i => { i with run := none })
theorem witness_RunSelectsTheEarliestReadySlot :
    stReady.runningSlot 0 = none ∧ stReady.ras.sweepBusy = false ∧ stReady.nextReady 0 = some 0
      ∧ (stewI { slot0 with st := .waiting } id).runningSlot 0 = none
      ∧ (stewI { slot0 with st := .waiting } id).nextReady 0 = none := by decide

/-- The word of an instruction stands at the pc. -/
def stWord : State := stewI slot0 (fun i => { i with shelf := { mem := Mem.write [] 0 (le 4 (wR 0 5 1 2 0)), poison := [] } })
theorem witness_RunExecutesTheWordAtThePc :
    stewEncode (.add 0 5 1 2) = some (0, wR 0 5 1 2 0) ∧ stWord.runsAt 0 0
      ∧ (stWord.island 0).shelf.poisonIn wordB (stWord.slot 0 0).pc 4 = none
      ∧ (stWord.island 0).shelf.read (stWord.slot 0 0).pc 4 = le 4 (wR 0 5 1 2 0) :=
  ⟨rfl, ⟨by decide, by decide⟩, by decide, by decide⟩

def vf0 : VFields := { vd := 1, va := 2, vb := 3, vc := 0, fmt := 0, p := 0, imm := 0 }
def vecAt : VecOp := { vec0 with addr := 1016 }
def stVWord : State := stewT slot0 task0 (fun i =>
  { i with vec := [vecAt], ord := 1, shelf := { mem := Mem.write [] 1016 (le 8 (vecBits 0x10 vf0)), poison := [] } })
theorem witness_VectorStepExecutesTheWordAtTheProgram :
    vecEncode (.vadd 0 vf0) = some (0, vecBits 0x10 vf0) ∧ stVWord.vecProg 0 = some (vecAt, task0)
      ∧ vecAt.at_ + 8 ≤ stVWord.pin 0 ∧ (stVWord.island 0).shelf.poisonIn wordB vecAt.at_ 8 = none
      ∧ (stVWord.island 0).shelf.read vecAt.at_ 8 = le 8 (vecBits 0x10 vf0) :=
  ⟨rfl, by decide, by decide, by decide, by decide⟩

/-- A request block at 32 of the pinned region. -/
def blk (len far : Nat) : Bytes := le 8 66560 ++ le 4 len ++ le 4 0 ++ le 8 far ++ zeros 8
def stBlk (len far : Nat) (tags : NMap Dma) : State :=
  stewT { slot0 with regs := [(1, 32), (30, 5120)], tags := tags } task0
    (fun i => { i with shelf := { mem := Mem.write [] 32 (blk len far), poison := [] } })
def reqOf (len far : Nat) : ReqBlock := ReqBlock.of (((stBlk len far []).island 0).shelf.read 32 32)

def stPassage (src sink : Nat) : State :=
  { st1 with living := { live0 with passages := [(0, { src := src, sink := sink, hops := 1, width := 1, route := 0 })] } }
theorem witness_DmaIssue_streams_and_jobs :
    ((stPassage 3 4).farCheck 0 task0 true (reqOf 64 (3 * 2 ^ 61 + 3)) = .ok
      ∧ (stPassage 3 4).streamOf 0 { dma0 with write := true, cls := 3, far := 3 }
          = some (0, { src := 3, sink := 4, hops := 1, width := 1, route := 0 }))
    ∧ ((stPassage 4 0).farCheck 0 task0 false (reqOf 64 (3 * 2 ^ 61)) = .ok)
    ∧ (st1.farCheck 0 task0 true (reqOf 64 (2 ^ 61)) = .ok ∧ (reqOf 64 (2 ^ 61)).cls = 1) := by decide

theorem witness_DmaIssueTakesATag :
    ((stBlk 256 0x10000 []).runsAt 0 0 ∧ (stBlk 256 0x10000 []).task? 0 = some task0 ∧ ((stBlk 256 0x10000 []).slot 0 0).freeTags ≠ []
      ∧ 32 % 32 = 0 ∧ (stBlk 256 0x10000 []).canLoad 0 0 32 32 = true ∧ ((stBlk 256 0x10000 []).island 0).shelf.poisonIn wordB 32 32 = none
      ∧ (reqOf 256 0x10000).len = 256 ∧ (stBlk 256 0x10000 []).canStore 0 0 (reqOf 256 0x10000).shelf 256 = true
      ∧ (reqOf 256 0x10000).cls = 0 ∧ (stBlk 256 0x10000 []).farCheck 0 task0 false (reqOf 256 0x10000) = .ok)
    ∧ ((stBlk 256 0x20000 []).farCheck 0 task0 true (reqOf 256 0x20000) = .ok ∧ (stBlk 256 0x20000 []).canLoad 0 0 66560 256 = true)
    ∧ ((stBlk 257 0x20000 []).farCheck 0 task0 true (reqOf 257 0x20000) = .past 257)
    ∧ ((stBlk 256 0x10001 []).farCheck 0 task0 false (reqOf 256 0x10001) = .access 0x10001 ∧ (stBlk 256 0x10001 []).handles 0 0)
    ∧ ((stBlk 1 0x10000 ((List.range 8).map (fun g => (g, dma0)))).slot 0 0).freeTags = [] := by
  refine ⟨⟨⟨by decide, by decide⟩, by decide⟩, by decide, by decide, ⟨by decide, ?_⟩, by decide⟩
  unfold State.handles State.spValid; decide

theorem witness_HostDmaStaysInItsBuffers :
    (reqOf 256 0x10000).cls = 0 ∧ st1.farCheck 0 task0 false (reqOf 256 0x10000) = .ok
      ∧ st1.farCheck 0 task0 true (reqOf 256 0x20001) = .past 257
      ∧ st1.farCheck 0 task0 true (reqOf 1 0x20100) = .access 0x20100 := by decide

/-- The same request in a room at Level T. -/
def stDmaT : State := { stDma dma0 with living := { live0 with rooms := [(0, { room0 with level := 2 })] } }
theorem noneWaits0 : (stDma dma0).noneWaits 0 0 := by unfold State.noneWaits; decide
theorem isOut0 : dma0.isOut := by unfold Dma.isOut; decide
def respH : Resp := { rel := 7, data := zeros 64, bad := [], err := false }
def dmaH : Dma := { dma0 with held := some respH }
theorem witness_DmaCompletionMovesTheData :
    ((stDma dma0).tag? 0 0 0 = some dma0 ∧ (stDma dma0).task? ((stDma dma0).slot 0 0).task = some task0
      ∧ (stDma dma0).levelT task0.room = false ∧ dma0.write = false ∧ dma0.drop = false ∧ dma0.cls = 4)
    ∧ ((stDma dma0).noneWaits 0 0 ∧ dma0.isOut)
    ∧ (stDmaT.levelT task0.room = true ∧ stDmaT.view 0x10 < dma0.issued + (fld (stDmaT.rwt offReproCfg) 20 12 + 2 * cdiv dma0.len 64))
    ∧ ((stDma { dma0 with cls := 0 }).tag? 0 0 0 = some { dma0 with cls := 0 })
    ∧ ((stDma { dma0 with done := true }).tag? 0 0 0 = some { dma0 with done := true })
    ∧ ((stDma dmaH).tag? 0 0 0 = some dmaH ∧ dmaH.held = some respH ∧ dmaH.done = false) :=
  ⟨by decide, ⟨noneWaits0, isOut0⟩, by decide⟩

theorem witness_StoppingSlotsAreReleased :
    ((st1.slot 0 0).st.live ∧ st1.isLead 0 0 = true ∧ st1.task? (st1.slot 0 0).task = some task0)
    ∧ (let s := stewT { slot0 with st := .stopping } taskB id
      (s.slot 0 0).st = .stopping ∧ (s.slot 0 0).drained = true ∧ s.isLead 0 0 = false ∧ s.task? 0 = some taskB ∧ taskB.span = none)
    ∧ (let s := stewT { slot0 with st := .ending } task0 id
      (s.slot 0 0).st = .ending ∧ s.isLead 0 0 = true ∧ s.task? 0 = some task0 ∧ task0.slots = [(0, 0)] ∧ (s.slot 0 0).drained = true
        ∧ task0.comparing = false ∧ task0.requeue = false ∧ task0.noRecord = false ∧ task0.ent.twin = none
        ∧ task0.digestDue task0.final.1 = false ∧ (s.spanRt task0.room).waits = [])
    ∧ ((stDma dma0).tag? 0 0 0 = some dma0 ∧ dma0.done = false ∧ dma0.held = none) := by
  refine ⟨⟨Or.inr (Or.inl (by decide)), by decide⟩, by decide, by decide, by decide⟩

end Sys2Proof.Tests
end

