-- ==== Sys2Proof/Tests/Witness2.lean ====
section
/-! SUPPORT. Witnesses of statements: crates, the Grid, the vector engine, the range-coding and edge-layer engines. -/

namespace Sys2Proof.Tests

open Sys2Proof Sys2Proof.Machine

-- The theorems of this file are checked one after another, which bounds the memory that a check takes.
set_option Elab.async false

/-! ### 03: crates and the Grid -/

/-- Row word: stride 128, first row 0, count 32. -/
def rowW : Word := 0x03E00080
/-- Slot 0 with a working page in g1 and a row word in g2, the crates `full` FULL. -/
def slotC (full : List Nat) (maps : List (Nat × Nat)) : Slot :=
  { slot0 with regs := [(1, 66560), (2, rowW), (30, 5120)], full := full, maps := maps }
def stC (full : List Nat) (maps : List (Nat × Nat)) (f : Isl → Isl) : State := stewT (slotC full maps) task0 f

theorem handlesC : (stC [] [] id).handles 0 0 := by unfold State.handles State.spValid; decide
theorem handlesCM : (stC [] [(15, 66560)] id).handles 0 0 := by unfold State.handles State.spValid; decide

theorem witness_CrateInstructionsFollowTheirStates :
    ((stC [] [] id).runsAt 0 0 ∧ (15 : Reg).val < 16 ∧ (0 : Reg).val < 16
      ∧ (RowWord.of rowW).map (fun r => (r.stride, r.first, r.count)) = some (128, 0, 32) ∧ 66560 % 8 = 0
      ∧ ((stC [] [] id).slot 0 0).isMapped 15 = false
      ∧ (∀ j < 32, (stC [] [] id).canLoad 0 0 (66560 + j * 128) 128 = true))
    ∧ (((stC [15] [] id).slot 0 0).isFull 15 = true ∧ (∀ j < 32, (stC [15] [] id).canStore 0 0 (66560 + j * 128) 128 = true))
    ∧ (((stC [] [] id).island 0).inPlace 0 = true ∧ ((stC [] [] id).island 0).crateBusy 0 15 = false)
    ∧ (((stC [] [] id).slot 0 0).maps.length < 2 ∧ 66560 % 4096 = 1024)
    ∧ ((stC [] [(15, 66560)] id).runsAt 0 0 ∧ ((stC [] [(15, 66560)] id).slot 0 0).isMapped 15 = true)
    ∧ ((stC [] [] (fun i => { i with swapTo := [0] })).island 0).inPlace 0 = false
    ∧ ((stC [] [] id).handles 0 0 ∧ ((stC [] [] id).slot 0 0).isFull 15 = false ∧ (RowWord.of 5).isNone = true)
    ∧ ((stC [] [(15, 66560)] id).handles 0 0) :=
  ⟨⟨⟨by decide +kernel, by decide +kernel⟩, by decide +kernel⟩, by decide +kernel, by decide +kernel, by decide +kernel, ⟨⟨by decide +kernel, by decide +kernel⟩, by decide +kernel⟩, by decide +kernel,
    ⟨handlesC, by decide +kernel⟩, handlesCM⟩

/-- A page at a multiple of 4 KiB: 15 KiB pinned below 3 KiB stacks. -/
def stPage : State :=
  { stewT { slot0 with regs := [(1, 65536)], pages := [65536] } task0 id with
    living := { live0 with islands := [(0, { pinKib := 16, stackKib := 3 })] } }
theorem witness_CrateMapTakesAWorkingPage :
    stPage.runsAt 0 0 ∧ (stPage.greg 0 0 1).toNat = 65536 ∧ 65536 % 4096 = 0 ∧ stPage.canStore 0 0 65536 4096 = true
      ∧ (stPage.island 0).inPlace 0 = true ∧ (stPage.island 0).crateBusy 0 15 = false ∧ (stPage.slot 0 0).maps.length < 2 :=
  ⟨⟨by decide +kernel, by decide +kernel⟩, by decide +kernel⟩

def xfer0 : Xfer :=
  { slot := 0, store := false, crate := 15, addr := 66560, stride := 128, first := 0, count := 32, p6 := false, fresh := true,
    ord := 0, epc := 0, done := false, moved := false }
def stX (x : Xfer) : State := stC [15] [] (fun i => { i with xfers := [x], ord := 1 })
def stSwap : State := stewI slot0 (fun i => { i with swapTo := [15], slots := [(0, slot0), (15, { slot0 with st := .ready })] })

theorem witness_CrateTransfersMoveRows :
    (∀ x ∈ [xfer0, { xfer0 with store := true }, { xfer0 with p6 := true, first := 31, count := 1 }, { xfer0 with moved := true }],
      ((stX x).island 0).xferNext x ∧ ((stX x).island 0).standing 0 = true ∧ ((stX x).island 0).xferFree x ∧ x.first + x.count ≤ 32)
    ∧ (128 ≤ xfer0.stride ∧ (stSwap.island 0).swapTo = [15] ∧ (stSwap.island 0).xfers = [] ∧ (stSwap.island 0).grid = []) := by
  unfold Isl.xferNext Isl.xferFree; decide

/-- Operand word: A crate 0, B crate 1, view 1, every group, depth 1. -/
def opW : Word := 0x110
/-- The room admits both families of formats. -/
def liveN : ConfigSet := { live0 with numerics := [(0, { NumericCfg.default with family := 3, ftab := 0 })] }
def stG (full : List Nat) (f : Isl → Isl) : State :=
  { stewT { slot0 with regs := [(1, opW), (2, 0x100), (30, 5120)], full := full, fmt := some (0, 0) } task0 f with living := liveN }
def grid0 : GridOp :=
  { slot := 0, mma := false, fa := 0, fb := 0, acr := 0, bcr := 1, av := 1, scale := none, ag := 0, bg := 0, depth := 1, ord := 0,
    epc := 0, started := false, row := 0, late := false, swapped := false }
/-- A transfer behind an operation in the array that writes its crate. -/
def xferB : Xfer := { xfer0 with crate := 2, ord := 1 }
def stBehind : State := stC [2] [] (fun i => { i with grid := [{ grid0 with started := true }], xfers := [xferB], ord := 2 })
theorem witness_CrateTransfers_behind_the_Grid :
    (stBehind.island 0).xferNext xferB ∧ (stBehind.island 0).standing 0 = true
      ∧ (∀ g ∈ (stBehind.island 0).grid, g.slot = 0 → g.ord < 1 → xferB.clashes g = true → g.started = true)
      ∧ (∃ g ∈ (stBehind.island 0).grid, g.slot = 0 ∧ g.ord < 1 ∧ xferB.clashes g = true) := by
  unfold Isl.xferNext; decide

theorem handlesG : (stG [0, 1] id).handles 0 0 := by unfold State.handles State.spValid; decide

theorem witness_GridInstructionsQueueOperations :
    ((stG [0, 1] id).runsAt 0 0 ∧ fmtPair ((stG [0, 1] id).slotNumeric 0 0) ((stG [0, 1] id).greg 0 0 0) = some (0, 0)
      ∧ fmtPair ((stG [0, 1] id).slotNumeric 0 0) ((stG [0, 1] id).greg 0 0 2) = none ∧ (stG [0, 1] id).handles 0 0)
    ∧ (((stG [0, 1] id).slot 0 0).fmt = some (0, 0) ∧ operandBad 0 0 (OpWord.of opW) = false
      ∧ (∀ c ∈ [(OpWord.of opW).acr, (OpWord.of opW).bcr, 2, 3], ((stG [0, 1] id).slot 0 0).isMapped c = false)
      ∧ (∀ c ∈ [(OpWord.of opW).acr, (OpWord.of opW).bcr], ((stG [0, 1] id).slot 0 0).isFull c = true)
      ∧ ((stG [0, 1, 2, 3] id).slot 0 0).isFull 2 = true ∧ ((stG [0, 1, 2, 3] id).slot 0 0).isFull 3 = true)
    ∧ ((stG [0, 1] (fun i => { i with grid := List.replicate 7 grid0 })).island 0).grid.length < 8
    ∧ 8 ≤ ((stG [0, 1] (fun i => { i with grid := List.replicate 8 grid0 })).island 0).grid.length
    ∧ (let s := stG [0, 1, 2, 3] (fun i => { i with grid := [grid0] })
      (s.island 0).grid.find? (fun h => !h.started) = some grid0 ∧ (s.island 0).standing 0 = true ∧ (s.island 0).xfers = []) :=
  ⟨⟨⟨by decide +kernel, by decide +kernel⟩, by decide +kernel, by decide +kernel, handlesG⟩, by decide +kernel, by decide +kernel, by decide +kernel, by decide +kernel⟩

/-- A started operation of depth 1 on a row of zeros. -/
def stGrun : State := stG [0, 1, 2, 3] (fun i => { i with grid := [{ grid0 with started := true }], ord := 1 })
theorem witness_GridOperationAccumulatesItsRows :
    (stGrun.island 0).grid = [{ grid0 with started := true }] ∧ (stGrun.island 0).standing 0 = true
      ∧ stGrun.task? (stGrun.slot 0 0).task = some task0 ∧ (stGrun.numeric task0.room).traps = 0
      ∧ (stGrun.island 0).xfers = [] ∧ (stGrun.residueOff = false ∧ stGrun.restarts task0.room = false ∧ stGrun.levelT task0.room = false)
      ∧ (gridRows (stGrun.numeric task0.room).mode 0 { grid0 with started := true } 0 0
          { crates := (stGrun.island 0).crates, flags := 0, rows := 0, stop := none }).stop = none := by decide +kernel

def stTrap : State := { st1 with living := { live0 with numerics := [(0, { NumericCfg.default with traps := 1 })] } }
theorem witness_TrappedFlagsEndTheTask :
    stTrap.task? (stTrap.slot 0 0).task = some task0
      ∧ (∃ i < 16, (0x1000 : Word).getLsbD i = true ∧ nbit (stTrap.numeric task0.room).traps (i % 4) = true)
      ∧ ¬(∃ i < 16, (0x2000 : Word).getLsbD i = true ∧ nbit (stTrap.numeric task0.room).traps (i % 4) = true) := by decide +kernel

/-! ### 03: the vector engine -/

def stV (v : VecOp) (full : List Nat) : State := stewT { slot0 with full := full } task0 (fun i => { i with vec := [v], ord := 1 })
/-- A program at the last word of the pinned region, with addresses in p0 and p1. -/
def vecP (a b : Word) : VecOp := { vec0 with addr := 1016, p := [a, b] }

theorem vecRuns_end (a b : Word) : (stV (vecP a b) []).vecRuns 0 (vecP a b) task0 :=
  ⟨rfl, (by decide +kernel : 1016 + 8 * 0 + 8 ≤ st0.pin 0), (by decide +kernel : 0 < 4095), (by decide +kernel : (st0.numeric 0).traps = 0)⟩

theorem witness_VectorControlInstructions :
    ((stew { slot0 with regs := [(1, 1016)] }).runsAt 0 0 ∧ slot0.vfault = none ∧ 1016 % 8 = 0 ∧ 1016 + 8 ≤ st0.pin 0
      ∧ (st0.island 0).vec.length < 4)
    ∧ 4 ≤ ((stewI slot0 (fun i => { i with vec := List.replicate 4 vec0 })).island 0).vec.length
    ∧ (((stV { vec0 with started := false } []).island 0).vec = [{ vec0 with started := false }]
      ∧ (stV { vec0 with started := false } []).syncDone 0 { vec0 with started := false } = true)
    ∧ (stV (vecP 0 0) []).vecRuns 0 (vecP 0 0) task0 :=
  ⟨⟨⟨by decide +kernel, by decide +kernel⟩, by decide +kernel⟩, by decide +kernel, by decide +kernel, vecRuns_end 0 0⟩

theorem witness_VectorFloatLanes : (stV (vecP 0 0) []).vecRuns 0 (vecP 0 0) task0 := vecRuns_end 0 0
theorem witness_VectorIntegerLanes : (stV (vecP 0 0) []).vecRuns 0 (vecP 0 0) task0 := vecRuns_end 0 0
theorem witness_SpecialFunctionInstructions :
    (stV (vecP 0 0) []).vecRuns 0 (vecP 0 0) task0 ∧ (12 : BitVec 24).toNat % 16 ≤ 12 ∧ (13 : BitVec 24).toNat % 16 = 13
      ∧ rowLen { vf0 with imm := 4096 } 0 = some (4096, 32) ∧ (4096 : BitVec 24).toNat / 2 ^ 14 % 2 = 0 :=
  ⟨vecRuns_end 0 0, by decide +kernel⟩

theorem witness_VectorWideAndRowInstructions :
    (stV (vecP 0 0) []).vecRuns 0 (vecP 0 0) task0 ∧ rowLen { vf0 with imm := 1 } 31 = some (1, 1)
      ∧ rowLen { vf0 with imm := 4096 } 0 = some (4096, 32)
      ∧ (sdot { NumericCfg.default with mode := 2 } { vf0 with imm := 1 } (vecP 0 0) 1 [0]).isSome = true
      ∧ ((16 : BitVec 24).toNat % 32 = 16 ∧ (16 : Reg).val + 16 ≤ 32) :=
  ⟨vecRuns_end 0 0, by decide +kernel⟩

def fLd (fmt : Fin 32) (count : BitVec 24) : VFields := { vf0 with fmt := fmt, imm := count }
def okPieces (r : Except (Nat × Nat) (List Piece × List Piece)) (p : List Piece → Bool) : Bool :=
  match r with | .ok (a, b) => p (a ++ b) | .error _ => false
def okWide (r : Except (Nat × Nat) (List Piece)) (p : List Piece → Bool) : Bool := match r with | .ok a => p a | .error _ => false

/-- 128 binary32 elements at 1024 − 512 of the pinned region and in a page; an MX format; a wide view. -/
theorem witness_VectorMemoryInstructions :
    (stV (vecP 512 0) []).vecRuns 0 (vecP 512 0) task0 ∧ (vFmt 0x10).isSome = true ∧ vCount (fLd 0x10 128) = some 128
      ∧ (let s := stV (vecP 512 0) []
        okPieces (s.vecPlaces 0 (vecP 512 0) (fLd 0x10 128) .f32 128 false)
          (fun ps => s.ready 0 (vecP 512 0) ps && (s.badPiece 0 ps).isNone) = true)
      ∧ (let s := stV (vecP 66560 0) []
        okPieces (s.vecPlaces 0 (vecP 66560 0) (fLd 0x10 128) .f32 128 true) (s.ready 0 (vecP 66560 0)) = true)
      ∧ wCount (fLd 0x12 64) = some 64
      ∧ (let v := { vecP (2 ^ 63) 0 with full := [0, 1] }
        let s := stV v []
        okWide (s.wideAccess 0 v (fLd 0x12 64) 64 false) (fun ps => s.ready 0 v ps && (s.badPiece 0 ps).isNone) = true
          ∧ okWide (s.wideAccess 0 v (fLd 0x12 64) 64 true) (s.ready 0 v) = true)
      ∧ vFmt 0x1F = none :=
  ⟨vecRuns_end 512 0, by decide +kernel⟩

/-! ### 04: engines -/

/-- A job block: encode, family 0, one substream, RCE 0, one element; latents, indices and means in the page. -/
def job0 (op subs : Nat) : Bytes :=
  le 1 op ++ le 1 0 ++ le 1 subs ++ le 1 0 ++ le 2 1 ++ le 2 0 ++ le 4 1 ++ le 4 64 ++ le 4 66624 ++ le 4 66560 ++ le 4 66568
    ++ le 4 66688 ++ le 4 0 ++ le 4 0 ++ le 4 0 ++ le 4 0 ++ zeros 16
def sub0 (b : Bytes) : Submit :=
  { eng := 0, isl := 0, slot := 0, task := 0, room := 0, block := b, addr := 67000, tag := 0, epc := 0, bad := none, ord := 0 }
/-- Island 0 with the elements in the page, and a frame of that element where a job has its frame. -/
def stJ (mem : List Host.Cell) (e : Engines) : State :=
  { stewT slot0 task0 (fun i => { i with shelf := { mem := mem, poison := [] } }) with living := liveN, eng := e }
def eng0 : Engines := State.reset.eng
def stSub (b : Bytes) : State := stJ [] { eng0 with rceIn := [sub0 b], ord := 1 }

theorem witness_RceTakesJobsAndRequestsInOrder :
    ((stSub (job0 1 1)).eng.rceIn.find? (fun y => y.isl == 0 && y.slot == 0 && y.ord == 0) = some (sub0 (job0 1 1))
      ∧ (sub0 (job0 1 1)).bad = none ∧ fieldsOk (job0 1 1) 1 = true ∧ fieldsOk (job0 1 0) 1 = false
      ∧ (stSub (job0 1 1)).canStore 0 0 (67000 + 0x28) 8 = true
      ∧ ((sub0 (job0 1 1)).job.reads.all (fun r => (stSub (job0 1 1)).canLoad 0 0 r.1 r.2) = true)
      ∧ ((sub0 (job0 1 1)).job.writes.all (fun r => (stSub (job0 1 1)).canStore 0 0 r.1 r.2) = true)
      ∧ (stSub (job0 1 1)).jobPoison (sub0 (job0 1 1)) [((sub0 (job0 1 1)).job.sig, 1)] = none
      ∧ (∀ g ∈ (stSub (job0 1 1)).jobSig (sub0 (job0 1 1)) 0 1, g ≤ 63) ∧ (stSub (job0 1 1)).tableBad (sub0 (job0 1 1)) = none)
    ∧ (let b := le 1 1 ++ le 1 0 ++ le 1 1 ++ le 1 0 ++ le 2 1 ++ le 2 0 ++ le 4 1 ++ le 4 64 ++ zeros 48
      fieldsOk b 1 = true ∧ (sub0 b).job.writes.all (fun r => (stSub b).canStore 0 0 r.1 r.2) = false)
    ∧ (let q : CodeReq := { job := 0, sub := 0, rce := 15, stamp := 0, src := 0x50, ord := 0 }
      let s := stJ [] { eng0 with reqs := [q] }
      (s.rceRt 15).run = none ∧ s.ras.sweepBusy = false ∧ q ∈ s.eng.reqs ∧ (∀ p ∈ s.eng.reqs, p.rce = 15 → p ≠ q → q.before p = true)
        ∧ s.mayServe (0x50 + 15) q.stamp = true
        ∧ (∀ p ∈ s.eng.reqs, p.rce ≠ 0)) := by decide +kernel

/-- RCE 0 runs request `sub` of a job that has given `parts`. -/
def stRun (b : Bytes) (sub : Nat) (parts : List (Option SubOut)) (places : List (Nat × Nat)) (mem : List Host.Cell) : State :=
  stJ mem { eng0 with jobs := [{ from_ := sub0 b, subs := parts, places := places, len := 0 }],
                      rce := [(0, { RceRt.reset with run := some { job := 0, sub := sub, rce := 0, stamp := 0, src := 0x50, ord := 0 } })], ord := 1 }
/-- The frame of element (index 0, mean 0, latent 0). -/
def coded0 : Bytes :=
  let s := stRun (job0 1 1) 0 [none] [] []
  (encodeSub ((s.elems (sub0 (job0 1 1)) 0 1).zip (s.jobY (sub0 (job0 1 1)) 0 1))).1
def frame0 : Bytes := hcfFrame 1 0 0 (agreement [0] [0]) 1 [coded0]
def memF (b : Bytes) : List Host.Cell := Mem.write [] 66688 b

theorem witness_RceCodesAndAssembles :
    ((stRun (job0 1 1) 0 [none] [] []).running 0
        = some ({ job := 0, sub := 0, rce := 0, stamp := 0, src := 0x50, ord := 0 },
            { from_ := sub0 (job0 1 1), subs := [none], places := [], len := 0 })
      ∧ (stRun (job0 1 1) 0 [none] [] []).jobPoison (sub0 (job0 1 1))
          ([((sub0 (job0 1 1)).job.y, 2)] ++ (stRun (job0 1 1) 0 [none] [] []).subReads (sub0 (job0 1 1)) 0 1) = none
      ∧ (sub0 (job0 1 1)).job.op = 1 ∧ (sub0 (job0 1 1)).job.k = 1)
    ∧ (let s := stRun (job0 2 0) 0 [none] [subPlace frame0 0] (memF frame0)
      let pl := subPlace frame0 0
      (s.running 0).isSome = true ∧ (sub0 (job0 2 0)).job.op = 2
        ∧ decodeSub (s.elems (sub0 (job0 2 0)) 0 1) ((s.jobShelf (sub0 (job0 2 0))).read ((sub0 (job0 2 0)).job.frame + pl.1) pl.2) = ([0], 0, true)
        ∧ s.jobPoison (sub0 (job0 2 0)) ([((sub0 (job0 2 0)).job.frame + pl.1, pl.2)] ++ s.subReads (sub0 (job0 2 0)) 0 1) = none)
    ∧ (let s := stRun (job0 2 0) 17 [] [] (memF frame0)
      (s.running 0).isSome = true
        ∧ hcfParse (s.numeric 0).rcv 0 1 64 (s.frameOfJob (sub0 (job0 2 0))) = some ((s.numeric 0).ftab, agreement [0] [0], [coded0])
        ∧ agreement (s.jobSig (sub0 (job0 2 0)) 0 1) (s.jobMu (sub0 (job0 2 0)) 0 1) = agreement [0] [0])
    ∧ (let s := stRun (job0 2 0) 17 [] [] []
      hcfParse (s.numeric 0).rcv 0 1 64 (s.frameOfJob (sub0 (job0 2 0))) = none ∧ s.task? (s.slot 0 0).task = some task0)
    ∧ (let f := hcfFrame 1 0 1 (agreement [0] [0]) 1 [coded0]
      hcfParse 1 0 1 64 f = some (1, agreement [0] [0], [coded0]))
    ∧ (let f := hcfFrame 1 0 0 1 1 [coded0]
      hcfParse 1 0 1 64 f = some (0, 1, [coded0]) ∧ agreement [0] [0] ≠ 1)
    ∧ (let s := stRun (job0 1 1) 16 [some { out := coded0, chk := agreeBytes [0] [0] }] [] []
      (s.running 0).isSome = true ∧ s.canStore 0 0 (67000 + 0x28) 8 = true ∧ frame0.length ≤ 64 ∧ coded0.length ≤ 2 ^ 24)
    ∧ ((stRun (job0 2 0) 16 [some { out := [0, 0], chk := [] }] [] (memF frame0)).running 0).isSome = true :=
  ⟨by decide +kernel, by decide +kernel, by decide +kernel, by decide +kernel, by decide +kernel, by decide +kernel, by decide +kernel, by decide +kernel⟩

/-- A Pantry at the start of the Cellar with one resident graph of one segment and one ELE layer. -/
def win1 : WindowCfg := { base := 0, size := 2 ^ 26, tenant := 1, kind := 1, access := 0, peer := 0, leaseUs := 0 }
def ent1 : PEntry :=
  { graph := 8, room := 0, state := 1, code := 0, imageOff := 4096, poison := 0, gd := [], wd := [], length := 0, woff := 0,
    inMin := 0, inMax := 0, stateBytes := 0, segs := [], first := 0, rce := false, eles := [0], runs := [], held := false }
def layer0 : Layer :=
  { eng := 0, isl := 0, slot := 0, task := 0, room := 0, idx := 0, out := false, epc := 0, stamp := 0, src := 0x10, ord := 0,
    rows := 1, cols := 512,
    landed := 0, state := [], input := [], want := 0, tainted := false, chunks := 0, computed := false, output := [], filled := 0 }
/-- Header with one segment and one layer, the layer record (kind 2, ELE 0, parameters at 256), and the parameters. -/
def image1 (kind : Nat) : List Host.Cell :=
  Mem.write (Mem.write (Mem.write (Mem.write (Mem.write [] (4096 + 0x0A) (le 1 1 ++ le 1 0 ++ le 2 1)) (4096 + 96) (le 1 2))
    (4096 + 96 + 0x1C) (le 4 256)) (4096 + 256) (le 1 kind ++ le 1 16 ++ le 1 1 ++ le 1 1 ++ le 1 1 ++ le 1 1 ++ le 1 1 ++ le 1 1))
    (4096 + 256 + 16) (le 1 0x10 ++ le 1 0 ++ le 2 1 ++ le 4 0 ++ le 4 0x3F800000 ++ le 4 66560)
def stE (kind : Nat) (e : Engines) (t : Task) (mem : List Host.Cell) : State :=
  { stewT slot0 t (fun i => { i with shelf := { mem := mem, poison := [] } }) with
    living := { live0 with windows := [(0, win1)] }
    pantry := [(0, { entries := [(0, ent1)], req := none, queued := none })]
    cellar := { State.reset.cellar with store := { mem := image1 kind, poison := [] } }
    eng := e }
def engL (l : Layer) : Engines := { eng0 with ele := [(0, { EleRt.reset with layer := some l })] }
def stateTask : Task := { task0 with ent := { task0.ent with raw := le 1 1 ++ le 1 0 ++ le 2 5 ++ zeros 60 }, stateBytes := 256 }

theorem witness_EleRunsItsLayerChunkByChunk :
    (let s := stE 0 { eng0 with eleIn := [layer0] } task0 []; s.ras.sweepBusy = false ∧ (s.eleRt 0).layer = none ∧ layer0 ∈ s.eng.eleIn ∧ layer0.eng = 0
        ∧ (∀ m ∈ s.eng.eleIn, m.eng = 0 → m ≠ layer0 → layer0.before m = true) ∧ s.mayServe 0x60 layer0.stamp = true
        ∧ (TElem.of 0x12).isSome = true ∧ ((s.slot 0 0).tags.all (fun e => !e.2.waits)) = true ∧ (s.eleOf layer0).isSome = true
        ∧ s.task? 0 = some task0 ∧ ((s.eleOf layer0).map (fun x => stateAt task0 x.1)) = some none)
    ∧ (let s := stE 0 { eng0 with eleIn := [layer0] } stateTask []
      ((s.eleOf layer0).map (fun x => (stateAt stateTask x.1).map
        (fun a => (s.cellarView stateTask).poisonIn lineB a x.1.stateBytes))) = some (some none))
    ∧ (let l := { layer0 with landed := 1008 }
      let s := stE 0 (engL l) task0 []
      s.task? l.task = some task0 ∧ (s.eleRt 0).layer = some l ∧ l.computed = false ∧ l.landed ≠ 0
        ∧ (s.eleOf l).map (fun x => (decide (l.landed < x.1.rawBytes (l.rows * l.cols) x.1.cin - l.input.length),
            (s.island x.1.feed).shelf.poisonIn wordB x.1.buf l.landed)) = some (true, none))
    ∧ (let l := { layer0 with out := true, computed := true, output := zeros 1025 }
      let s := stE 2 (engL l) task0 []
      s.task? l.task = some task0 ∧ (s.eleRt 0).layer = some l ∧ (s.eleOf l).isSome = true ∧ l.filled = 0 ∧ l.output ≠ [])
    ∧ (let l := { layer0 with out := true, computed := true }
      let s := stE 2 (engL l) task0 []
      s.task? l.task = some task0 ∧ (s.eleRt 0).layer = some l ∧ (s.eleOf l).isSome = true ∧ l.output = []
        ∧ s.task? (s.slot 0 0).task = some task0) := by decide +kernel

end Sys2Proof.Tests
end

