-- ==== Sys2Proof/Tests/Witness3.lean ====
section
/-! SUPPORT. Witnesses of statements: registers, transactions, the Hatch, kills and resets. -/

namespace Sys2Proof.Tests

open Sys2Proof Sys2Proof.Machine

-- The theorems of this file are checked one after another, which bounds the memory that a check takes.
set_option Elab.async false

/-! ### Small states -/

def ten1 : TenantCfg := { qbase := 0, qcount := 2, crbase := 0, crcount := 1, flags := 7 }
def qmap0 : QMapCfg := { firstQ := 0, count := 2, room := 0, cring := 0, crspan := 1 }
/-- Room 0 of tenant 1 with queues 0 and 1 and ring 0. -/
def live1 : ConfigSet :=
  { live0 with tenants := [(1, ten1)], qmaps := [(0, qmap0)], numerics := [(0, { NumericCfg.default with family := 3 })] }
def tenU : TenUnit :=
  { State.reset.ten with vfEnable := true, numVfs := 1, tenants := [(1, { TenRt.reset with st := .active })],
                         rooms := [(0, { RoomRt.reset with st := .serving })] }
/-- A device that is up and READY, with room 0 of tenant 1 SERVING, GTC 100. -/
def stOn : State :=
  { State.reset with
    plat := { State.reset.plat with power := .d0, ready := true },
    clk := { State.reset.clk with gtc := 100, valid := true },
    living := live1, attic := live1, ten := tenU }
def txn0 : TxnUnit := State.reset.txn
def stTxn (c : Txn) : State := { stOn with txn := { txn0 with chip := c } }
def stHatch (h : Hatch) (c : Txn) : State := { stOn with txn := { txn0 with chip := c, hatch := h } }
theorem noStartWaits_of (s : State) (h : s.cell.spans = []) : s.noStartWaits := by
  intro m; simp [State.spanRt, h, NMap.getD, NMap.find?, SpanRt.reset]
/-- With one task of the room live. -/
def withTask (t : Task) (x : Slot) (s : State) : State :=
  { s with tasks := { live := [(0, t)], next := 1 }, isl := [(0, { Isl.reset with run := some 0, slots := [(0, x)] })] }

/-! ### 05: registers and transactions -/

def acc (size off : Nat) : Access := { fn := 0, bar2 := false, off := off, size := size }
theorem witness_ImproperAccessesDoNothing :
    ((acc 4 0).size ≠ 8 ∧ ¬((acc 4 0).bar2 = true ∧ 0x1000 ≤ 0)) ∧ (acc 8 4).off % 8 ≠ 0
      ∧ (let a : Access := { fn := 1, bar2 := true, off := 0xFFC, size := 4 };
        ¬(a.bar2 = true ∧ 0x1000 ≤ a.off ∧ a.off < 0x2000) ∧ a.size ≠ 8) := by decide +kernel

theorem witness_RegistersFollowTheirAccessTypes :
    stOn.mainOn = true ∧ stOn.plat.ready = true ∧ (rwtMask 0x180000).isSome = true ∧ (rwtMask 0x181FF8).isSome = true
      ∧ 0x182000 % 8 = 0 ∧ 0x19FFF8 < 0x1A0000 ∧ (rwtMask 0x208).isSome = true ∧ (rwtMask 0x10018).isNone = true
      ∧ (let s := stOn.setB2 1 0x5010 (BitVec.ofNat 64 (offStewCfg 0 + 2 ^ 25));
        let w := s.b2 1 0x5010;
        s.tenActive 1 = true ∧ bitOf w 25 = true ∧ (0, room0) ∈ s.living.rooms ∧ room0.tenant = 1
          ∧ fld w 0 25 ∈ s.scopeOffs 0 ∧ (rwtMask (fld w 0 25)).isSome = true)
      ∧ bitOf (stOn.b2 1 0x5010) 25 = false
      ∧ (let s := { stOn with ten := { tenU with tenants := [(1, { TenRt.reset with st := .active, fault := 6 })] } };
        (s.tenant 1).fault &&& 2 ≠ 0 ∧ (s.tenant 1).fault &&& 1 = 0)
      ∧ (∀ e ∈ stOn.living.rooms, e.2.tenant = 1 → fld (stOn.b2 1 0x5010) 0 25 ∉ stOn.scopeOffs e.1) := by decide +kernel

def openT : Txn := { Txn.reset with st := .opened, token := 1 }
theorem witness_RwtWritesLandOnlyWhileOpen :
    (rwtMask 0x208).isSome = true ∧ (stTxn openT).txn.chip.st = .opened ∧ stOn.txn.chip.st ≠ .opened := by decide +kernel

/-- Room 0's transaction open with token 2, and BAR2's token and address set to it. -/
def stRoomTxn : State :=
  ({ stOn with txn := { txn0 with rooms := [(0, { openT with token := 2 })] } }).setB2 1 0x5010
    (BitVec.ofNat 64 (offStewCfg 0 + 2 * 2 ^ 32))
theorem witness_TransactionsOpenAndEnd :
    (stOn.txn.chip.st = .idle ∧ stOn.roomTxns = []) ∧ stRoomTxn.roomTxns ≠ []
    ∧ ((stTxn openT).txn.chip.st ≠ .idle ∧ (stTxn openT).txn.chip.token ≠ 0 ∧ (stTxn openT).txn.chip.st = .opened
      ∧ (stTxn openT).txn.loader.busy = false ∧ (stTxn openT).clk.valid = true)
    ∧ ((stTxn { openT with st := .validating }).txn.chip.st = .validating ∧ (stTxn { openT with st := .hatching }).txn.chip.st = .hatching)
    ∧ (stOn.tenActive 1 = true ∧ stOn.roomCfg? 0 = some room0 ∧ room0.tenant = 1 ∧ stOn.tenantCfg? 1 = some ten1
      ∧ nbit ten1.flags 1 = true ∧ (stOn.txnAt 0).st = .idle ∧ stOn.roomTxns.length < 64)
    ∧ nbit ({ ten1 with flags := 1 }).flags 1 = false
    ∧ (0 ∈ stRoomTxn.roomTxns ∧ (stRoomTxn.txnAt 0).token = fld (stRoomTxn.b2 1 0x5010) 32 8 ∧ (stRoomTxn.txnAt 0).st = .opened
      ∧ (∀ k ∈ stRoomTxn.roomTxns, (stRoomTxn.txnAt k).token = 2 → k = 0)
      ∧ fld (stRoomTxn.b2 1 0x5010) 0 25 ∈ stRoomTxn.scopeOffs 0 ∧ (rwtMask (fld (stRoomTxn.b2 1 0x5010) 0 25)).isSome = true)
    ∧ (∀ k ∈ stOn.roomTxns, stOn.roomTenant k = 1 → (stOn.txnAt k).st = .opened → (stOn.txnAt k).token ≠ 0) := by decide +kernel

def stLoad : State :=
  { stOn with txn := { txn0 with chip := { openT with st := .loading }, loader := { txn0.loader with busy := true } } }
theorem witness_LoadsAndValidationReachTheAttic :
    ((stTxn openT).txn.loader.busy = false ∧ (stTxn openT).ras.drain = 0 ∧ (stTxn openT).txn.chip.st = .opened
      ∧ (stTxn openT).txn.chip.token = 1 ∧ (stTxn openT).txn.chip.token ≠ 2)
    ∧ (stLoad.txn.loader.busy = true ∧ stLoad.txn.chip.st = .loading ∧ stLoad.txn.chip.pendRollback = false)
    ∧ ((stTxn { openT with st := .validating }).scopeSame 64 = true)
    ∧ (let s := { stTxn { openT with st := .validating } with attic := .empty };
      s.scopeSame 64 = false ∧ s.judge 64 (some { fetched := true, block := [] }) = none)
    ∧ (let s := { stTxn { openT with st := .validating } with attic := .empty, ras := { stOn.ras with drain := 1 } };
      s.ras.drain ≠ 0 ∧ s.txn.chip.cell = false ∧ s.judge 64 (some { fetched := true, block := [] }) = some (0x8B, 0, 0)) := by
  decide +kernel

/-! ### 06: the Hatch -/

def hatch0 : Hatch := txn0.hatch
def hatching : Txn := { openT with st := .hatching }
/-- Prepare of a chip Hatch that removes room 0. -/
def hPrep : Hatch := { hatch0 with st := .prepare, cur := 64, rooms := 1, since := 100 }
def stPrep (h : Hatch) (c : Txn) : State := { stHatch h c with attic := .empty }
def queued64 : State := { stHatch { hatch0 with queue := [64] } hatching with attic := .empty }

theorem witness_HatchPreparesWaitsAndArms :
    ((let s := stHatch { hatch0 with queue := [64] } hatching;
      s.txn.hatch.st = .idle ∧ s.txn.hatch.queue = [64] ∧ (s.judge 64 none).isSome = true ∧ (s.txnAt 64).cell = false)
      ∧ queued64.judge 64 none = none ∧ queued64.affected 64 ≠ 0
      ∧ (let s := { queued64 with living := .empty };
        s.judge 64 none = none ∧ s.affected 64 = 0 ∧ (s.txnAt 64).cell = false)
      ∧ (let s := { stHatch { hatch0 with queue := [64] } { hatching with cell := true } with
          regs := [(0x10128, 0x3200050003)], living := { live1 with rwt := [(offCellCfg, 3)] },
          attic := { ConfigSet.empty with rwt := [(offCellCfg, 3)] } };
        s.judge 64 none = none ∧ s.affected 64 ≠ 0 ∧ s.knownAbort s.hatchTag = none))
    ∧ (let s := stPrep hPrep hatching;
      s.txn.hatch.st = .prepare ∧ s.txn.hatch.voted = false ∧ (s.txnAt 64).cell = false ∧ s.txn.hatch.forcing = false
        ∧ s.hatchClear = true ∧ s.quiesceTasks = [] ∧ s.openRecord = none ∧ s.clk.valid = true ∧ (s.txnAt 64).force = false)
    ∧ (stPrep hPrep hatching).noStartWaits
    ∧ (stPrep { hPrep with forcing := true } hatching).txn.hatch.forcing = true
    ∧ (let s := withTask task0 slot0 (stPrep hPrep { hatching with force := true });
      s.hatchClear = false ∧ (s.txnAt 64).force = true ∧ s.hatchTasks = [(0, task0)] ∧ s.task? 0 = some task0
        ∧ task0.slots = [(0, 0)] ∧ task0.span = none ∧ s.quiesceTasks = [] ∧ s.openRecord = none)
    ∧ ((withTask task0 slot0 (stPrep hPrep { hatching with force := true })).slot 0 0).st.live :=
  ⟨by decide +kernel, by decide +kernel, noStartWaits_of _ rfl, by decide +kernel, by decide +kernel, .inr (.inl (by decide +kernel))⟩

def hArm (sc : Nat) : Hatch := { hatch0 with st := .armed, cur := sc, t := 1100 }
def stClear (h : Hatch) (st : RoomSt) : State :=
  { stHatch h hatching with ten := { tenU with rooms := [(0, { RoomRt.reset with st := st })] } }
theorem witness_HatchSwapsAtTheInstant :
    (let s := stHatch (hArm 0) Txn.reset;
      s.txn.hatch.st = .armed ∧ s.txn.hatch.heldRooms = [] ∧ s.txn.hatch.heldTenants = [] ∧ s.clk.valid = true ∧ s.txn.hatch.cur < 64)
    ∧ (let s := stHatch (hArm 64) hatching;
      s.txn.hatch.cur = 64 ∧ s.roomTxns = [] ∧ (∀ e ∈ s.living.rooms, e.1 < 64))
    ∧ (let s := stClear { hatch0 with st := .clearing, clearing := 1, clearIsl := 1 } .clearing;
      s.txn.hatch.st = .clearing ∧ (∀ m < 64, (s.room m).merged = false) ∧ bitsOf 64 s.txn.hatch.clearing = [0]
        ∧ bitOf 1 0 = true ∧ (s.room 0).st = .clearing)
    ∧ (stClear { hatch0 with st := .clearing, clearing := 1, clearIsl := 1 } .clearing).noStartWaits :=
  ⟨by decide +kernel, by decide +kernel, by decide +kernel, noStartWaits_of _ rfl⟩

/-- Members 0 and 1 commit under TAG 5; this device is member `chip`. -/
def stCell (chip : Nat) (h : Hatch) : State :=
  { stHatch h { hatching with cell := true } with
    regs := [(0x10128, 0x3200050003)], cell := { State.reset.cell with chip := chip } }
def rec5 : HatchRec := { tag := 5, members := 3, ready := 1, failed := 0, decision := none, since := 100 }
def hCell : Hatch := { hatch0 with st := .prepare, cur := 64 }
theorem witness_CellWideHatchFollowsItsOutcome :
    (stCell 1 hCell).coordinates = false
    ∧ (let s := stCell 0 { hatch0 with rec_ := some rec5 };
      s.coordinates = true ∧ s.txn.hatch.rec_ = some rec5 ∧ rec5.tag = 5 ∧ s.hatchTag = 5 ∧ rec5.decision = none
        ∧ s.hatchMembers = 3 ∧ s.hatchMembers ≠ 0 ∧ s.hatchMembers &&& (rec5.ready ||| 2 ^ 0) ≠ s.hatchMembers
        ∧ s.hatchMembers &&& (rec5.ready ||| 2 ^ 1) = s.hatchMembers ∧ s.cellHatch 5 = false)
    ∧ ((stCell 0 { hCell with rec_ := some rec5 }).cellHatch 5 = true ∧ (stCell 0 { hCell with rec_ := some rec5 }).coordinates = true)
    ∧ (stCell 0 { hCell with rec_ := some rec5 }).noStartWaits
    ∧ (∀ a ∈ [0, 9000], NMap.find? (stCell 1 { hCell with seen := [(5, (a, 2))] }).txn.hatch.seen 5 = some (a, 2))
    ∧ (let s := stCell 1 { hCell with voted := true };
      NMap.find? s.txn.hatch.seen 5 = none ∧ s.txn.hatch.st = .prepare ∧ (s.txnAt 64).cell = true ∧ s.hatchTag = 5
        ∧ s.txn.hatch.voted = true ∧ s.clk.gtc < 101 ∧ s.coordinates = false)
    ∧ (stCell 1 { hCell with voted := true }).noStartWaits ∧ (stCell 1 { hCell with st := .inDoubt }).noStartWaits
    ∧ (let s := stCell 1 { hCell with st := .inDoubt };
      s.txn.hatch.st = .inDoubt ∧ (s.txnAt 64).cell = true ∧ NMap.find? s.txn.hatch.seen s.hatchTag = none)
    ∧ ({ stOn with txn := { txn0 with resetPending := true } }).txn.resetPending = true ∧ stOn.txn.resetPending = false
    ∧ stOn.noStartWaits :=
  ⟨by decide +kernel, by decide +kernel, by decide +kernel, noStartWaits_of _ rfl, by decide +kernel, by decide +kernel,
    noStartWaits_of _ rfl, noStartWaits_of _ rfl, by decide +kernel, by decide +kernel, by decide +kernel, noStartWaits_of _ rfl⟩

/-! ### 07: kills and resets -/

def entry0 : QEntry := { raw := desc0, accGtc := 0, ord := 0, twin := none }
theorem witness_KillsAndResetsStopTheirTasks :
    (let s := withTask task0 slot0 stOn;
      s.task? 0 = some task0 ∧ task0.queue = 100 ∧ task0.span = none ∧ task0.slots = [(0, 0)] ∧ (s.slot 0 0).st ≠ .ending
        ∧ (∃ x ∈ task0.slots, x.1 = 0) ∧ task0.room = 0 ∧ task0.tenant = 1 ∧ s.runs task0 = true ∧ s.txn.hatch.st ≠ .armed)
    ∧ (withTask task0 slot0 stOn).noStartWaits
    ∧ ({ task0 with requeue := true, status := some (0x30, 0) }).requeue = true
    ∧ ((1 : Fn) ≠ 0 ∧ stOn.tenActive 1 = true ∧ stOn.ownsQueue 1 2 = false)
    ∧ (let s := stHatch { hatch0 with st := .armed, rooms := 1 } hatching;
      s.txn.hatch.st = .armed ∧ bitOf s.txn.hatch.rooms 0 = true ∧ s.tenActive 1 = true)
    ∧ (stOn.txn.hatch.st ≠ .armed ∧ (stOn.tenant (stOn.roomTenant 0)).st ≠ .resetting ∧ (stOn.room 0).st ∈ [RoomSt.serving, .held, .faulted]
      ∧ (stRoomTxn.txnAt 0).st ≠ .idle)
    ∧ ((stClear hatch0 .clearing |>.room 0).st = .clearing ∧ (stClear hatch0 .clearing).txn.hatch.st ≠ .armed
      ∧ ((stClear hatch0 .clearing).txnAt 0).st = .idle)
    ∧ (stOn.roomTenant 63 ≠ 1)
    ∧ stOn.ownsQueue 1 1 = true :=
  ⟨by decide +kernel, noStartWaits_of _ rfl, by decide +kernel, by decide +kernel, by decide +kernel, by decide +kernel, by decide +kernel,
    by decide +kernel, by decide +kernel⟩

def stReset (st : RoomSt) (ten : TenSt) : State :=
  { stOn with ten := { tenU with rooms := [(0, { RoomRt.reset with st := st })],
                                 tenants := [(1, { TenRt.reset with st := ten, scrub := [(0, 64)] })], islBusy := [0] } }
theorem witness_ResetsCompleteAndTenantsChange :
    (let s := { stOn with ten := { tenU with killBusy := true, killTids := [0, 3] } }; ∀ i ∈ s.ten.killTids, s.task? i = none)
    ∧ (0 ∈ (stReset .serving .active).ten.islBusy ∧ (stReset .serving .active).islTasks 0 = []
      ∧ (stReset .serving .active).islMerged 0 = false)
    ∧ (let s := stReset .resetting .active;
      (s.spanRt 0).waits = [] ∧ ∀ e ∈ s.living.rooms, e.1 = 0 → s.roomCfg? 0 = some e.2)
    ∧ ((stReset .resetting .active).room 0 |>.st) = .resetting ∧ (stReset .resetting .active).roomTasks 0 = []
    ∧ ((stReset .resetting .active).tenant 1).st ≠ .resetting
    ∧ ((stReset .serving .resetting).tenant 1).st = .resetting ∧ (∀ e ∈ (stReset .serving .resetting).tasks.live, e.2.tenant ≠ 1)
    ∧ ((stReset .serving .scrubbing).tenant 1).st = .scrubbing
    ∧ ((1 : Fn) ≠ 0 ∧ stOn.tenActive 1 = true ∧ stOn.txn.hatch.st ≠ .armed)
    ∧ ((stTxn openT).txn.chip.st ≠ .idle ∧ (stTxn openT).txn.hatch.st ≠ .armed)
    ∧ (stOn.plat.recovery = false
      ∧ (let now := { stOn with ten := { stOn.ten with vfEnable := false, numVfs := 63 } };
        now.tenActive 1 = false)
      ∧ (let s := { stOn with ten := .reset };
        s.tenActive 1 = false ∧ (s.tenant 1).st = .inactive
          ∧ ({ s with ten := { s.ten with vfEnable := true, numVfs := 1 } }).tenActive 1 = true)) := by decide +kernel

end Sys2Proof.Tests
end

