-- ==== Sys2Proof/Tests/Witness4.lean ====
section
/-! SUPPORT. Witnesses of statements: device resets, power, sideband, session queues, starts, twins, the Pantry and the
host windows. -/

namespace Sys2Proof.Tests

open Sys2Proof Sys2Proof.Machine

-- The theorems of this file are checked one after another, which bounds the memory that a check takes.
set_option Elab.async false

/-! ### 08: platform -/

def stPlat (f : Plat → Plat) : State := { stOn with plat := f stOn.plat }
def boot0 (fuse : Bool) : BootIn := { fuseOk := fuse, trainOk := true, bootMs := 100, speed := 5, width := 16 }
theorem witness_ResetsOfTheDeviceKeepTheirState :
    (stOn.plat.power ≠ .off ∧ stOn.perstFilter = 16 ∧ stOn.perstFilter < 17 ∧ stOn.plat.power ≠ .d3cold ∧ stOn.mainOn = true)
    ∧ (fld (0x100A5 : Word) 0 8 = 0xA5 ∧ bitOf (0x100A5 : Word) 16 = true) ∧ fld (0x100A4 : Word) 0 8 ≠ 0xA5
    ∧ (let p := State.reset.plat;
      p.power = .d0 ∧ p.ready = false ∧ p.recovery = false ∧ p.stage = 0 ∧ (boot0 false).fuseOk = false ∧ p.imageOk p.next = true)
    ∧ (let p := { State.reset.plat with imgs := [{ sigOk := false, svn := 0 }, { sigOk := true, svn := 0 }] };
      p.imageOk p.next = false ∧ p.imageOk (1 - p.next) = true)
    ∧ (let p := { State.reset.plat with svnFuse := 1 }; p.imageOk p.next = false ∧ p.imageOk (1 - p.next) = false) := by decide +kernel

theorem witness_PowerStatesFirmwareAndScan :
    stOn.plat.power = .d0 ∧ (stPlat (fun p => { p with power := .d3hot })).plat.power = .d3hot
    ∧ (stPlat (fun p => { p with power := .d3hot })).noStartWaits
    ∧ ([0x4F, 0x5F, 0x63].all (fun u => isUnit u && (stOn.roomsOn u).isEmpty && stOn.unitIdle u) = true)
    ∧ (stOn.unit 0x4F).health ≠ .verifying ∧ stOn.ras.sweepBusy = false ∧ stOn.ras.auditBusy = false
    ∧ (let p := (stPlat (fun p => { p with fwBusy := true, svnFuse := 1 })).plat; p.fwBusy = true ∧ 0 < p.svnFuse ∧ p.svnFuse ≤ 1) :=
  ⟨by decide +kernel, by decide +kernel, noStartWaits_of _ rfl, by decide +kernel⟩

def stSess (k : Nat) : State := stPlat (fun p => { p with spdm := 3, sessions := [(7, k)], ide := 1, pcieNow := 0x2410 })
theorem witness_SidebandAndMailboxAnswer :
    (stOn.mainOn = true ∧ stOn.plat.spdm < 1 ∧ (stPlat (fun p => { p with spdm := 1 })).plat.spdm < 2
      ∧ (stPlat (fun p => { p with spdm := 2 })).plat.spdm < 3)
    ∧ (3 ≤ (stSess 1).plat.spdm ∧ NMap.find? (stSess 1).plat.sessions 8 = none ∧ NMap.find? (stSess 1).plat.sessions 7 = some 1
      ∧ NMap.find? (stSess 2).plat.sessions 7 = some 2 ∧ bitOf (stSess 2).plat.pcieNow 4 = true ∧ (stSess 2).plat.ide ≠ 0)
    ∧ bitOf (stPlat (fun p => { p with spdm := 3, sessions := [(7, 2)] })).plat.pcieNow 4 = false := by decide +kernel

/-! ### 09: session queues -/

/-- Tenant 1's queue 0 on ring 0, as given; the function's queue and ring registers. -/
def stQ (q : Queue) (r : CRing) (f : FnQ → FnQ) (regs : NMap Word) : State :=
  { stOn with
    qm := { stOn.qm with queues := [(0, q)], rings := [(0, r)], hot := [0], fns := [(1, f (stOn.fnq 1))] }
    bar2 := [(1, regs)] }
def ring1 : CRing := { CRing.reset with enabled := true, log2 := 8, base := 0x1000 }
def queue1 : Queue := { Queue.reset with active := true, mode := 1, ring := 0x10000, log2 := 4 }
/-- NOP descriptor for queue 0. -/
def nop0 : Bytes := le 1 2 ++ zeros 63

theorem witness_QueuesTakeDescriptors :
    stOn.tenActive 1 = true
    ∧ stOn.ownsQueue 1 2 = false ∧ fld (2 : Word) 0 17 = 2
    ∧ ({ stOn with living := { live1 with qmaps := [] } }).queueRing 0 = none
    ∧ (let s := stQ Queue.reset ring1 id [(0x3008, 0x10000)];
      s.ownsQueue 1 0 = true ∧ s.queueRing 0 = some 0 ∧ (s.b2 1 0x3008).toNat / 4096 * 4096 ≠ 0 ∧ (s.ring 0).enabled = true
        ∧ (s.queue 0).active = false ∧ (s.queue 0).holds = 0)
    ∧ (stOn.ring 0).enabled = false ∧ (stQ queue1 ring1 id []).ownerActive 0 = true
    ∧ ((stQ { queue1 with running := 1 } ring1 id []).queue 0).holds ≠ 0
    ∧ (let s := stQ queue1 ring1 id [];
      (s.queue 0).active = true ∧ (s.queue 0).mode = 1 ∧ (16 + 2 ^ 32 - (s.queue 0).tail) % 2 ^ 32 ≤ 2 ^ (s.queue 0).log2
        ∧ ¬(17 + 2 ^ 32 - (s.queue 0).tail) % 2 ^ 32 ≤ 2 ^ (s.queue 0).log2)
    ∧ (let s := stQ { queue1 with tail := 1, asked := 1 } ring1 id [];
      s.ras.drain = 0 ∧ (s.queue 0).active = true ∧ (s.queue 0).mode = 1 ∧ s.ownerActive 0 = true ∧ (s.queue 0).fetching = [] ∧ (s.queue 0).asked = 1
        ∧ 0 ∈ s.qm.hot ∧ s.qm.hot.length ≤ 4096
        ∧ descCheck (s.ring 0).entry64 nop0 = none)
    ∧ 0 ∉ ({ stOn with qm := { stOn.qm with queues := [(0, queue1)] } }).qm.hot
    ∧ (let s := stQ { queue1 with fetching := [nop0] } ring1 id [];
      (s.queue 0).fetching = [nop0] ∧ s.ownerActive 0 = true ∧ s.ras.drain = 0 ∧ (s.makeHot 0).qm.hot.contains 0 = true ∧ (∀ d ∈ (s.queue 0).fetching, descCheck (s.ring 0).entry64 d = none))
    ∧ stOn.tenantCfg? 1 = some ten1
    ∧ (let v : Word := 0x103E800040000;
      bitOf v 48 = true ∧ fld v 0 17 = 0 ∧ fld v 17 13 = 2 ∧ fld v 32 10 = 1000)
    ∧ (let s := stQ { queue1 with mode := 2 } ring1 (fun f => { f with scanOn := true }) [(0x3058, 0x103E800040000)];
      (s.fnq 1).scanOn = true ∧ (s.queue 0).mode = 2 ∧ NMap.getD (s.fnq 1).scanned 0 0 ≠ 1 ∧ 1 ≤ 2 ^ (s.queue 0).log2) := by
  decide +kernel

theorem witness_PushWindowRingsAndPollPage :
    (let s := stQ { queue1 with mode := 0 } ring1 id [];
      s.tenActive 1 = true ∧ NMap.find? (s.fnq 1).push 63 = none ∧ nop0.length = 64 ∧ dQueue nop0 = 0 ∧ s.ownsQueue 1 0 = true
        ∧ (s.queue 0).active = true ∧ (s.queue 0).mode = 0 ∧ (s.queue 0).holds < 32 ∧ (s.queue 0).fetching = [] ∧ 0 ∈ s.qm.hot
        ∧ descCheck (s.ring 0).entry64 nop0 = none ∧ s.ras.drain = 0)
    ∧ ((stQ queue1 ring1 id []).queue 0).mode ≠ 0
    ∧ (let h : PushSlot := { held := [(0, 2)], since := 0 };
      let s := stQ queue1 ring1 (fun f => { f with push := [(63, h)] }) [];
      NMap.find? (s.fnq 1).push 63 = some h ∧ (NMap.find? h.held 0).isSome = true)
    ∧ (stOn.ringOf 1 0 = some 0 ∧ (stOn.ring 0).enabled = false ∧ bitOf (0x10010 : Word) 16 = true ∧ fld (0x10010 : Word) 0 5 = 16
      ∧ fld (0x10005 : Word) 0 5 = 5 ∧ fld (0x10011 : Word) 0 5 = 17)
    ∧ (let s := stQ Queue.reset ring1 id []; (s.ring 0).enabled = true ∧ s.ringInUse 0 = false ∧ (s.ring 0).backlog = [])
    ∧ (stQ queue1 ring1 id []).ringInUse 0 = true ∧ stOn.ringOf 1 5 = none
    ∧ stOn.pollOn 1 = false
    ∧ (let s := stQ { queue1 with waiting := [{ entry0 with raw := nop0 }] } ring1 (fun f => { f with dirty := true }) [(0x3048, 1)];
      s.pollOn 1 = true ∧ (s.fnq 1).dirty = true ∧ (s.roomCfg? 0).isSome = true ∧ s.roomTenant 0 = 1 ∧ s.roomWaiting 0 ≠ 0) := by
  decide +kernel

/-- The graph of desc0 resident in the tenant's Pantry. -/
def entG : PEntry :=
  { ent1 with graph := 1, eles := [], inMax := 4096, segs := [{ pages := 1, hold := 0, entry := 0, evec := 0 }],
              runs := [{ island := 0, prog := 0, progLen := 64, pinLen := 0 }] }
def stStart (raw : Bytes) (es : NMap PEntry) : State :=
  { stQ { queue1 with waiting := [{ entry0 with raw := raw }] } ring1 id [] with
    living := { live1 with windows := [(0, win1)] }, pantry := [(0, { entries := es, req := none, queued := none })] }
def opDesc (op : Nat) : Bytes := le 1 op ++ desc0.drop 1
theorem witness_TasksStartAndShortDescriptorsComplete :
    (let s := stStart desc0 [];
      s.nextHead 0 = some (0, entry0) ∧ dOp entry0.raw = 1 ∧ s.startCheck 0 0 entry0 = .fails 0x11 1)
    ∧ (let s := stStart desc0 [(0, entG)];
      s.nextHead 0 = some (0, entry0) ∧ s.startCheck 0 0 entry0 = .goes 0 0 entG false ∧ s.roomCfg? 0 = some room0
        ∧ s.queueRing 0 = some 0 ∧ entG.segOn 0 room0.isls ≠ [] ∧ s.freeSlot 0 room0.slots = some 0
        ∧ s.freeSlot room0.dispatcher room0.slots = some 0)
    ∧ (let s := stStart desc0 [(0, entG)];
      (s.room 0).st = .serving ∧ s.nextHead 0 = some (0, entry0) ∧ (s.resident? (s.roomTenant 0) 0 (dGraph entry0.raw)).isSome = true)
    ∧ stOn.nextHead 0 = none
    ∧ (let e := { entry0 with raw := nop0 };
      let s := stStart nop0 [];
      (s.queue 0).waiting = [e] ∧ s.queueRoom 0 = some 0 ∧ dOp e.raw = 2 ∧ s.roomHeld 0 = false ∧ s.headReady 0 0 e = true
        ∧ s.queueRing 0 = some 0 ∧ (s.ring 0).free = true ∧ (s.ring 0).backlog = [])
    ∧ (let e := { entry0 with raw := opDesc 3 };
      let s := stStart (opDesc 3) [(0, entG)];
      s.queueRoom 0 = some 0 ∧ s.nextHead 0 = some (0, e) ∧ dOp e.raw = 3 ∧ s.startCheck 0 0 e = .goes 0 0 entG false) := by decide +kernel

/-! ### 10: twins, the Pantry and the host windows -/

def stRepro (f : Repro → Repro) : State := { stOn with repro := f stOn.repro }
def stTwin (f : Repro → Repro) : State :=
  { stRepro f with living := { live1 with
      rooms := [(0, { room0 with level := 1 })], linkpols := [(7, { mode := 3, lanes := 0, protect := 0, retryUs := 0, rate := 0, peer := 5 })],
      rwt := [(offTwinCfg, 1)] } }
def twinT : Task := { task0 with ent := { task0.ent with twin := some 0 } }
def msg0 : TwinMsg := { status := 0, detail := 0, outLen := 0, nflags := 0, digest := zeros 16, checksum := 0, blocks := [] }
def stPaired (t : Task) : State := { stTwin (fun r => { r with st := .paired }) with tasks := { live := [(0, t)], next := 1 } }
def stTimed (timed tj : Nat) (live : NMap Task) : State :=
  { stPlat (fun p => { p with sensors := { p.sensors with tjC := tj } }) with
    ten := { tenU with rooms := [(0, { RoomRt.reset with st := .serving, timed := timed })] }, tasks := { live := live, next := 1 } }
theorem witness_PairingTwinsAndTimedRooms :
    ((stRepro (fun r => { r with st := .pairing })).repro.st = .pairing)
    ∧ (stOn.repro.st ≠ .pairing ∧ stOn.repro.st ≠ .paired ∧ stOn.twinPort = none)
    ∧ (let s := stTwin id;
      let x := { s.ownCheck 7 with chip := 5, peer := 0 };
      s.twinPort = some 7 ∧ s.pairJudge 7 x = 1 ∧ s.pairJudge 7 { x with chip := 6 } = 3)
    ∧ (∀ e ∈ stOn.tasks.live, e.2.ent.twin = none)
    ∧ ((stPaired task0).repro.st = .paired ∧ (stPaired task0).repro.primary = false
      ∧ (∀ e ∈ (stPaired task0).tasks.live, e.2.ent.twin = none) ∧ (stPaired task0).twinTask 100 0 = none)
    ∧ ((stPaired twinT).twinTask 100 0 = some (0, twinT) ∧ (stPaired twinT).task? 0 = some twinT ∧ twinT.comparing = false)
    ∧ (let s := { stPaired task0 with qm := { stOn.qm with queues := [(100, { Queue.reset with twinNo := 1 })] } };
      s.repro.st = .paired ∧ s.twinTask 100 0 = none ∧ 0 < (s.queue 100).twinNo ∧ (∀ e ∈ (s.queue 100).waiting, e.twin ≠ some 0)
        ∧ ¬1 < (s.queue 100).twinNo)
    ∧ (let t := { twinT with comparing := true };
      let s := stPaired t;
      s.twinTask 100 0 = some (0, t) ∧ comparable t.final.1 = true ∧ comparable msg0.status = true
        ∧ s.task? 0 = some t ∧ twinDiff (s.twinMsgOf t t.final.1 t.final.2) { msg0 with status := 1 } ≠ 0)
    ∧ (let t := { task0 with refetchAt := some 0 };
      let s := stewT slot0 t id;
      s.task? (s.slot 0 0).task = some t ∧ t.refetchAt = some 0 ∧ dInLen t.ent.raw - t.hashed.length ≠ 0 ∧ s.levelT t.room = false)
    ∧ ((stTimed 1 0 []).room 0).timed ≠ 2 ∧ ((stTimed 2 0 [(0, task0)]).room 0).timed = 2
    ∧ (stTimed 2 0 [(0, task0)]).roomRunning 0 ≠ 0 ∧ (stTimed 2 0 []).roomRunning 0 = 0
    ∧ (stTimed 2 95 []).hotJunction = true ∧ (stTimed 2 94 []).hotJunction = false := by decide +kernel

/-- A graph image: one segment with a program of 64 bytes at 0x80, one layer of engine 4, no weights. -/
def image0 : List Host.Cell :=
  Mem.write (Mem.write (Mem.write [] (4096)
    ([0x48, 0x47, 0x52, 0x46] ++ le 2 1 ++ le 2 0 ++ le 2 1 ++ le 1 1 ++ le 1 0 ++ le 2 1 ++ le 2 0 ++ le 4 192 ++ le 4 192 ++ le 4 0
      ++ le 4 4096)) (4096 + 0x40) (le 4 0x80 ++ le 4 64 ++ le 4 192 ++ le 4 0 ++ le 2 1)) (4096 + 0x60) ([4, 4] ++ zeros 18 ++ [0xFF, 0xFF])
def stPan (mem : List Host.Cell) (p : PWin) : State :=
  { stOn with living := { live1 with windows := [(0, win1)] }, pantry := [(0, p)], cellar := { stOn.cellar with store := { mem := mem, poison := [] } } }
def loads (r : Except LoadFail (Nat × PEntry)) : Bool := match r with | .ok (i, e) => i == 0 && e.graph == 1 | .error _ => false
def fails (r : Except LoadFail (Nat × PEntry)) (code : Nat) (g : Option Nat) : Bool :=
  match r with | .ok _ => false | .error f => f.code == code && f.graph == g
def pq (q : Nat × Nat × Nat × Nat × Nat) (es : NMap PEntry) : PWin := { entries := es, req := none, queued := some q }
def req0 (e : Option PEntry) : PReq :=
  { load := e.isSome, room := 0, graph := 1, seq := 9, imageOff := 4096, entry := 0, freed := false, newEntry := e }
theorem witness_PantryLoadsReplaceAndUnload :
    (let s := stPan image0 (pq (1, 0, 1, 9, 4096) []);
      s.pantryWin 0 = some win1 ∧ (s.pwin 0).queued = some (1, 0, 1, 9, 4096)
        ∧ loads ((s.modPwin 0 (fun p => { p with queued := none })).loadCheck 0 0 4096 0 0) = true ∧ s.elsewhere 0 win1.tenant 1 0 = []
        ∧ fails ((s.modPwin 0 (fun p => { p with queued := none })).loadCheck 0 0 4095 0 0) 0x17 none = true)
    ∧ (let s := stPan [] (pq (1, 0, 1, 9, 4096) []);
      fails (s.loadCheck 0 0 4096 0 0) 0x10 (some 0) = true ∧ s.resident? win1.tenant 0 0 = none ∧ (s.pwin 0).findEntry 0 0 = none ∧ (s.pwin 0).freeEntry = some 0)
    ∧ (let s := stPan image0 { entries := [], req := some (req0 (some entG)), queued := none };
      (s.pwin 0).req = some (req0 (some entG)) ∧ s.graphRuns 0 0 = false ∧ s.replaced 0 (req0 (some entG)) = []
        ∧ (entG.runs.map (·.island)).Nodup)
    ∧ ({ stPan [] { entries := [(0, entG)], req := some (req0 none), queued := none } with
          tasks := { live := [(0, task0)], next := 1 } }).graphRuns 0 0 = true
    ∧ (let s := stPan [] (pq (2, 0, 1, 9, 0) [(0, entG)]);
      (s.pwin 0).queued = some (2, 0, 1, 9, 0) ∧ (s.pwin 0).findEntry 1 0 = some (0, entG) ∧ entG.state = 1 ∧ s.graphRuns 0 0 = false
        ∧ (s.pwin 0).findEntry 2 0 = none) := by decide +kernel

/-- A host window of tenant 1 above its Pantry, and over the Pantry's request line. -/
def winH : WindowCfg := { base := 0, size := 2 ^ 27, tenant := 1, kind := 3, access := 3, peer := 0, leaseUs := 0 }
def stHost (p : PWin) : State := { stPan [] p with living := { live1 with windows := [(0, win1), (1, winH)] } }
theorem witness_HostWindowsAndScrubbers :
    (let s := stHost { entries := [(0, { entG with length := 64 })], req := none, queued := none };
      s.inBar4 0 64 = true ∧ s.inBar4 (2 ^ 27 - 1) 2 = true ∧ s.inBar4 4095 2 = true ∧ s.inBar4 (2 ^ 40) 64 = false ∧ s.hostWin 1 0 64 false = true ∧ s.scrubbing 1 = false ∧ s.hostWin 1 (2 ^ 27 - 1) 2 false = false ∧ (1 : Fn) ≠ 0
        ∧ s.hostWin 1 (2 ^ 27 - 1) 2 true = false ∧ s.hostWin 1 4095 2 true = true
        ∧ (∃ x ∈ s.guardedExtents, 4095 < x.1 + x.2 ∧ x.1 < 4095 + 2)
        ∧ (∀ x ∈ s.guardedExtents, x.1 + x.2 ≤ 4160 ∨ 4160 + 64 ≤ x.1)
        ∧ s.pantryWin 0 = some win1 ∧ (s.pwin 0).req = none ∧ (s.pwin 0).queued = none
        ∧ (let d : Bytes := [1] ++ zeros 62 ++ [1];
          s.living.windows.filter (fun e => e.2.kind == 1 && decide (0 ≤ e.2.base + 0x3F) && decide (e.2.base + 0x3F < 0 + d.length)
            && d[e.2.base + 0x3F - 0]? == some 1) = [(0, win1)]
            ∧ leAt ((s.cellar.store.write lineB 0 d).read 0 64) 0 1 = 1))
    ∧ (48 * 2 ^ 30 / 64 - 1) / 4 % 4 = (3 : Fin 4).val
    ∧ (let s := stHost { entries := [], req := none, queued := none };
      ∀ w ∈ s.pantry, ∀ e ∈ w.2.entries, ¬(win1.base + e.2.imageOff ≤ 0 ∧ 0 < win1.base + e.2.imageOff + e.2.length))
    ∧ 2 ^ 18 - 1 < 2 ^ 18 := by decide +kernel

end Sys2Proof.Tests
end

