-- ==== Sys2Proof/Tests/Witness5.lean ====
section
/-! SUPPORT. Witnesses of statements: time, links, cells, RAS, the Ledger and the Inventory, the step. -/

namespace Sys2Proof.Tests

open Sys2Proof Sys2Proof.Machine

-- The theorems of this file are checked one after another, which bounds the memory that a check takes.
set_option Elab.async false

/-! ### 11: time -/

def stClk (f : Clk → Clk) : State := { stOn with clk := f stOn.clk }
/-- A passage from stream endpoint 3 of island 0 to endpoint 0 of island 1, both in room 0. -/
def pass0 : PassageCfg := { src := 3, sink := 4, hops := 1, width := 1, route := 0 }
def stPass (st : RoomSt) (stalled : List Nat) (tags : NMap Dma) : State :=
  { stOn with
    living := { live1 with rooms := [(0, { room0 with islands := 3 })], passages := [(0, pass0)] }
    ten := { tenU with rooms := [(0, { RoomRt.reset with st := st, stalled := stalled })] }
    tasks := { live := [(0, task0)], next := 1 }
    isl := [(0, { Isl.reset with slots := [(0, { slot0 with tags := tags })] })] }
/-- A request of task 0 as a packet's, and a packet for it from Cellar controller 0 to island 0. -/
def mreq0 : MeshReq := { isl := 0, slot := 0, tag := 0, off := 0 }
def flit0 (par : BitVec 8) : MeshFlit := { data := 1 :: zeros 31, parity := par }
def packetP (seq : Nat) (h : EccResult) (par : BitVec 8) : MeshPacket :=
  { src := 0x80, dst := 0x10, entry := 0, port := 0, cls := .response, seq := seq, header := h, flits := [flit0 par], req := some mreq0 }
theorem witness_TimeAndClocksFollowTheirEvents_packets :
    ((packetRoute (packetP 0 .clean 1)).isSome = true ∧ (stDma dma0).meshSeen (packetP 0 .clean 1) = 0
      ∧ (packetP 1 .clean 1).seq ≠ (stDma dma0).meshSeen (packetP 1 .clean 1)
      ∧ packetRoute { packetP 0 .clean 1 with entry := 4 } = none)
    ∧ (packetP 0 .uncorrectable 1).header = .uncorrectable ∧ (packetP 0 .corrected 1).header ≠ .uncorrectable
    ∧ (∀ f ∈ (packetP 0 .clean 1).flits, flitOk f = true) ∧ (∃ f ∈ (packetP 0 .clean 3).flits, flitOk f = false)
    ∧ (stDma dma0).meshTag mreq0 = true ∧ (stDma dma0).tag? 0 0 0 = some dma0
    ∧ (stDma { dma0 with done := true }).meshTag mreq0 = false := by decide +kernel
def sens (tj : Nat) (cool : Bool) : Sensors := { tjC := tj, hbm0C := 0, hbm1C := 0, inletC := 0, powerW := 0, cool := cool }
theorem witness_TimeAndClocksFollowTheirEvents :
    (stOn.clk.valid = true ∧ hasCell 0x4F = true ∧ hasCell 0x90 = true ∧ (96 + (stOn.clkIsl 0x4F).offs) % 2 ^ 64 ≠ stOn.view 0x4F
      ∧ stOn.nearMaster ((96 + (stOn.clkIsl 0x4F).offs) % 2 ^ 64) = true ∧ stOn.nearMaster ((95 + (stOn.clkIsl 0x4F).offs) % 2 ^ 64) = false
      ∧ (100 + (stOn.clkIsl 0x90).offs) % 2 ^ 64 = stOn.view 0x90)
    ∧ ((-4 : Int).natAbs ≤ 4 ∧ 4 < (5 : Int).natAbs ∧ (16 : Int).natAbs ≤ 16 ∧ 16 < (17 : Int).natAbs ∧ isUnit 0x4F = true
      ∧ (stOn.unit 0x4F).health = .healthy)
    ∧ stOn.clk.refLost = false ∧ (stClk (fun c => { c with refLost := true })).clk.refLost = true
    ∧ ((stClk (fun c => { c with stepDue := some 2000 })).clk.stepDue = some 2000 ∧ stOn.levelTRuns = false)
    ∧ (let s := { stOn with living := { live1 with rooms := [(0, { room0 with level := 2 })] }, tasks := { live := [(0, task0)], next := 1 } };
      s.levelTRuns = true)
    ∧ (stOn.mainOn = true ∧ (95 ≤ (sens 95 false).tjC ∨ stOn.limitW < 0) ∧ ¬95 ≤ (sens 94 true).tjC ∧ (sens 94 true).cool = true)
    ∧ (let s := stTimed 1 0 [(0, task0)];
      0 ∈ s.living.rooms.map (·.1) ∧ (s.room 0).timed = 1 ∧ s.roomRunning 0 ≠ 0 ∧ fld (s.rwt offReproCfg) 48 8 ≤ 255)
    ∧ ((∀ e ∈ stOn.living.rooms, e.2.level ≠ 2) ∧ isDco 0x4F = true ∧ 0 < stOn.ceilNow 0x4F)
    ∧ (let s := stPass .serving [] [];
      NMap.find? s.living.passages 0 = some pass0 ∧ s.passageRoom pass0 = some 0 ∧ NMap.getD s.streams 0 [] = []
        ∧ (∀ e ∈ s.tasks.live, s.waitsOn pass0 e.1 e.2 = false))
    ∧ ((stPass .serving [0] []).room 0).stalled.contains 0 = true
    ∧ (let s := { stPass .serving [] [(0, { dma0 with cls := 3, far := 3, write := true })] with streams := [(0, [(zeros 32, false)])] };
      NMap.find? s.living.passages 0 = some pass0 ∧ s.passageRoom pass0 = some 0 ∧ NMap.getD s.streams 0 [] ≠ [] ∧ s.task? 0 = some task0
        ∧ (s.room 0).stalled.contains 0 = false ∧ (∃ e ∈ s.tasks.live, e.2.room = 0 ∧ s.waitsOn pass0 e.1 e.2 = true)
        ∧ (s.room 0).st = .serving ∧ task0.slots = [(0, 0)] ∧ (s.slot 0 0).st ≠ .ending)
    ∧ ((stPass .held [] []).room 0).st ≠ .serving := by decide +kernel

/-! ### 12: ports -/

def pol (mode peer : Nat) : LinkPolCfg := { mode := mode, lanes := 8, protect := 0, retryUs := 0, rate := 0, peer := peer }
/-- Port 7 in mode 3 to chip 5, as given. -/
def stPort (l : LPort) : State :=
  { stOn with living := { live1 with linkpols := [(7, pol 3 5)] }, link := { stOn.link with ports := [(7, l)] } }
def up7 : LPort := { LPort.reset with st := .up, peer := 5, epoch := 1 }
def held1 : Held :=
  { seq := 0, vc := 0, nblk := 1, poison := 0, ctr := 0, replays := 0, dst := 5, cost := 64, task := none, via := none,
    what := .msg { status := 0, len := 0, src := 0, tag := 0, e2e := 0, addr := 0 } (.swap 1 1) }
def lh (seq nblk : Nat) : LHdr := { vc := 0, seq := seq, ack := 4095, epoch := 1, nblk := nblk, prot := false, poison := 0, crvc := 0, crcnt := 0 }
def partner : Partner :=
  { phyOk := true, authOk := true, epoch := 1, chip := 5, mode := 3, protect := false, ownerHash := 0, pools := [], rate := 0 }
theorem witness_PortsTrainAcknowledgeAndFall :
    (((stPort LPort.reset).port 7).st = .down ∧ ((stPort LPort.reset).linkPol 7).mode ≠ 0 ∧ (stOn.linkPol 7).mode = 0)
    ∧ (let s := stPort { LPort.reset with st := .training };
      (s.port 7).st = .training ∧ partner.phyOk = true ∧ partner.authOk = true
        ∧ (∃ k ∈ s.plat.keys, k.provisioned = true ∧ k.revoked = false ∧ k.hash = partner.ownerHash)
        ∧ partner.mode = (s.linkPol 7).mode ∧ partner.protect = ((s.linkPol 7).protect == 1) ∧ s.admits 7 partner.chip = true
        ∧ s.admits 7 6 = false)
    ∧ ((stPort { LPort.reset with st := .probation }).port 7).st = .probation
    ∧ (let s := stPort up7;
      (s.port 7).st = .up ∧ (s.port 7).live = true ∧ (s.linkPol 7).lanes ≤ (8 : Fin 16).val ∧ (7 : Fin 16).val < (s.linkPol 7).lanes
        ∧ ¬((s.port 7).live = true ∧ fld (s.rwt (offLinkCfg 7)) 24 4 < (s.downsNow 7).length)
        ∧ (lh 0 0).epoch = (s.port 7).epoch % 256 ∧ ({ lh 0 0 with epoch := 2 }).epoch ≠ (s.port 7).epoch % 256
        ∧ (lh 0 0).crcnt = 0 ∧ (s.port 7).wait = [] ∧ Corrupt.tag ≠ .crc)
    ∧ (let s := stPort { up7 with downs := List.replicate 15 100 };
      (s.port 7).live = true ∧ fld (s.rwt (offLinkCfg 7)) 24 4 < (s.downsNow 7).length)
    ∧ ((stPort { LPort.reset with st := .quarantined }).port 7).st = .quarantined
    ∧ (let l := { up7 with retry := [{ held1 with replays := 8 }] };
      let fs := (l.retry.filter (fun f => decide (2048 ≤ ((lh 0 0).ack + 4096 - f.seq) % 4096))).filter
        (fun f => decide ((f.seq + 4096 - 0) % 4096 < 2048));
      ∃ f ∈ fs, 8 ≤ f.replays)
    ∧ (let l := { up7 with credits := [(0, 1022)], pool := [(0, 1024)] };
      NMap.getD l.credits 0 0 + 2 ≤ NMap.getD l.pool 0 0 ∧ NMap.getD l.pool 0 0 < NMap.getD l.credits 0 0 + 3)
    ∧ (stOn.cellMode = 0 ∧ (let s := { stPort { up7 with hbSent := 50 } with
          cell := { stOn.cell with pport := some 7 }, living := { live1 with linkpols := [(7, pol 3 5)], rwt := [(offCellCfg, 0x10001)] } };
        s.cellMode ≠ 0 ∧ s.cell.pport = some 7 ∧ (s.port 7).hbSent ≠ 0 ∧ median [2000] = 2000 ∧ median [1000] = 1000
          ∧ s.levelTRuns = false))
    ∧ (let l := { up7 with wait := [held1], credits := [(0, 2)], peerRate := 1, bucket := 63 };
      let s := stPort l;
      (s.port 7).wait = [held1] ∧ held1.dst = l.peer ∧ held1.cost ≠ 0 ∧ held1.via = none ∧ held1.nblk + 1 ≤ NMap.getD l.credits held1.vc 0
        ∧ l.retry.length < 1024 ∧ held1.cost ≤ 65536 ∧ l.bucketAt ≤ s.clk.gtc ∧ s.clk.valid = true)
    ∧ ((stPort LPort.reset).port 7).live = false := by decide +kernel

/-! ### 13: the link -/

/-- Chip 0 exports a window to chip 5 and has leased it. -/
def winX : WindowCfg := { base := 0x10000, size := 0x1000, tenant := 1, kind := 2, access := 3, peer := 5, leaseUs := 0 }
def lease5 : Lease := { chip := 5, win := 3, expiry := 1000, port := 7, us := 1000, sent := [], granted := true, used := 0 }
def stLink (f : Link → Link) : State :=
  let s := stPort up7;
  { s with living := { s.living with windows := [(3, winX)] }, link := f s.link }
def th (src addr len e2e : Nat) : THdr := { status := 0, len := len, src := src, tag := 9, e2e := e2e, addr := addr }
def req9 : RemReq :=
  { tag := 9, chip := 5, opc := 1, addr := 0, len := 64, port := 7, isl := 0, slot := 0, task := 0, dtag := 0, shelf := 66560, win := 3,
    sent := true, write := false }
def stRem (d : Dma) : State :=
  { stDma d with link := { stOn.link with reqs := [req9], ports := [(7, up7)] }, living := { live1 with linkpols := [(7, pol 3 5)] } }

theorem takes7 : (stLink id).takesFrame 7 (lh 0 8) := by unfold State.takesFrame; decide +kernel
theorem fresh5 : (stLink id).e2eNew 5 1 := by
  intro e h
  have : NMap.find? (stLink id).link.rxE2e 5 = none := by decide +kernel
  rw [this] at h; cases h

/-- The Shelf aperture of island 0's page, for a chip of the room's span. -/
def stAp : State :=
  let s := stLink id;
  { s with
    living := { s.living with rwt := [(offSpanCfg 0, 0x1010000), (offSpanDev 0 1, 5)] }
    isl := [(0, { Isl.reset with slots := [(0, { slot0 with pages := [69632] })] })] }
def seen5 (high : Nat) (l : List Nat) : Link → Link := fun k => { k with rxE2e := [(5, { high := high, seen := l })] }

theorem witness_TransactionsAndLeasesCrossTheLink :
    (stLink id).takesFrame 7 (lh 0 8)
    ∧ (hdrTo (th 5 0x10000 512 1) = (stLink id).cell.chip ∧ hdrTo (th 5 (2 ^ 49) 512 1) ≠ (stLink id).cell.chip
      ∧ (lh 0 8).nblk = cdiv (zeros 512).length 64 ∧ inAperture 0x10000 = false ∧ inAperture apertureBase = true)
    ∧ ((stLink id).exported 5 0x10FFF 2 = none ∧ (stLink id).exported 5 0x10FFF 1 = some (3, winX)
      ∧ (stLink id).requestStatus 7 5 0x10000 512 false = 3)
    ∧ (stLink (fun k => { k with granted := [lease5] })).requestStatus 7 5 0x10000 512 false = 0
    ∧ (stLink id).e2eNew 5 1 ∧ (stLink (seen5 7 [7, 6])).e2eSeen 5 6 ∧ ¬(stLink (seen5 5000 [5000])).e2eNew 5 904
    ∧ (stAp.aperture 5 (apertureBase + 69632) 64 = some (0, 69632) ∧ stAp.aperture 5 apertureBase 64 = none)
    ∧ (let d := { dma0 with cls := 5 };
      let s := stRem d;
      (th 0 0 0 0).src = s.cell.chip ∧ s.link.reqs.find? (fun r => r.tag == 9 && r.sent) = some req9
        ∧ s.link.reqs.find? (fun r => r.tag == 8 && r.sent) = none ∧ s.tag? 0 0 0 = some d ∧ d.done = false
        ∧ (s.slot 0 0).task = req9.task ∧ s.task? 0 = some task0 ∧ s.levelT task0.room = false ∧ d.len ≤ d.moved + req9.len
        ∧ s.link.reqs.find? (fun r => r.tag == 9) = some req9)
    ∧ ((stRem { dma0 with cls := 5 }).noneWaits 0 0 ∧ ({ dma0 with cls := 5 } : Dma).isOut)
    ∧ (let d := { dma0 with cls := 7, write := true, len := 128 };
      let s := stRem d;
      s.tag? 0 0 0 = some d ∧ d.moved + req9.len < d.len)
    ∧ (NMap.find? (stLink id).living.windows 3 = some winX ∧ NMap.find? (stLink id).living.windows 4 = none)
    ∧ (let k := { lease5 with sent := [(8, 40), (9, 50)] };
      let s := stLink (fun l => { l with held := [k] });
      s.heldLease? 5 3 = some k ∧ k.sent.find? (fun y => y.1 == 9) = some (9, 50) ∧ (∀ y ∈ k.sent, y.1 ≠ 7) ∧ s.link.held.filter (fun k => k.chip == 5 && k.granted) ≠ [])
    ∧ (stLink id).link.held.filter (fun k => k.chip == 5 && k.granted) = []
    ∧ (let here := fun (k : Lease) => k.chip == 5 && k.win == 3 && k.granted;
      let s := stLink (fun k => { k with held := [lease5], granted := [lease5] });
      s.link.granted.find? here = some lease5 ∧ s.link.held.find? here = some lease5 ∧ lease5.granted = true) :=
  ⟨takes7, by decide +kernel, by decide +kernel, by decide +kernel,
    fresh5,
    ⟨{ high := 7, seen := [7, 6] }, by decide +kernel⟩,
    (fun h => by have := h { high := 5000, seen := [5000] } (by decide +kernel); revert this; decide +kernel),
    by decide +kernel, by decide +kernel,
    by unfold State.noneWaits Dma.isOut; decide +kernel,
    by decide +kernel, by decide +kernel, by decide +kernel, by decide +kernel, by decide +kernel⟩

/-! ### 14: cells -/

def stCellCfg (mode : Nat) (f : Cell → Cell) : State :=
  { stOn with living := { live1 with rwt := [(offCellCfg, BitVec.ofNat 64 (3 + mode * 2 ^ 16))] }, cell := f stOn.cell }
/-- Room 0 in a span of two devices, this one at the given position; the head is chip 5. -/
def stSpan (pos : Nat) (r : SpanRt) : State :=
  { stOn with
    living := { live1 with rwt := [(offSpanCfg 0, BitVec.ofNat 64 (7 + 2 ^ 16 + pos * 2 ^ 20 + 2 ^ 24)), (offSpanDev 0 0, 5)],
                           windows := [(0, win1)] }
    cell := { stOn.cell with spans := [(0, r)] }
    pantry := [(0, { entries := [(0, entG)], req := none, queued := none })] }
def start0 (graph : Nat) : SpanStartMsg := { ref := 4, graph := graph, gd := [], wd := [], start := 0, queue := 0, desc := desc0 }
def spanT : Task := { task0 with span := some (5, 4) }
theorem witness_CellsAlignRouteAndSpan :
    ((1 / 16 = stOn.cell.chip / 16 ∧ 1 ≠ stOn.cell.chip) ∧ NMap.find? stOn.cell.maps (1 % 16) = none ∧ (stCellCfg 1 id).cellMode = 1
      ∧ (stCellCfg 2 id).cellMode = 2 ∧ stOn.cellMode ≠ 2)
    ∧ ((stCellCfg 2 (fun c => { c with ptpRun := 7 })).cell.ptpLock = false ∧ (stCellCfg 2 (fun c => { c with ptpRun := 6 })).cell.ptpRun < 7
      ∧ (stCellCfg 2 (fun c => { c with ptpLock := true, pport := some 0 })).cell.pport.isSome = true
      ∧ (stCellCfg 2 (fun c => { c with ptpLock := true })).cell.pport = none)
    ∧ (State.reset.living.isEmpty = true ∧ State.reset.attic.isEmpty = true ∧ (∀ p < 8, (State.reset.port p).st = .down)
      ∧ stOn.living.isEmpty = false)
    ∧ (let s := stSpan 0 { SpanRt.reset with st := 1 };
      s.spanHead 0 = true ∧ (s.spanRt 0).st = 1 ∧ 1 < s.spanDevs 0 ∧ 1 ∉ (s.spanRt 0).answered
        ∧ { s.spanOwn 0 with spanId := 8 } ≠ s.spanOwn 0)
    ∧ ((stSpan 0 { SpanRt.reset with st := 2 }).spanRt 0).st = 2 ∧ ((stSpan 0 SpanRt.reset).spanRt 0).st = 0
    ∧ (let s := stSpan 1 SpanRt.reset;
      s.spanMember 0 = true ∧ (s.spanRt 0).waits = [] ∧ s.spanGraph 0 (start0 2) = none ∧ s.spanGraph 0 (start0 1) = some (0, 0, entG)
        ∧ s.roomCfg? 0 = some room0 ∧ (s.room 0).st = .serving ∧ s.roomFor 0 entG.first entG = true
        ∧ entG.segOn entG.first room0.isls ≠ [] ∧ s.freeSlot 0 room0.slots = some 0)
    ∧ (let s := withTask spanT slot0 (stSpan 1 SpanRt.reset);
      s.task? 0 = some spanT ∧ 0 < s.tasks.next ∧ spanT.room = 0 ∧ spanT.span = some (5, 4) ∧ spanT.slots = [(0, 0)]
        ∧ (s.slot 0 0).st ≠ .ending) := by decide +kernel

/-! ### 15: RAS -/

def stRas (f : Ras → Ras) : State := { stOn with ras := f stOn.ras }
def unitAs (u : Nat) (x : UnitRt) (f : Ras → Ras) : State := stRas (fun r => f { r with units := [(u, x)] })
theorem witness_UnitsAreSweptTestedVerifiedAndRetired :
    (stOn.sweepRuns = true ∧ stOn.ras.sweepBusy = false ∧ (stOn.unit 0x10).health = .healthy ∧ stOn.testable 0x10 = true
      ∧ stOn.levelTBusy 0x10 = false ∧ State.reset.sweepRuns = false)
    ∧ (let s := stRas (fun r => { r with sweepUnit := 0x4F, sweepBusy := true, sweepStep := 46 });
      s.ras.sweepBusy = true ∧ s.ras.sweepStep + 1 < passLen 0x4F ∧ isUnit 0x4F = true ∧ passLen 0x4F ≤ 47 + 1)
    ∧ (let s := withTask task0 { slot0 with st := .running } (stRas (fun r => { r with sweepBusy := true }));
      s.ras.sweepForced = false ∧ s.unitIdle 0x10 = false)
    ∧ (let s := { stHatch hPrep hatching with ras := { stOn.ras with sweepBusy := true } };
      s.ras.sweepUnit = 0x10 ∧ s.unitIdle 0x10 = true ∧ s.readyInPrepare 0x10 = true ∧ s.sweepKeeps 0x10 = false)
    ∧ (bitOf (0x10063 : Word) 16 = true ∧ isUnit 0x63 = true ∧ isUnit 0x64 = false ∧ stOn.ras.auditBusy = false ∧ stOn.ras.drain = 0)
    ∧ (let s := stRas (fun r => { r with auditBusy := true, auditUnit := 0x63 }); s.ras.auditBusy = true ∧ s.auditable 0x63 = true)
    ∧ (let s := stRas (fun r => { r with auditBusy := true, auditUnit := 0x10, sweepBusy := true }); s.auditable 0x10 = false)
    ∧ (let s := stRas (fun r => { r with roomAudits := [(0, { RoomAudit.reset with todo := [0x10] })] });
      (s.roomAudit 0).todo = [0x10] ∧ s.auditable 0x10 = true)
    ∧ (let s := unitAs 0x63 { UnitRt.reset with health := .suspect } id;
      (s.unit 0x63).health = .suspect ∧ s.unitFree 0x63 = true ∧ s.auditable 0x63 = true)
    ∧ (let s := unitAs 0x63 { UnitRt.reset with health := .verifying, passes := [90, 95] } id;
      (s.unit 0x63).health = .verifying
        ∧ 3 ≤ ((s.unit 0x63).passes.filter (fun g => decide (s.clk.gtc ≤ g + 3600000000000)) ++ [s.clk.gtc]).length
        ∧ ¬(s.marginRule 0x63).2 ≤ 3 ∧ (s.marginRule 0x63).2 ≤ 4)
    ∧ (let s := withTask task0 slot0 (stRas (fun r => { r with drain := 1 }));
      s.ras.drain = 1 ∧ s.task? 0 = some task0 ∧ task0.slots = [(0, 0)] ∧ (s.slot 0 0).st ≠ .ending ∧ task0.status = none)
    ∧ (let s := stRas (fun r => { r with drain := 1, toRetire := [(0x63, 7)] }); s.ras.drain ≠ 0 ∧ s.tasks.live = [] ∧ s.ras.toRetire ≠ []) := by
  decide +kernel

/-! ### 16: the Ledger and the Inventory -/

def ev0 : Event := { gtc := 1, src := 0x10, cls := 1, code := 1, tenant := 1, sev := 2, payload := zeros 42 }
def coal0 : Coal := { cls := 1, code := 1, tenant := 1, sev := 2, first := 1, last := 1, count := 1, word0 := 0, opened := 0 }
def stLedg (f : Ledger → Ledger) : State := { stOn with ledg := f stOn.ledg }
def stStage (n : Nat) (c : List Coal) : State := stLedg (fun l => { l with stages := [(0x10, { buf := List.replicate n ev0, coal := c })] })
theorem witness_LedgerRecordsAndTheInventoryBalances :
    (let g := NMap.getD (stStage 31 []).ledg.stages 0x10 { buf := [], coal := [] }; g.buf.length < 32 ∧ g.coal = [])
    ∧ (let g := NMap.getD (stStage 32 [coal0]).ledg.stages 0x10 { buf := [], coal := [] };
      g.coal = [] ++ coal0 :: [] ∧ (coal0.cls = 1 ∧ coal0.code = 1 ∧ coal0.tenant = 1) ∧ 32 ≤ g.buf.length
        ∧ (∀ c ∈ g.coal, ¬(c.cls = 2 ∧ c.code = 1 ∧ c.tenant = 1)) ∧ g.coal.length < 4)
    ∧ (let g := NMap.getD (stStage 32 (List.replicate 4 coal0)).ledg.stages 0x10 { buf := [], coal := [] }; 4 ≤ g.coal.length)
    ∧ (let g := NMap.getD (stStage 16 [coal0]).ledg.stages 0x10 { buf := [], coal := [] };
      g.coal.find? (fun c => c.cls == 1 && c.code == 1 && c.tenant == 1) = some coal0 ∧ g.buf.length ≤ 16)
    ∧ (¬((stStage 17 [coal0]).clk.gtc ≥ coal0.opened + 1000000))
    ∧ (let x := Loss.add none 1 1 0 1 2 2; (stLedg (fun l => { l with loss := x })).ledg.loss.isSome = true ∧ stOn.ledg.full = false)
    ∧ (stOn.ledg.loss = none ∧ stOn.ledg.headEvent = none)
    ∧ ((stStage 1 []).ledg.headEvent = some ev0 ∧ (stStage 1 []).ledg.loss = none ∧ (stStage 1 []).ledg.full = false)
    ∧ (let s := stLedg (fun l => { l with log2 := 12, next := 4096, stages := [(0x10, { buf := [ev0], coal := [] })] });
      s.ledg.headEvent = some ev0 ∧ s.ledg.full = true)
    ∧ (let s := stLedg (fun l => { l with mirror := true, next := 1 }); s.ledg.mirror = true ∧ s.plat.bme = true ∧ s.ledg.mirrorNext ≠ s.ledg.next)
    ∧ (bitOf (0x100000000 : Word) 32 = true ∧ bitOf (1 : Word) 0 = true ∧ stOn.inv.busy = false)
    ∧ ({ stOn with inv := { stOn.inv with busy := true } }).inv.busy = true := by decide +kernel

/-! ### 17: the step -/

theorem witness_StepRunsTheFrontCommand : State.reset.pending = [] ∧ stOn.pending = [] ∧ stOn.clk.valid = true ∧ stOn.mainOn = true := by
  decide
theorem witness_EveryStepKeepsTheInvariant :
    State.reset.throttleOk ∧ (stPlat (fun p => { p with k := 8 })).throttleOk ∧ (stPlat (fun p => { p with k := 32 })).throttleOk :=
  ⟨⟨by decide, by decide⟩, ⟨by decide, by decide⟩, by decide, by decide⟩

end Sys2Proof.Tests
end

