-- ==== Sys2Proof/Tests/Slice0.lean ====
section
/-! SUPPORT. Tests of this model: an ill-formed term for each check of well-formedness, and small tests of one step or one
operation, whose expected values are those of the spec's worked examples and tables. -/

namespace Sys2Proof.Tests

open Sys2Proof Sys2Proof.Machine

-- The theorems of this file are checked one after another, which bounds the memory that a check takes.
set_option Elab.async false

/-! ### Ill-formed commands: one term per check -/

def bad (l : List Instr) : Bool := l.all (fun i => !i.wellFormed)
def at0 (off size : Nat) : Access := { fn := 0, bar2 := false, off := off, size := size }
def at2 (off size : Nat) : Access := { fn := 0, bar2 := true, off := off, size := size }

theorem test_ill_formed_accesses : bad [
    .rcRead (at0 0 3), .rcRead (at0 4 8), .rcRead (at0 0x2000000 8), .rcRead (at2 0x10000 8), .registerWrite (at0 2 4) 0,
    .registerWrite (at0 0 4) 0x100000000, .registerWrite (at0 0 1) 0x100, .rwtWrite 0x2000000 0, .rwtWrite 4 0] = true := by
  decide

theorem test_ill_formed_transactions : bad [
    .commit .pf0 256 false false false, .rollback .pf0 256, .keepalive .pf0 256, .idleTimeout 65,
    .validationDone 65 { fetched := false, block := [] }, .validationDone 0 { fetched := true, block := [0] },
    .layoutGo 256 false, .layoutLoadDone [] (some 0x100000), .hatchVote 16 true 0, .hatchSwapMsg 0 (2 ^ 64),
    .hatchAbortMsg 0 (2 ^ 16), .inDoubtQuery (.swap (2 ^ 64)), .inDoubtQuery (.abort (2 ^ 16))] = true := by decide

theorem test_ill_formed_queues : bad [
    .taskKill 0 (2 ^ 17) false, .vfEnableChange true 65536, .queueActivate 0 4 0, .queueActivate 0 0 32,
    .ringEntryFetch (2 ^ 17) [] true, .ringEntryFetch 0 [] false, .ringEntryFetch 0 (zeros 63) false, .pushWrite 0 0 [],
    .pushWrite 0 4096 [0], .pushTimeout 0 64, .ringScan 0 (zeros 3) false, .contextFetchDone (2 ^ 17), .nop (2 ^ 17),
    .stateZero (2 ^ 17), .crHeadWrite 0 128 0] = true := by decide

def res0 : DmaResult := { data := [], bad := [], err := false, stall := 0 }
def check0 : TwinCheck := { chip := 0, peer := 0, rooms := 0, words := [] }

theorem test_ill_formed_units : bad [
    .dmaComplete 0 0 0 { res0 with bad := [(0, 1)] }, .gridOpDone 0 ⟨.once 256, []⟩, .gridOpDone 0 ⟨.twice 0 256, []⟩,
    .pair (some { check0 with chip := 2 ^ 15 }), .pair (some { check0 with peer := 2 ^ 15 }),
    .pair (some { check0 with words := [(64, 0, 0)] }), .pair (some { check0 with words := [(0, 3, 0)] }),
    .twinStartMsg (2 ^ 17) 0 0, .twinStartMsg 0 0 3, .twinCompare (2 ^ 17) 0 msg0, .twinCompare 0 0 { msg0 with status := 256 },
    .twinCompare 0 0 { msg0 with detail := 65536 }, .twinCompare 0 0 { msg0 with outLen := 2 ^ 32 },
    .twinCompare 0 0 { msg0 with nflags := 65536 }, .twinCompare 0 0 { msg0 with digest := [] }, .bar4Read 0 0 0,
    .bar4Read 0 (2 ^ 36) 1, .bar4Write 0 0 [], .bar4Write 0 (2 ^ 36) [0], .cellarScrub 0 (2 ^ 58) .clean,
    .shelfScrub 0 (2 ^ 18) .clean] = true := by decide

def sens0 : Sensors := sens 0 true
def packet0 : MeshPacket := { src := 0, dst := 0, entry := 0, port := 0, cls := .request, seq := 0, header := .clean, flits := [], req := none }

theorem test_ill_formed_clocks : bad [
    .meshPacketArrive { packet0 with src := 4096 }, .meshPacketArrive { packet0 with dst := 4096 }, .meshPacketArrive { packet0 with flits := [{ data := [], parity := 0 }] }, .requestTimeout 0 0 4096 0,
    .requestTimeout 0 0 0 8, .passageStall 1024, .gtcFullValue 4096 0, .gtcFullValue 0 (2 ^ 64), .gtcErrMeasure 4096 0 0,
    .thermalStep { sens0 with tjC := 256 }, .thermalStep { sens0 with hbm0C := 256 }, .thermalStep { sens0 with hbm1C := 256 },
    .thermalStep { sens0 with inletC := 256 }, .thermalStep { sens0 with powerW := 4096 }, .dcoRetune 4096] = true := by decide

def lh0 : LHdr := lh 0 0
def th0 : THdr := th 0 0 0 0

theorem test_ill_formed_link_frames : bad [
    .creditFrame 0 { lh0 with vc := 16 }, .creditFrame 0 { lh0 with seq := 4096 }, .creditFrame 0 { lh0 with ack := 4096 },
    .creditFrame 0 { lh0 with epoch := 256 }, .creditFrame 0 { lh0 with nblk := 9 }, .creditFrame 0 { lh0 with poison := 256 },
    .creditFrame 0 { lh0 with crvc := 16 }, .creditFrame 0 { lh0 with crcnt := 64 }, .read 0 lh0 { th0 with status := 256 },
    .read 0 lh0 { th0 with len := 513 }, .read 0 lh0 { th0 with src := 2 ^ 15 }, .read 0 lh0 { th0 with tag := 65536 },
    .read 0 lh0 { th0 with e2e := 2 ^ 32 }, .read 0 lh0 { th0 with addr := 2 ^ 64 }, .readResp 0 lh0 { th0 with len := 1 } [],
    .write 0 lh0 { th0 with len := 1 } [], .coll 0 lh0 { th0 with len := 1 } [], .writeAck 0 { lh0 with vc := 16 } th0,
    .heartbeat 0 lh0 (2 ^ 32) 0 0 0, .heartbeat 0 lh0 0 (2 ^ 15) 0 0, .heartbeat 0 lh0 0 0 (2 ^ 64) 0,
    .heartbeat 0 lh0 0 0 0 (2 ^ 64), .nak 0 lh0 4096, .corruptFrame 0 .crc { lh0 with vc := 16 },
    .leaseReq 0 lh0 th0 256, .leaseGrant 0 lh0 th0 256 0, .leaseGrant 0 lh0 th0 0 (2 ^ 32), .leaseRenew 0 lh0 th0 [256],
    .leaseAck 0 lh0 th0 [256], .leaseRelease 0 lh0 th0 256, .leaseRenewTimer (2 ^ 15), .leaseExpiry .grantor (2 ^ 15) 0,
    .leaseExpiry .holder 0 256, .leaseIdleRelease (2 ^ 15) 0, .leaseIdleRelease 0 256, .remoteReqTimeout 65536] = true := by
  decide

theorem test_ill_formed_training : bad [
    .trainingDone 0 { partner with epoch := 2 ^ 32 }, .trainingDone 0 { partner with chip := 2 ^ 15 },
    .trainingDone 0 { partner with mode := 4 }, .trainingDone 0 { partner with ownerHash := 2 ^ 200 * 2 ^ 184 },
    .trainingDone 0 { partner with pools := [] }] = true := by decide +kernel

def ans0 : SpanAns := { spanId := 0, ndev := 0, devs := [], level := 0, parity := 0 }
def spanS : SpanStartMsg :=
  { ref := 0, graph := 0, gd := zeros 32, wd := zeros 32, start := 0, queue := 0, desc := zeros 64 }

theorem test_ill_formed_messages : bad ([
    .vote 16 true 0, .swap 0 (2 ^ 64), .abort 0 (2 ^ 16), .query 0 16, .answer 0 (.abort (2 ^ 16)), .portMap (2 ^ 15) 0 (List.replicate 8 0),
    .portMap 0 0 [], .spanAsk 64 0 0, .spanAsk 0 64 0, .spanAsk 0 0 16, .spanCheck 64 0 ans0, .spanCheck 0 16 ans0,
    .spanCheck 0 0 { ans0 with level := 3 }, .spanStart 64 spanS, .spanStart 0 { spanS with gd := [] }, .spanStop 64 0,
    .spanEnd 0 (some (256, 0)) 0 0, .spanEnd 0 (some (0, 65536)) 0 0, .twinStart (2 ^ 17) 0 0, .twinStart 0 0 3,
    .twinCompare (2 ^ 17) 0 msg0, .twinCompare 0 0 { msg0 with digest := [] }, .twinPair { check0 with chip := 2 ^ 15 },
    .align (2 ^ 15) 0, .align 0 8, .lease 0x0F [] 0, .lease 0x15 [] 0, .lease 0x10 [256] 0,
    .lease 0x10 [] (2 ^ 32)].map (Instr.msg 0 lh0 th0)) = true := by decide

theorem test_ill_formed_cells : bad [
    .portMap (2 ^ 15) 0 (List.replicate 8 0), .portMap 0 0 [], .ptpSync (2 ^ 64), .spanCheck 0 16 ans0,
    .spanCheck 0 0 { ans0 with ndev := 17 }, .spanCheck 0 0 { ans0 with devs := [(2 ^ 15, 0)] },
    .spanCheck 0 0 { ans0 with devs := [(0, 64)] }, .spanCheck 0 0 { ans0 with level := 3 },
    .spanStart 0 { spanS with queue := 2 ^ 17 }, .spanStart 0 { spanS with gd := [] }, .spanStart 0 { spanS with wd := [] },
    .spanStart 0 { spanS with desc := [] }, .spanStart 0 { spanS with graph := 65536 }] = true := by decide

theorem test_ill_formed_ras_and_ledger : bad [
    .auditTestDone none (some 65536), .verifyStart 4096, .verifyDone 4096 none, .verifyDone 0 (some 65536),
    .ledgerEvent 4096 0 0 0 0 (zeros 42), .ledgerEvent 0 256 0 0 0 (zeros 42), .ledgerEvent 0 0 65536 0 0 (zeros 42),
    .ledgerEvent 0 0 0 128 0 (zeros 42), .ledgerEvent 0 0 0 0 5 (zeros 42), .ledgerEvent 0 0 0 0 0 (zeros 41),
    .coalesceClose 4096 0 0 0, .coalesceClose 0 256 0 0, .coalesceClose 0 0 65536 0, .coalesceClose 0 0 0 128,
    .auditInstant [{ q := 16, index := 0, held := 0 }]] = true := by decide

theorem test_ill_formed_platform : bad [
    .perst 0 256, .bootReady { boot0 true with bootMs := 65536 }, .bootReady { boot0 true with speed := 8 },
    .bootReady { boot0 true with width := 32 }, .powerGate 4096, .powerWake 4096, .fwUpdateDone (.staged 64), .getCertificate 8,
    .challenge 8, .getMeasurements 256, .keyExchange (2 ^ 32), .finish (2 ^ 32) true, .keyUpdate (2 ^ 32), .endSession (2 ^ 32),
    .ideKmRequest (2 ^ 32) .query, .ideKmRequest 0 (.keyProg 8), .ideKmRequest 0 (.setGo 8), .ideKmRequest 0 (.setStop 8)]
      = true := by decide

/-- A DMA can move at most 2 MiB, and a digest refetch reads a length below 2^32; an image has at most 1 MiB. The lists that
break these bounds are named by their lengths. -/
theorem test_ill_formed_lengths (d : Bytes) (x : EccResult) :
    (2 ^ 21 < d.length → (Instr.dmaComplete 0 0 0 { res0 with data := d }).wellFormed = false)
    ∧ (2 ^ 32 ≤ d.length → (Instr.digestRefetch 0 0 d false).wellFormed = false)
    ∧ (0x100000 < d.length → (Instr.layoutLoadDone d none).wellFormed = false)
    ∧ (Instr.cellarScrub 0 0 x).wellFormed = true := by
  refine ⟨fun h => ?_, fun h => ?_, fun h => ?_, ?_⟩
  · simp [Instr.wellFormed, DmaResult.wellFormed, res0]; omega
  · simp [Instr.wellFormed]; omega
  · show (decide (d.length ≤ layoutMax) && _) = false
    rw [decide_eq_false (by unfold layoutMax; omega)]; rfl
  · simp [Instr.wellFormed]

/-! ### Words and offsets -/

/-- The registers that Table 22-17 names, as this model places them. -/
theorem test_offsets_named_by_table_22_17 :
    offViewCtrl 3 = 0x81038 ∧ offYrt 81 = 0x180288 ∧ offClkCfg 0x59 + 8 = 0x1598 := by decide

/-- The worked example of chapter 08: GRID.FMT of g6 and GRID.MMA of g5. -/
theorem test_grid_words_of_chapter_08 :
    stewEncode (.gridFmt 9 6) = some (9, 0xB0180000) ∧ stewEncode (.gridMma 9 5) = some (9, 0xB0140002) := by decide

/-- The operand word of the same example. -/
theorem test_operand_word_of_chapter_08 :
    let w := OpWord.of 0xE00220
    w.acr = 0 ∧ w.bcr = 2 ∧ w.av = 2 ∧ w.ag = 0 ∧ w.bg = 4 ∧ w.depth = 4 := by decide

/-- The worked example of chapter 11: VRSEXP, and VEC.RUN with the address in g7 and the argument in g8. -/
theorem test_vector_words_of_chapter_11 :
    vecEncode (.vrsexp 9 { vd := 2, va := 0, vb := 1, vc := 0, fmt := 0, p := 0, imm := 0x2005 }) = some (9, 0x0020050000040252)
      ∧ stewEncode (.vecRun 9 7 8) = some (9, 0xC01D0000) := by decide

/-- ADDI g5 ← g1 − 1: class 1, rd 5, rs1 1, selector 0, immediate of fifteen ones, written out by Table 7-4. -/
theorem test_addi_word : stewEncode (.addi 0 5 1 (-1)) = some (0, 0x12847FFF) := by decide

/-- An undefined class and a reserved field are ILLEGAL (R137). -/
theorem test_reserved_words :
    (stewWord 0xF0000000).isNone = true ∧ (stewWord 0x00000020).isNone = true ∧ (vecInstrWord 0xFF).isNone = true := by decide

/-! ### Bytes of records, frames and events -/

/-- The record of the worked example of chapter 06, and of its dropped variant. -/
def rec06 (status outLen qwait exec : Nat) : Rec :=
  { tag := le 8 0x9C41, session := 0x1F45, queue := 0x1005, room := 5, notask := false, status := status, broken := false,
    ext := false, solo := false, detail := 0, outLen := outLen, qwait := qwait, exec := exec, digest := [], nflags := 0, hits := 0,
    retries := 0 }
theorem test_records_of_chapter_06 :
    (rec06 0 74 80 43500).bytes true 0 false =
        [0x41, 0x9C, 0, 0, 0, 0, 0, 0, 0x45, 0x1F, 0, 0, 0x05, 0x10, 0x0A, 0, 0, 0x80, 0, 0, 0x4A, 0, 0, 0, 0x50, 0, 0, 0, 0xEC,
          0xA9, 0, 0]
      ∧ (rec06 0x60 0 5080 0).bytes true 0 false =
        [0x41, 0x9C, 0, 0, 0, 0, 0, 0, 0x45, 0x1F, 0, 0, 0x05, 0x10, 0x0A, 0, 0x60, 0x80, 0, 0, 0, 0, 0, 0, 0xD8, 0x13, 0, 0, 0, 0,
          0, 0] := by decide

/-- The LOSS record of the worked example of chapter 19, before its seal. -/
theorem test_loss_record_of_chapter_19 :
    (recordBytes 0x4B0061A92 0 0 1 0x13000 0x7F 3 (Loss.payload
      { first := 0x4B0000960, last := 0x4B0061A80, ring := 995, stage := 0, sev := 3, classes := 0x10 })).take 60 =
      [0x92, 0x1A, 0x06, 0xB0, 4, 0, 0, 0, 0, 0, 1, 0, 0, 0x30, 1, 0, 0x7F, 3, 0x60, 9, 0, 0xB0, 4, 0, 0, 0, 0x80, 0x1A, 6, 0xB0,
        4, 0, 0, 0, 0xE3, 3, 0, 0, 0, 0, 0, 0, 3, 0, 0x10, 0, 0, 0, 0, 0, 0, 0, 0, 0, 0, 0, 0, 0, 0, 0] := by decide +kernel

/-- CRC-32C of the nine digits is 0xE3069283, the check value of the polynomial that R410 names. -/
theorem test_crc32c_check_value : crc32c [0x31, 0x32, 0x33, 0x34, 0x35, 0x36, 0x37, 0x38, 0x39] = 0xE3069283 := by
  decide +kernel

/-! ### Chapter 07: the invalid stack pointer of Table 7-9 -/

def slot07 : Slot :=
  { Slot.reset with st := .running, regs := [(1, 0x140A06), (30, 0x133020), (31, 0x9C4)], pc := 0xA10, evec := 0x40,
                    full := [4, 5, 6, 7], pages := [0x140000] }
def task07 : Task :=
  Task.new 4101 5 3 { raw := le 1 1 ++ le 1 0 ++ le 2 0x21 ++ le 4 0x1F45 ++ zeros 56, accGtc := 0, ord := 0, twin := none } 0
    [(0, 0), (9, 3)] false 0 0 0 0
def st07 : State :=
  { State.reset with
      living := { live0 with rooms := [(5, { room0 with tenant := 3, islands := 0x303 })], islands := [(9, { pinKib := 1216, stackKib := 4 })] }
      isl := [(9, { Isl.reset with run := some 3, slots := [(3, slot07)], frames := 1 })]
      tasks := { live := [(0, task07)], next := 1 } }

theorem test_sp_reason_of_chapter_07 : st07.spReason 9 3 = 3 := by decide
theorem test_fault_frame_of_chapter_07 :
    (match exec (.ld 9 2 1 0) st07 with
    | .next t => (t.island 9).frame.map (·.toNat) == [0xA10, 0x12033002, 0x140A06, 0x133020, 0x9C4, 0x1F45018A1005, 0, 0x10000000000F0]
        && (t.slot 9 3).st == .stopping && (t.island 9).excEnded == 1
    | _ => false) = true := by decide

/-! ### Steward instructions -/

def after (a : Answer) (p : State → Bool) : Bool := match a with | .next t => p t | _ => false
def greg5 (a : Answer) (v : Word) : Bool := after a (fun t => t.greg 0 0 5 == v)
def regs2 (a b : Word) : State := stew { slot0 with regs := [(1, a), (2, b)] }
def ones : Word := BitVec.allOnes 64

/-- ADD and SUB wrap; MULH of −1 by 2 is −1; SRA and SRL of the top bit; SLT is signed and SLTU is not (R137). -/
theorem test_alu : greg5 (exec (.add 0 5 1 2) (regs2 ones 2)) 1 ∧ greg5 (exec (.sub 0 5 1 2) (regs2 0 1)) ones
    ∧ greg5 (exec (.mulh 0 5 1 2) (regs2 ones 2)) ones ∧ greg5 (exec (.mul 0 5 1 2) (regs2 ones ones)) 1
    ∧ greg5 (exec (.sra 0 5 1 2) (regs2 0x8000000000000000 127)) ones
    ∧ greg5 (exec (.srl 0 5 1 2) (regs2 0x8000000000000000 127)) 1 ∧ greg5 (exec (.sll 0 5 1 2) (regs2 3 63)) 0x8000000000000000
    ∧ greg5 (exec (.slt 0 5 1 2) (regs2 ones 0)) 1 ∧ greg5 (exec (.sltu 0 5 1 2) (regs2 ones 0)) 0
    ∧ greg5 (exec (.minR 0 5 1 2) (regs2 ones 0)) ones ∧ greg5 (exec (.maxR 0 5 1 2) (regs2 ones 0)) 0
    ∧ greg5 (exec (.andR 0 5 1 2) (regs2 12 10)) 8 ∧ greg5 (exec (.orR 0 5 1 2) (regs2 12 10)) 14
    ∧ greg5 (exec (.xorR 0 5 1 2) (regs2 12 10)) 6 := by decide

/-- Immediates are sign-extended; LUI shifts its immediate left by 15 (R137). -/
theorem test_immediates : greg5 (exec (.addi 0 5 1 (-1)) (regs2 0 0)) ones ∧ greg5 (exec (.andi 0 5 1 (-2)) (regs2 7 0)) 6
    ∧ greg5 (exec (.slti 0 5 1 (-1)) (regs2 (ones - 1) 0)) 1 ∧ greg5 (exec (.slli 0 5 1 63) (regs2 1 0)) 0x8000000000000000
    ∧ greg5 (exec (.srai 0 5 1 63) (regs2 0x8000000000000000 0)) ones ∧ greg5 (exec (.srli 0 5 1 63) (regs2 ones 0)) 1
    ∧ greg5 (exec (.ori 0 5 1 (-1)) (regs2 0 0)) ones ∧ greg5 (exec (.xori 0 5 1 1) (regs2 1 0)) 0
    ∧ greg5 (exec (.lui 0 5 1) (regs2 0 0)) 0x8000 ∧ greg5 (exec (.lui 0 5 (-1)) (regs2 0 0)) 0xFFFFFFFFFFFF8000 := by decide

def stMem : State :=
  stewI { slot0 with regs := [(1, 1016)] } (fun i => { i with shelf := { mem := Mem.write [] 1016 [0x80, 0xFF, 0, 0x80, 1, 0, 0, 0x90], poison := [] } })
/-- Loads are little-endian; the signed ones sign-extend (R137). -/
theorem test_loads : greg5 (exec (.lb 0 5 1 0) stMem) 0xFFFFFFFFFFFFFF80 ∧ greg5 (exec (.lbu 0 5 1 0) stMem) 0x80
    ∧ greg5 (exec (.lh 0 5 1 0) stMem) 0xFFFFFFFFFFFFFF80 ∧ greg5 (exec (.lhu 0 5 1 0) stMem) 0xFF80
    ∧ greg5 (exec (.lw 0 5 1 0) stMem) 0xFFFFFFFF8000FF80 ∧ greg5 (exec (.lwu 0 5 1 0) stMem) 0x8000FF80
    ∧ greg5 (exec (.ld 0 5 1 0) stMem) 0x900000018000FF80 := by decide

/-- JALR clears bits 1 and 0 of its target and links pc + 4; BRANCH moves by four times its offset (R137). -/
theorem test_jumps :
    after (exec (.jalr 0 31 1 3) (regs2 0x100 0)) (fun t => (t.slot 0 0).pc == 0x100 && t.greg 0 0 31 == 4 && (t.island 0).rstack == [4])
    ∧ after (exec (.branch 0 .lt 1 2 2) (regs2 ones 0)) (fun t => (t.slot 0 0).pc == 8)
    ∧ after (exec (.branch 0 .ltu 1 2 2) (regs2 ones 0)) (fun t => (t.slot 0 0).pc == 4) := by decide

/-! ### Number formats and the Grid (chapters 09 and 10) -/

def mode1 : List Val × Flags :=
  gridGroup .hf8a 1 127 ([0x5C, 0x03, 0x83, 0x83] ++ List.replicate 28 0)
def mode1b : List Val × Flags :=
  gridGroup .hf8a 1 127 ([0x5C, 0x5C, 0x03, 0x42] ++ List.replicate 28 0)
/-- The worked example of chapter 10: the group sum, into a fresh accumulator and onto 16,384; under MODE 0; and to
binary16. -/
theorem test_dot_product_of_chapter_10 :
    toAcc (dotGroup mode1.1 mode1b.1).1 = (0x4310080F60, 0) ∧ (dotGroup mode1.1 mode1b.1).2 = flNX
      ∧ toAcc ((accVal 0x4680000000).add (dotGroup mode1.1 mode1b.1).1).1 = (0x468120101F, flNX)
      ∧ (Fmt.f16.convert 1 0 (accVal 0x4310080F60)) = (0x5880, flNX) := by decide +kernel
theorem test_dot_product_under_ftz :
    toAcc (dotGroup (gridGroup .hf8a 0 127 ([0x5C, 0x03, 0x83, 0x83] ++ List.replicate 28 0)).1
      (gridGroup .hf8a 0 127 ([0x5C, 0x5C, 0x03, 0x42] ++ List.replicate 28 0)).1).1 = (0x4310000000, 0) := by decide +kernel
/-- Table 10-8: the tree against a chain. -/
theorem test_tree_and_chain_of_chapter_10 :
    let e := (toAcc (.fin false 1 (-32))).1
    let one := (toAcc (.fin false 1 0)).1
    one = 0x3F80000000 ∧ (accAdd one (accAdd e e).1).1 = 0x3F80000001 ∧ (accAdd (accAdd one e).1 e).1 = 0x3F80000000 := by
  decide +kernel

/-! ### The vector engine (chapter 11) -/

def vec11 : VecOp :=
  { vec0 with v := [(0, [0x40400000, 0x3F800000, 0, 0x40400000, 0x40000000] ++ List.replicate 123 0), (1, List.replicate 128 0x40400000)] }
def st11 : State :=
  { stewT slot0 task0 (fun i => { i with vec := [vec11], ord := 1 }) with
      living := { live0 with numerics := [(0, { NumericCfg.default with mode := 1 })] } }
/-- Instruction 2 of Table 11-9: the exponentials, and their sum 2.875 in v2. -/
theorem test_vrsexp_of_chapter_11 :
    after (exec (.vrsexp 0 { vd := 2, va := 0, vb := 1, vc := 0, fmt := 0, p := 0, imm := 0x2005 }) st11) (fun t =>
      match (t.island 0).vec with
      | [v] => (v.reg 0).take 5 == [0x3F800000, 0x3E800000, 0x3E000000, 0x3F800000, 0x3F000000] && v.lane 2 0 == 0x40380000
      | _ => false) = true := by decide +kernel
/-- Instructions 3 to 5 of Table 11-9: the reciprocal sets NX, and the stored codes are those of Table 11-10. -/
theorem test_softmax_codes_of_chapter_11 :
    let r := sfu 1 false 0 10 0x40380000
    r.2 = flNX ∧ [0x3F800000, 0x3E800000, 0x3E000000, 0x3F800000, 0x3F000000].map
      (fun e => (Fmt.bf16.convert 1 0 (Fmt.f32.load 1 (lMul 1 e r.1).1)).1) = [0x3EB2, 0x3DB2, 0x3D32, 0x3EB2, 0x3E32] := by
  decide +kernel

/-! ### The range coder (chapter 13) -/

def cdf13 : ElemCdf := elemParam 1 1 18 0
/-- Table 13-6. -/
theorem test_cdf_of_table_13_6 : cdf13.cdf = [0, 1410, 11834, 53258, 63682, 65093, 65536] ∧ cdf13.lo = -2 := by decide +kernel
def enc13 : Bytes := [0xCB, 0x59, 0x7F, 0xF8, 0x5A]
/-- Tables 13-7 and 13-8: encoding and decoding the latents 0, 1, 4, 0. -/
theorem test_encode_of_table_13_7 : encodeSub ([0, 1, 4, 0].map (fun y => (cdf13, y))) = (enc13, 1) := by decide +kernel
theorem test_decode_of_table_13_8 : decodeSub (List.replicate 4 cdf13) enc13 = ([0, 1, 4, 0], 1, true) := by decide +kernel
/-- The check and the frame of 25 bytes. -/
theorem test_frame_of_chapter_13 :
    agreement [18, 18, 18, 18] [0, 0, 0, 0] = 0x9CBE
      ∧ hcfFrame 1 1 1 0x9CBE 4 [enc13] =
        [0x48, 0x43, 1, 1, 5, 0, 0xBE, 0x9C, 4, 0, 0, 0, 0x19, 0, 0, 0, 5, 0, 0, 0, 0xCB, 0x59, 0x7F, 0xF8, 0x5A] := by decide +kernel

/-! ### Parity, the yard and the time (chapters 14, 16, 17, 22) -/

/-- The worked example of chapter 14. -/
theorem test_parity_word_of_chapter_14 :
    parityWord 2 { NumericCfg.default with mode := 1, sfu := 0, ftab := 1, outconv := 0, padc := 0, rcv := 1 } = 0x0100491A := by decide

/-- The exchange of chapter 17: θ is 17 and the path delay 192. -/
theorem test_theta_of_chapter_17 :
    let t := State.reset.parentBeat 1000000 1000209 1005000 1005175
    t.cell.thetas = [17] ∧ t.cell.delay = 192 ∧ t.clk.slewPpb = 17000 := by decide

/-- TOP_ID of a stepping B0, S grade, HB16-C device (chapter 22). -/
theorem test_top_id_of_chapter_22 :
    ({ State.reset with ident := { State.reset.ident with step := 2, grade := 2, board := 2 } }.readTop 0) = 0x000000A20B161F3A := by decide

/-! ### One step each of other commands -/

/-- A register access of four bytes has no effect (R10). -/
theorem test_narrow_write_has_no_effect : after (exec (.registerWrite (at0 0x80010 4) 5) stOn) (· == stOn) = true := by
  decide +kernel

/-- OPEN of the idle chip scope succeeds; a second OPEN keeps the token and is refused BUSY (R72, R73). -/
theorem test_open_then_busy :
    after (exec (.openTxn .pf0 true) stOn) (fun t => t.txn.chip.st == .opened &&
      after (exec (.openTxn .pf0 false) t) (fun u => u.txn.chip.token == t.txn.chip.token && u.txn.chip.st == .opened)) = true := by
  decide +kernel

/-- A seal takes the oldest staged event to ring slot 0 of a fresh Ledger (R411, R420). -/
theorem test_seal_writes_the_record :
    after (exec .ledgerSeal { stStage 1 [] with ledg := { (stStage 1 []).ledg with log2 := 12, head := 0, next := 0 } }) (fun t =>
      t.ledg.next == 1 && Mem.read t.cellar.store.mem (ledgBase) 8 == le 8 1) = true := by decide +kernel

end Sys2Proof.Tests
end

section
/-! PROOFS. Register accesses: which accesses have an effect at all, how a read and a write of PF0 reach the block that
their offset names, and which offsets name no RWT register. -/

namespace Sys2Proof.Machine

open Sys2Proof

/-! ### Accesses that have no effect -/

theorem properAccess_eq_false_iff (a : Access) : properAccess a = false ↔ a.size ≠ 8 ∨ a.off % 8 ≠ 0 := by
  simp [properAccess, ← imp_iff_not_or]

/-- A read that R10 does not admit returns 0. -/
theorem State.access_improper {a : Access} (h : properAccess a = false) (s : State) : s.access a = (0, s) := by
  simp [State.access, h]

/-- A VF reaches no register of BAR0. -/
theorem State.access_vf {a : Access} (hb : a.bar2 = false) (hf : a.fn ≠ 0) (s : State) : s.access a = (0, s) := by
  have hv : a.fn.val ≠ 0 := fun h => hf (Fin.ext h)
  simp [State.access, hb, hv]

/-- Outside the push window, a write that R10 does not admit is discarded. -/
theorem State.registerWrite_improper {a : Access} (hp : ¬(a.bar2 = true ∧ 0x1000 ≤ a.off ∧ a.off < 0x2000))
    (h : properAccess a = false) (v : Word) (s : State) : s.registerWrite a v = s := by
  have hw : ¬(a.bar2 && decide (0x1000 ≤ a.off) && decide (a.off < 0x2000)) = true := by simpa [and_assoc] using hp
  simp only [State.registerWrite, if_neg hw, h, Bool.not_false, if_true, ite_self]

theorem State.registerWrite_vf {a : Access} (hb : a.bar2 = false) (hf : a.fn ≠ 0) (v : Word) (s : State) :
    s.registerWrite a v = s := by
  have hv : a.fn.val ≠ 0 := fun h => hf (Fin.ext h)
  simp [State.registerWrite, hb, hv]

/-! ### The two commands -/

theorem exec_registerWrite (a : Access) (v : Word) (s : State) : exec (.registerWrite a v) s = .next (s.registerWrite a v) := rfl

theorem exec_rwtWrite (off : Nat) (v : Word) (s : State) : exec (.rwtWrite off v) s = .next (s.rwtWrite off v) := rfl

theorem exec_atticPeek (src : Src) (s : State) :
    exec (.atticPeek src) s = .next { s with out := { s.out with rd := s.peek src } } := rfl

/-- RC_READ puts out the value that the access gives, over the state that the access leaves. -/
theorem exec_rcRead {a : Access} {s t : State} {v : Word} (h : s.access a = (v, t)) :
    exec (.rcRead a) s = .next { t with out := { t.out with rd := v } } := by
  have e : exec (.rcRead a) s = .next ((s.access a).2.modOut (fun o => { o with rd := (s.access a).1 })) := rfl
  rw [e, h]; rfl

/-- The aligned access of 8 bytes by which PF0 reaches a register of BAR0. -/
def pf0Access (off : Nat) : Access := { fn := 0, bar2 := false, off := off, size := 8 }

theorem properAccess_pf0Access {off : Nat} (h : off % 8 = 0) : properAccess (pf0Access off) = true := by
  simp [properAccess, pf0Access, h]

theorem exec_rcRead_pf0 {s t : State} {off : Nat} {v : Word} (hm : s.mainOn = true) (h8 : off % 8 = 0)
    (h : s.bar0Read off = (v, t)) : exec (.rcRead (pf0Access off)) s = .next { t with out := { t.out with rd := v } } := by
  have e : s.access (pf0Access off) = s.bar0Read off := by
    rw [State.access, properAccess_pf0Access h8, hm]; rfl
  exact exec_rcRead (e.trans h)

theorem exec_registerWrite_pf0 {s : State} {off : Nat} (hm : s.mainOn = true) (h8 : off % 8 = 0) (v : Word) :
    exec (.registerWrite (pf0Access off) v) s = .next (s.bar0Write off v) := by
  rw [exec_registerWrite, State.registerWrite, properAccess_pf0Access h8, hm]; rfl

/-! ### Offsets that name RWT registers -/

/-- The ranges of offsets between the RWT registers: below CELL_CFG, after the clock settings (CFG and TEN), after QMGR_CFG
(QMGR and the Ledger), after TWIN_CFG, after the yard's registers, and after the islands. -/
def noRwtBlock (off : Nat) : Prop :=
  off < 0x208 ∨ (0x2000 ≤ off ∧ off < 0x40000) ∨ (0x40000 < off ∧ off < 0xA0000) ∨ (0xC0100 < off ∧ off < 0x100000)
    ∨ (0x182000 ≤ off ∧ off < 0x1A0000) ∨ 0x800000 ≤ off

theorem rwtMask_eq_none {off : Nat} (h : noRwtBlock off) : rwtMask off = none := by
  unfold noRwtBlock at h
  unfold rwtMask offCellCfg offPcieCfg offFuseCtrl offFuseAuth offQmgrCfg offReproCfg offTwinCfg
  iterate 13 rw [if_neg (by omega)]

/-- An RWT register lies below the housekeeping block, which is there before the device is READY. -/
theorem lt_of_rwtMask {off : Nat} {mask : Word} (h : rwtMask off = some mask) : off < 0x800000 := by
  by_contra hge
  simp [rwtMask_eq_none (off := off) (by unfold noRwtBlock; omega)] at h

/-- In the yard's block an RWT register is one at a multiple of 8. -/
theorem mod8_of_rwtMask_yrt {off : Nat} {mask : Word} (hl : 0x180000 ≤ off) (hu : off < 0x182000) (h : rwtMask off = some mask) :
    off % 8 = 0 := by
  unfold rwtMask offCellCfg offPcieCfg offFuseCtrl offFuseAuth offQmgrCfg offReproCfg offTwinCfg at h
  iterate 10 rw [if_neg (by omega)] at h
  rw [if_pos ⟨hl, hu⟩] at h
  by_contra hne
  simp [hne] at h

/-! ### Reads of BAR0 by block -/

/-- A read of TOP clears nothing but the power peak. -/
theorem State.bar0Read_top {off : Nat} (h : off < 0x10000) (hp : off ≠ 0x20) (s : State) :
    s.bar0Read off = (s.readTop off, s) := by
  simp [State.bar0Read, h, hp]

section
variable {s : State} (hr : s.plat.ready = true)
include hr

/-- Reading CFG_RWT_DISCARD clears its COUNT. -/
theorem State.bar0Read_discard :
    s.bar0Read 0x10018 = (packW [(0, 32, s.txn.discard), (32, 25, s.txn.discardOff)], s.modTxn (fun u => { u with discard := 0 })) := by
  simp [State.bar0Read, State.readCfg, hr]

/-- Reading the third QMGR counter register clears its four counts. -/
theorem State.bar0Read_qmgrCounts :
    s.bar0Read 0x40018 = (packW [(0, 16, s.qm.torn), (16, 16, s.qm.refused), (32, 16, s.qm.viol), (48, 16, s.qm.staleDb)],
      s.modQm (fun m => { m with torn := 0, refused := 0, viol := 0, staleDb := 0 })) := by
  simp [State.bar0Read, State.readQmgr, State.clearQmgr, hr]

/-- The yard's block holds its RWT registers, which read as their Living values, and nothing else. -/
theorem State.bar0Read_yard {off : Nat} (hl : 0x180000 ≤ off) (hu : off < 0x1A0000) :
    s.bar0Read off = (if (rwtMask off).isSome then s.rwt off else 0, s) := by
  unfold State.bar0Read
  rw [if_neg (by omega), if_neg (by omega), if_neg (by simp [hr])]
  iterate 7 rw [if_neg (by omega)]
  rw [if_pos hu]

/-! ### Writes of BAR0 by block -/

/-- A write of an RWT register of BAR0 is the RWT write. -/
theorem State.bar0Write_rwt {off : Nat} {mask : Word} (h : rwtMask off = some mask) (v : Word) :
    s.bar0Write off v = s.rwtWrite off v := by
  have hlt := lt_of_rwtMask h
  simp [State.bar0Write, h, hr, show ¬0x900000 ≤ off by omega]

/-- A write past TOP of an offset that names no RWT register goes to the unit of its block. -/
theorem State.bar0Write_unit {off : Nat} (h : noRwtBlock off) (hl : 0x10000 ≤ off) (hu : off < 0x100000) (v : Word) :
    s.bar0Write off v =
      if off < 0x20000 then s.writeCfg (off - 0x10000) v
      else if off < 0x40000 then s.writeTen (off - 0x20000) v
      else if off < 0x80000 then if off = 0x40028 then s.putReg 0x40028 (maskW [(0, 17)]) v else s
      else if off < 0xA0000 then s.writeLedg (off - 0x80000) v
      else s.writeRepro (off - 0xC0000) v := by
  have hn := rwtMask_eq_none h
  have hras : ¬off < 0xA0000 → ¬off < 0xC0000 := by unfold noRwtBlock at h; omega
  unfold State.bar0Write
  rw [if_neg (by omega), if_neg (by omega), if_neg (by simp [hr]), if_neg (by simp [hn])]
  iterate 3 refine if_congr Iff.rfl rfl ?_
  by_cases ha : off < 0xA0000
  · rw [if_pos ha, if_pos ha]
  · rw [if_neg ha, if_neg ha, if_neg (hras ha), if_pos hu]

end

/-! ### Plain RW and RO registers -/

/-- The plain RW registers of CFG, TEN, QMGR and the Ledger, each with the bits of its fields. -/
def plainRw : List (Nat × Word) :=
  [(0x10010, maskW [(0, 24)]), (0x10020, maskW [(0, 25)]), (0x10100, maskW [(0, 20)]), (0x10128, maskW [(0, 42)]),
   (0x10200, maskW [(3, 61)]), (0x20020, maskW [(0, 64)]), (0x40028, maskW [(0, 17)]), (0x80038, maskW [(0, 64)]),
   (0x80108, maskW [(0, 64)]), (0x80118, maskW [(0, 21)])]

/-- RO registers of TOP. -/
def readOnlyTop : List Nat := [0x0, 0x10, 0x18, 0x28]

/-- RO registers of CFG, TEN, QMGR, the Ledger and REPRO. -/
def readOnlyUnits : List Nat :=
  [0x10008, 0x10018, 0x10028, 0x10030, 0x10038, 0x10040, 0x10108, 0x10120, 0x10210, 0x10308, 0x20000, 0x40008, 0x40010, 0x40018,
   0x80018, 0xC0110]

theorem State.bar0Write_readOnlyTop {off : Nat} (h : off ∈ readOnlyTop) (v : Word) (s : State) : s.bar0Write off v = s := by
  have hb : off < 0x208 := by simp [readOnlyTop] at h; omega
  have hn : rwtMask off = none := rwtMask_eq_none (Or.inl hb)
  have ht : s.writeTop off v = s := by
    simp only [readOnlyTop, List.mem_cons, List.not_mem_nil, or_false] at h
    rcases h with rfl | rfl | rfl | rfl <;> rfl
  simp [State.bar0Write, hn, ht, show off < 0x10000 by omega]

section
variable {s : State} (hr : s.plat.ready = true)
include hr

/-- The unit of each plain RW register puts the bits of its fields into it. -/
theorem State.bar0Write_plainRw {r : Nat × Word} (h : r ∈ plainRw) (v : Word) : s.bar0Write r.1 v = s.putReg r.1 r.2 v := by
  have hb : ∀ r ∈ plainRw, noRwtBlock r.1 ∧ 0x10000 ≤ r.1 ∧ r.1 < 0x100000 := by simp [plainRw, noRwtBlock]
  obtain ⟨hn, hl, hu⟩ := hb r h
  rw [State.bar0Write_unit hr hn hl hu]
  simp only [plainRw, List.mem_cons, List.not_mem_nil, or_false] at h
  rcases h with rfl | rfl | rfl | rfl | rfl | rfl | rfl | rfl | rfl | rfl <;> rfl

theorem State.bar0Write_readOnlyUnits {off : Nat} (h : off ∈ readOnlyUnits) (v : Word) : s.bar0Write off v = s := by
  have hb : ∀ off ∈ readOnlyUnits, noRwtBlock off ∧ 0x10000 ≤ off ∧ off < 0x100000 := by simp [readOnlyUnits, noRwtBlock]
  obtain ⟨hn, hl, hu⟩ := hb off h
  rw [State.bar0Write_unit hr hn hl hu]
  simp only [readOnlyUnits, List.mem_cons, List.not_mem_nil, or_false] at h
  rcases h with rfl | rfl | rfl | rfl | rfl | rfl | rfl | rfl | rfl | rfl | rfl | rfl | rfl | rfl | rfl | rfl <;> rfl

/-! ### W1C: TEN_TNT_n_FAULT -/

/-- A write to the fault register of tenant `n` clears its bits. -/
theorem State.bar0Write_tenantFault (n : Fn) (v : Word) : s.bar0Write (0x21008 + 0x20 * n.val) v = s.clearFault n v := by
  have hlt := n.isLt
  rw [State.bar0Write_unit hr (by unfold noRwtBlock; omega) (by omega) (by omega), if_neg (by omega), if_pos (by omega)]
  unfold State.writeTen
  iterate 4 rw [if_neg (by omega)]
  rw [if_pos (by omega)]
  dsimp only
  rw [if_pos (by omega), show (0x21008 + 0x20 * n.val - 0x20000 - 0x1000) / 0x20 = n.val by omega]

end

/-- Clearing bits that are not set changes nothing. -/
theorem and_not_eq_self {a v : Word} (h : a &&& v = 0) : a &&& ~~~v = a := by
  ext i hi
  have hb : (a &&& v)[i] = false := by rw [h]; exact BitVec.getElem_zero hi
  rw [BitVec.getElem_and] at hb
  rw [BitVec.getElem_and, BitVec.getElem_not]
  cases ha : a[i] <;> simp_all

/-- The bits of the fault register written 1 clear, the poll page is due if one was set, and nothing else changes (R131). -/
theorem State.clearFault_spec (n : Nat) (v : Word) (s : State) :
    (s.clearFault n v).tenant n = { s.tenant n with fault := (s.tenant n).fault &&& ~~~v }
      ∧ (∀ m, m ≠ n → (s.clearFault n v).tenant m = s.tenant m)
      ∧ ((s.tenant n).fault &&& v ≠ 0 → (s.clearFault n v).fnq n = { s.fnq n with dirty := true })
      ∧ ((s.tenant n).fault &&& v = 0 → (s.clearFault n v).qm = s.qm)
      ∧ (∀ m, (s.clearFault n v).room m = s.room m) ∧ { s.clearFault n v with ten := s.ten, qm := s.qm } = s := by
  by_cases hz : (s.tenant n).fault &&& v = 0
  · have e : s.clearFault n v = s := if_pos hz
    rw [e, and_not_eq_self hz]
    exact ⟨rfl, fun _ _ => rfl, fun h => absurd hz h, fun _ => rfl, fun _ => rfl, rfl⟩
  · have e : s.clearFault n v = (s.modTen n (fun r => { r with fault := r.fault &&& ~~~v })).modFnq n (fun f => { f with dirty := true }) :=
      if_neg hz
    rw [e]
    refine ⟨?_, fun m hm => ?_, fun _ => ?_, fun h => absurd h hz, fun _ => rfl, rfl⟩
    · have := State.tenant_modTen s n n (fun r => { r with fault := r.fault &&& ~~~v })
      rwa [if_pos rfl] at this
    · have := State.tenant_modTen s n m (fun r => { r with fault := r.fault &&& ~~~v })
      rwa [if_neg (Ne.symm hm)] at this
    · rw [State.fnq_modFnq, if_pos rfl]; rfl

/-! ### ATTIC_PEEK -/

theorem State.atticValue_eq (s : State) {off : Nat} {mask : Word} (h : rwtMask off = some mask) :
    s.atticValue off = s.rwtOf s.attic off &&& mask := by
  simp [State.atticValue, h]

theorem State.atticValue_none (s : State) {off : Nat} (h : rwtMask off = none) : s.atticValue off = 0 := by
  simp [State.atticValue, h]

section
variable (s : State) (fn : Fn) (m : Room)

/-- A tenant peeks at a register that is in the scope of a room of its own. -/
theorem State.peek_tenant (ha : s.tenActive fn = true) (hp : bitOf (s.b2 fn 0x5010) 25 = true)
    (hr : ∃ e ∈ s.living.rooms, e.2.tenant = fn.val ∧ fld (s.b2 fn 0x5010) 0 25 ∈ s.scopeOffs e.1) :
    s.peek (.tenant fn m) = s.atticValue (fld (s.b2 fn 0x5010) 0 25) :=
  if_pos (by simpa [State.txwAddr, ha, hp] using hr)

theorem State.peek_tenant_closed (hp : bitOf (s.b2 fn 0x5010) 25 = false) : s.peek (.tenant fn m) = 0 :=
  if_neg (by simp [State.txwAddr, hp])

theorem State.peek_tenant_outside
    (hr : ∀ e ∈ s.living.rooms, e.2.tenant = fn.val → fld (s.b2 fn 0x5010) 0 25 ∉ s.scopeOffs e.1) :
    s.peek (.tenant fn m) = 0 :=
  if_neg (by simpa [State.txwAddr] using fun _ _ => hr)

end

end Sys2Proof.Machine
end

section
/-! PROOFS. The statements about register accesses. -/

namespace Sys2Proof.Machine

open Sys2Proof

/-- Settles O34: an access that R10 does not admit reaches no register. -/
theorem improperAccessesDoNothing : Obligations.ImproperAccessesDoNothing := by
  intro s a hwindow hsize
  have himp : properAccess a = false := (properAccess_eq_false_iff a).mpr hsize
  refine ⟨exec_rcRead (State.access_improper himp s), fun v => ?_⟩
  rw [exec_registerWrite, State.registerWrite_improper hwindow himp]

section
variable {s : State} (hm : s.mainOn = true) (hr : s.plat.ready = true)
include hm hr

theorem exec_registerWrite_plainRw {r : Nat × Word} (h : r ∈ plainRw) (v : Word) :
    exec (.registerWrite (pf0Access r.1) v) s = .next { s with regs := NMap.set s.regs r.1 (v &&& r.2) } := by
  have h8 : ∀ r ∈ plainRw, r.1 % 8 = 0 := by decide
  rw [exec_registerWrite_pf0 hm (h8 r h), State.bar0Write_plainRw hr h]; rfl

theorem exec_registerWrite_readOnly {off : Nat} (h : off ∈ readOnlyTop ++ readOnlyUnits) (v : Word) :
    exec (.registerWrite (pf0Access off) v) s = .next s := by
  have h8 : ∀ off ∈ readOnlyTop ++ readOnlyUnits, off % 8 = 0 := by decide
  rw [exec_registerWrite_pf0 hm (h8 off h)]
  rcases List.mem_append.mp h with ht | hu
  · rw [State.bar0Write_readOnlyTop ht]
  · rw [State.bar0Write_readOnlyUnits hr hu]

theorem exec_registerWrite_tenantFault (n : Fn) (v : Word) :
    exec (.registerWrite (pf0Access (0x21008 + 0x20 * n.val)) v) s = .next (s.clearFault n v) := by
  rw [exec_registerWrite_pf0 hm (by omega), State.bar0Write_tenantFault hr]

theorem exec_registerWrite_rwt {off : Nat} {mask : Word} (h8 : off % 8 = 0) (h : rwtMask off = some mask) (v : Word) :
    exec (.registerWrite (pf0Access off) v) s = exec (.rwtWrite off v) s := by
  rw [exec_registerWrite_pf0 hm h8, State.bar0Write_rwt hr h, exec_rwtWrite]

theorem exec_rcRead_yrt {off : Nat} {mask : Word} (hl : 0x180000 ≤ off) (hu : off < 0x182000) (h : rwtMask off = some mask) :
    exec (.rcRead (pf0Access off)) s = .next { s with out := { s.out with rd := s.rwt off } } := by
  apply exec_rcRead_pf0 hm (mod8_of_rwtMask_yrt hl hu h)
  rw [State.bar0Read_yard hr hl (by omega), h]; rfl

theorem exec_rcRead_yard_rest {off : Nat} (hl : 0x182000 ≤ off) (hu : off < 0x1A0000) (h8 : off % 8 = 0) :
    exec (.rcRead (pf0Access off)) s = .next { s with out := { s.out with rd := 0 } } := by
  apply exec_rcRead_pf0 hm h8
  rw [State.bar0Read_yard hr (by omega) hu, rwtMask_eq_none (by unfold noRwtBlock; omega)]; rfl

end

/-- Settles O35: the registers of BAR0 by their access types, in the order of the statement, then ATTIC_PEEK. -/
theorem registersFollowTheirAccessTypes : Obligations.RegistersFollowTheirAccessTypes := by
  refine ⟨fun s hm hr => ⟨?topId, ?empty, ?yrt, ?yard, ?discard, ?counts, ?rw, ?ro, ?w1c, ?rwt, ?vf⟩,
    fun s => ⟨?pf0, ?pf0None, fun fn m => ⟨?own, ?closed, ?outside⟩⟩⟩
  case topId => exact exec_rcRead_pf0 hm rfl (State.bar0Read_top (by decide) (by decide) s)
  case empty => exact exec_rcRead_pf0 hm rfl (State.bar0Read_top (by decide) (by decide) s)
  case yrt => exact fun off mask hl hu h => exec_rcRead_yrt hm hr hl hu h
  case yard => exact fun off hl hu h8 => exec_rcRead_yard_rest hm hr hl hu h8
  case discard => exact ⟨_, exec_rcRead_pf0 hm rfl (State.bar0Read_discard hr), rfl, rfl, rfl⟩
  case counts => exact ⟨_, exec_rcRead_pf0 hm rfl (State.bar0Read_qmgrCounts hr), rfl, rfl, rfl⟩
  case rw => exact fun r h v => exec_registerWrite_plainRw hm hr h v
  case ro => exact fun off h v => exec_registerWrite_readOnly hm hr h v
  case w1c => exact fun n v => ⟨_, exec_registerWrite_tenantFault hm hr n v, State.clearFault_spec n v s⟩
  case rwt => exact fun off mask v h8 h => exec_registerWrite_rwt hm hr h8 h v
  case vf =>
    intro a v hb hf
    exact ⟨by rw [exec_registerWrite, State.registerWrite_vf hb hf], exec_rcRead (State.access_vf hb hf s)⟩
  case pf0 =>
    intro mask h
    rw [exec_atticPeek, ← State.atticValue_eq s h]; rfl
  case pf0None =>
    intro h
    rw [exec_atticPeek, ← State.atticValue_none s h]; rfl
  case own =>
    intro mask r ha hp hroom hten hscope h
    rw [exec_atticPeek, State.peek_tenant s fn m ha hp ⟨_, hroom, hten, hscope⟩, State.atticValue_eq s h]
  case closed =>
    intro hp
    rw [exec_atticPeek, State.peek_tenant_closed s fn m hp]
  case outside =>
    intro hroom
    rw [exec_atticPeek, State.peek_tenant_outside s fn m hroom]

end Sys2Proof.Machine
end

section
/-! PROOFS. Rules that several commands share: the first of several in event order, maps and Shelves after an update, what
leaves the tasks, and events raised next to other updates. -/

namespace Sys2Proof.Machine

open Sys2Proof

/-! ### The first in an order -/

theorem firstBy_mem {α : Type} {lt : α → α → Bool} {l : List α} {a : α} (h : firstBy lt l = some a) : a ∈ l := by
  induction l with
  | nil => cases h
  | cons x r ih =>
    simp only [firstBy] at h
    cases hr : firstBy lt r with
    | none =>
      simp only [hr, Option.some.injEq] at h
      exact h ▸ List.mem_cons_self
    | some b =>
      simp only [hr] at h
      split at h
      · exact List.mem_cons_of_mem x (ih (hr.trans h))
      · exact Option.some.inj h ▸ List.mem_cons_self

/-- An element that comes before every other is the first, in an order that is asymmetric. -/
theorem firstBy_eq_some {α : Type} {lt : α → α → Bool} (hasymm : ∀ a b, lt a b = true → lt b a = false) {l : List α} {a : α}
    (ha : a ∈ l) (hlt : ∀ b ∈ l, b ≠ a → lt a b = true) : firstBy lt l = some a := by
  induction l with
  | nil => cases ha
  | cons x r ih =>
    simp only [firstBy]
    by_cases har : a ∈ r
    · rw [ih har (fun b hb => hlt b (List.mem_cons_of_mem x hb))]
      by_cases hx : x = a
      · simp [hx]
      · simp [hlt x List.mem_cons_self hx]
    · have hx : x = a := by simpa [har, eq_comm] using ha
      subst hx
      cases hr : firstBy lt r with
      | none => rfl
      | some b =>
        have hb := firstBy_mem hr
        have hne : b ≠ x := fun h => har (h ▸ hb)
        simp [hasymm x b (hlt b (List.mem_cons_of_mem x hb) hne)]

theorem evBefore_asymm (a b : Nat × Nat × Nat) (h : evBefore a b = true) : evBefore b a = false := by
  simp only [evBefore, Bool.or_eq_true, Bool.and_eq_true, Bool.or_eq_false_iff, Bool.and_eq_false_iff, decide_eq_true_eq,
    decide_eq_false_iff_not, beq_iff_eq, beq_eq_false_iff_ne] at h ⊢
  omega

/-! ### Maps and Shelves -/

theorem NMap.find?_mapV {α : Type} (m : NMap α) (f : Nat → α → α) (k : Nat) :
    NMap.find? (NMap.mapV m f) k = (NMap.find? m k).map (f k) := by
  induction m with
  | nil => rfl
  | cons e r ih =>
    obtain ⟨i, v⟩ := e
    simp only [NMap.mapV, List.map_cons, NMap.find?] at ih ⊢
    split
    · rename_i h; subst h; rfl
    · exact ih

/-- A Shelf holds no slots. -/
theorem State.slot_modShelf (n m k : Nat) (f : Store → Store) (s : State) : (s.modShelf n f).slot m k = s.slot m k := by
  unfold State.slot State.modShelf
  rw [State.island_modIsl]
  split
  · rename_i h; subst h; rfl
  · rfl

theorem State.shelf_modShelf (n : Nat) (f : Store → Store) (s : State) :
    ((s.modShelf n f).island n).shelf = f (s.island n).shelf := by
  simp [State.modShelf]

@[simp] theorem State.eleRt_modShelf (n j : Nat) (f : Store → Store) (s : State) : (s.modShelf n f).eleRt j = s.eleRt j := rfl

/-! ### Tasks -/

/-- An update of a task that keeps `g` of it keeps `g` of every task. -/
theorem State.task?_modTask_map {α : Type} {f : Task → Task} (g : Task → α) (tid i : Nat) (hg : ∀ t, g (f t) = g t) (s : State) :
    ((s.modTask tid f).task? i).map g = (s.task? i).map g := by
  rw [State.task?_modTask]
  split
  · rename_i h; subst h
    cases s.task? i <;> simp [hg]
  · rfl

/-- A slot that stops, or whose task ends, leaves the tasks. -/
theorem State.stopSlot_tasks (n k : Nat) (s : State) : (s.stopSlot n k).tasks = s.tasks := by
  unfold State.stopSlot; dsimp only; split <;> rfl

theorem State.endLead_tasks (n k : Nat) (s : State) : (s.endLead n k).tasks = s.tasks := by
  unfold State.endLead; dsimp only; split <;> rfl

theorem State.stopSlots_tasks (l : List (Nat × Nat)) (s : State) :
    (l.foldl (fun (s : State) (x : Nat × Nat) => s.stopSlot x.1 x.2) s).tasks = s.tasks :=
  List.foldlRecOn (motive := fun t : State => t.tasks = s.tasks) _ _ rfl (fun t h x _ => (State.stopSlot_tasks x.1 x.2 t).trans h)

/-! ### Events beside other updates -/

/-- A stamp is a matter of the clocks alone. -/
theorem State.stamp_of_clk {s u : State} (hc : u.clk = s.clk) (src : Nat) : u.stamp src = s.stamp src := by
  simp only [State.stamp, State.view, State.cellBefore, State.cellCount, State.clkIsl, hc]

/-- What staging leaves in the Ledger is a matter of the Ledger and of the time. -/
theorem State.stageEvent_ledg_of_eq {s u : State} (hc : u.clk = s.clk) (hl : u.ledg = s.ledg) (e : Event) :
    (u.stageEvent e).ledg = (s.stageEvent e).ledg := by
  simp only [State.stageEvent, hc, hl]
  split <;> simp only [State.modLedg_ledg, hl]

/-- An event is raised alike in states with the same clocks and Ledger. -/
theorem State.raises_emit_of_eq {s u : State} (hc : u.clk = s.clk) (hl : u.ledg = s.ledg) (src cls code ten sev : Nat)
    (words : List Nat) : s.raises src cls code ten sev words (u.emit src cls code ten sev words) := by
  have hs := State.stamp_of_clk hc src
  constructor
  · unfold State.emit
    rw [hs]
    dsimp only
    apply State.stageEvent_ledg_of_eq <;> simp [hc, hl]
  · rw [State.emit_clk, State.emit_clk, hc, hs]

end Sys2Proof.Machine
end

section
/-! PROOFS. The chip transaction: the start and the end of a layout load, and the ways a validation ends. -/

namespace Sys2Proof.Machine

open Sys2Proof

/-! ### Posting the result of a load (R67) -/

section
variable (f : LFail) (s : State)

theorem State.postLoad_txn :
    (s.postLoad f).txn = { s.txn with loader :=
      { s.txn.loader with busy := false, result := f.res, stage := f.stage, section_ := f.sec, offset := f.off } } :=
  congrArg State.txn (State.emit_only ..)

/-- Apart from the loader and the event, posting a result changes nothing. -/
theorem State.postLoad_only : { s.postLoad f with txn := s.txn, clk := s.clk, ledg := s.ledg } = s :=
  congrArg (fun x : State => { x with txn := s.txn }) (State.emit_only ..)

theorem State.postLoad_gtc : (s.postLoad f).clk.gtc = s.clk.gtc := by
  unfold State.postLoad
  rw [State.emit_clk]; rfl

end

theorem State.postLoad_raises {s u : State} (hc : u.clk = s.clk) (hl : u.ledg = s.ledg) (f : LFail) :
    s.raises 0xA0 1 4 noTenant 0 [f.res, f.stage, f.sec, f.off] (u.postLoad f) := by
  unfold State.postLoad
  exact State.raises_emit_of_eq (u := u.modLoader _) hc hl ..

/-! ### LAYOUT_GO (R65) -/

/-- The failure of a load that has no transaction to load into. -/
def noTxn : LFail := { res := 0x01, stage := 1, sec := 0xFFFF, off := 0 }

/-- TOKEN and SRC land in CFG_LAYOUT_CTRL. -/
def State.landCtrl (token : Nat) (cellar : Bool) (s : State) : State :=
  s.setReg 0x10208 (packW [(0, 8, token), (8, 1, b2n cellar)])

theorem exec_layoutGo (token : Nat) (cellar : Bool) (s : State) :
    exec (.layoutGo token cellar) s = .next (s.layoutGo token cellar) := rfl

section
variable {s : State} {token : Nat} (cellar : Bool)

/-- While a load runs, GO is discarded. -/
theorem State.layoutGo_busy (h : s.txn.loader.busy = true) : s.layoutGo token cellar = s.landCtrl token cellar :=
  if_pos h

/-- With the token of the OPEN chip transaction the load starts. -/
theorem State.layoutGo_starts (hb : s.txn.loader.busy = false) (hd : s.ras.drain = 0) (ho : s.txn.chip.st = .opened)
    (ht : s.txn.chip.token = token) :
    s.layoutGo token cellar = (s.landCtrl token cellar).modTxn (fun u =>
      { u with chip := { u.chip with st := .loading }
               loader := { u.loader with busy := true, cellar := cellar, addr := (s.reg 0x10200 0).toNat / 8 * 8 } }) := by
  have haddr : (s.landCtrl token cellar).reg 0x10200 0 = s.reg 0x10200 0 := by simp [State.landCtrl]
  have hopen : ((s.landCtrl token cellar).tokenOk chipScope token && s.txn.chip.st == .opened) = true := by
    simp [State.landCtrl, State.setReg, State.tokenOk, State.txnAt, ho, ht]
  rw [← haddr]
  exact (if_neg (Bool.eq_false_iff.mp hb)).trans ((if_neg (not_not.mpr hd)).trans (if_pos hopen))

/-- With a wrong token the load is refused, and the chip transaction that there is gets BAD_TOKEN. -/
theorem State.layoutGo_badToken (hb : s.txn.loader.busy = false) (hd : s.ras.drain = 0) (hi : s.txn.chip.st ≠ .idle)
    (ht : s.txn.chip.token ≠ token) :
    s.layoutGo token cellar = ((s.landCtrl token cellar).postTxn chipScope 0x85).postLoad noTxn := by
  have hshut : ¬((s.landCtrl token cellar).tokenOk chipScope token && s.txn.chip.st == .opened) = true := by
    simp [State.landCtrl, State.setReg, State.tokenOk, State.txnAt, ht]
  have hpost : (s.txn.chip.st != .idle && s.txn.chip.token != token) = true := by simp [hi, ht]
  refine (if_neg (Bool.eq_false_iff.mp hb)).trans ((if_neg (not_not.mpr hd)).trans ((if_neg hshut).trans ?_))
  exact congrArg (State.postLoad noTxn) (if_pos hpost)

end

/-! ### LAYOUT_LOAD_DONE (R66, R67) -/

theorem exec_layoutLoadDone (img : Bytes) (fault : Option Nat) (s : State) :
    exec (.layoutLoadDone img fault) s = .next (s.layoutLoadDone img fault) := rfl

/-- After a load that no ROLLBACK waits for, the transaction is OPEN again. -/
theorem State.afterLoad_reopens {s : State} (hl : s.txn.chip.st = .loading) (hr : s.txn.chip.pendRollback = false) :
    s.afterLoad = s.modTxn (fun u => { u with chip := { u.chip with st := .opened, lastGtc := s.clk.gtc, pendCommit := false } }) := by
  have e : s.afterLoad = s.modTxnAt chipScope (fun t =>
      { t with st := if t.st == .loading then .opened else t.st, lastGtc := s.clk.gtc, pendCommit := false }) :=
    if_neg (by simp [hr])
  rw [e]
  simp [State.modTxnAt, State.modTxn, hl]

/-- A load has been checked: the loader shows the image's DELTA bit, and the Attic holds `c`. -/
def State.loaded (img : Bytes) (fault : Option Nat) (c : ConfigSet) (s : State) : State :=
  (s.modLoader (fun l => { l with delta := (s.loadImage img fault).1 })).setAttic c

section
variable {s : State} {img : Bytes} {fault : Option Nat} (hb : s.txn.loader.busy = true)
include hb

/-- A load that fails a check posts that check and leaves the Attic. -/
theorem State.layoutLoadDone_failed {f : LFail} (hf : (s.loadImage img fault).2 = .error f) :
    s.layoutLoadDone img fault = ((s.loaded img fault s.attic).postLoad f).afterLoad := by
  simp only [State.layoutLoadDone, hb, hf]
  rfl

/-- A load that passes puts its set into the Attic and posts 0. -/
theorem State.layoutLoadDone_passed {c : ConfigSet} (hc : (s.loadImage img fault).2 = .ok c) :
    s.layoutLoadDone img fault = ((s.loaded img fault c).postLoad { res := 0, stage := 0, sec := 0, off := 0 }).afterLoad := by
  simp [State.layoutLoadDone, hb, hc, State.loaded]

end

/-- Once a load has posted `f`, the transaction is OPEN again, the event is raised, and nothing else changes. -/
theorem State.loaded_posts {s : State} (hl : s.txn.chip.st = .loading) (hr : s.txn.chip.pendRollback = false)
    (img : Bytes) (fault : Option Nat) (c : ConfigSet) (f : LFail) :
    let t := ((s.loaded img fault c).postLoad f).afterLoad
    t.txn = { s.txn with
        chip := { s.txn.chip with st := .opened, lastGtc := s.clk.gtc, pendCommit := false }
        loader := { s.txn.loader with busy := false, delta := (s.loadImage img fault).1, result := f.res, stage := f.stage,
                                      section_ := f.sec, offset := f.off } }
      ∧ t.attic = c ∧ s.raises 0xA0 1 4 noTenant 0 [f.res, f.stage, f.sec, f.off] t
      ∧ { t with txn := s.txn, attic := s.attic, ledg := s.ledg, clk := s.clk } = s := by
  have htxn := State.postLoad_txn f (s.loaded img fault c)
  have honly := State.postLoad_only f (s.loaded img fault c)
  have hraises := State.postLoad_raises (s := s) (u := s.loaded img fault c) rfl rfl f
  dsimp only
  rw [State.afterLoad_reopens (by rw [htxn]; exact hl) (by rw [htxn]; exact hr), State.postLoad_gtc]
  refine ⟨?_, ?_, hraises, ?_⟩
  · rw [State.modTxn_txn, htxn]; rfl
  · exact congrArg State.attic honly
  · exact congrArg (fun x : State => { x with txn := s.txn, attic := s.attic }) honly

/-! ### VALIDATION_DONE of the chip scope (R79, R86) -/

theorem exec_validationDone_chip (auth : FuseAuth) (s : State) :
    exec (.validationDone 64 auth) s = .next (s.validationDone chipScope auth) := rfl

/-- The end of the chip transaction while no load runs: the Attic is the Living set. -/
theorem State.endTxn_chip {s : State} (hb : s.txn.loader.busy = false) (r : Nat) :
    s.endTxn chipScope r = (s.setAttic s.living).modTxn (fun u => { u with
      chip := { u.chip with st := .idle, result := r, detail := 0, pendRollback := false, pendCommit := false }
      hatch := { u.hatch with queue := u.hatch.queue.filter (· != chipScope) } }) := by
  have hs : s.stopLoad = s := if_neg (by simp [hb])
  simp only [State.endTxn, if_true, hs]
  rfl

/-- A commit enters the Hatch queue, and no other leaves it. -/
theorem State.mem_queue_enqueue (s : State) (x : Nat) :
    x ∈ (s.enqueue chipScope).txn.hatch.queue ↔ x = chipScope ∨ x ∈ s.txn.hatch.queue := by
  have e : (s.enqueue chipScope).txn.hatch.queue
      = (s.txn.hatch.queue.partition (fun x => decide ((s.txnAt x).ord ≤ (s.txnAt chipScope).ord))).1 ++ chipScope ::
        (s.txn.hatch.queue.partition (fun x => decide ((s.txnAt x).ord ≤ (s.txnAt chipScope).ord))).2 := rfl
  simp only [e, List.partition_eq_filter_filter, List.mem_append, List.mem_cons, List.mem_filter, Function.comp_apply,
    Bool.not_eq_true', decide_eq_true_eq, decide_eq_false_iff_not]
  tauto

theorem State.enqueue_chip (s : State) : (s.enqueue chipScope).txn.chip = { s.txn.chip with st := .hatching } := rfl

theorem State.enqueue_only (s : State) (u : TxnUnit) : { s.enqueue chipScope with txn := u } = { s with txn := u } := rfl

/-- A commit that is not cell-wide and is refused is open again with its result. -/
theorem State.refuseCommit_chip {s : State} (hc : s.txn.chip.cell = false) (x : Nat × Nat × Word) :
    s.refuseCommit chipScope x = s.failTxn chipScope x.1 x.2.1 x.2.2 := by
  simp [State.refuseCommit, State.txnAt, hc]

section
variable {s : State} (hv : s.txn.chip.st = .validating) (hb : s.txn.loader.busy = false) (auth : FuseAuth)
include hv hb

/-- An Attic that equals the Living set commits at once (R79 step 1). -/
theorem State.validationDone_same (hd : s.ras.drain = 0) (hs : s.scopeSame chipScope = true) :
    s.validationDone chipScope auth = (s.setLiving { s.living with dirty := s.attic.dirty }).endTxn chipScope 0 := by
  simp [State.validationDone, State.txnAt, hv, hb, hd, hs]

section
variable (h : s.ras.drain ≠ 0 ∨ s.scopeSame chipScope = false)
include h

/-- Otherwise the commit is judged (R79): one that fails is refused. -/
theorem State.validationDone_refused {x : Nat × Nat × Word} (hj : s.judge chipScope (some auth) = some x) :
    s.validationDone chipScope auth = s.refuseCommit chipScope x := by
  rcases h with h | h <;> simp [State.validationDone, State.txnAt, hv, hb, h, hj]

/-- One that passes takes the hash of its authorisation block along and enters the Hatch queue. -/
theorem State.validationDone_passes (hj : s.judge chipScope (some auth) = none) :
    s.validationDone chipScope auth =
      (s.modTxn (fun u => { u with fuseHash := unbe (slice (fit 256 auth.block) 0x10 48) })).enqueue chipScope := by
  rcases h with h | h <;> simp [State.validationDone, State.txnAt, hv, hb, h, hj]

end

end

end Sys2Proof.Machine
end

section
/-! PROOFS. A layer on its ELE: what a passage moves, how the layer starts, its chunks, and its end. -/

namespace Sys2Proof.Machine

open Sys2Proof

/-! ### A passage moves -/

/-- Only the islands, the engines and the handshakes under way may differ. -/
def State.onlyFlow (s t : State) : Prop := { t with isl := s.isl, eng := s.eng, streams := s.streams } = s

theorem State.onlyFlow_trans {s t u : State} (h : s.onlyFlow t) (g : t.onlyFlow u) : s.onlyFlow u := by
  have h' := congrArg (fun x : State => { x with isl := s.isl, eng := s.eng, streams := s.streams }) g
  exact h'.trans h

/-- A slot's end of a passage is a stream request (R140). -/
theorem State.streamEnd_cls {s : State} {key : Nat} {p : PassageCfg} {src : Bool} {n k t : Nat} {d : Dma}
    (h : s.streamEnd key p src = some (.dma n k t d)) : d.cls = 3 := by
  unfold State.streamEnd at h
  generalize (if src then p.src else p.sink) = e at h
  dsimp only at h
  split at h
  · obtain ⟨x, hx, he⟩ := Option.map_eq_some_iff.mp h
    have hm := (List.mem_filter.mp (firstBy_mem hx)).1
    simp only [State.streamReqs, List.mem_flatMap, List.mem_map, List.mem_filter, Bool.and_eq_true, beq_iff_eq] at hm
    obtain ⟨_, _, _, ⟨_, ⟨⟨hc, _⟩, _⟩, _⟩, rfl⟩ := hm
    cases he
    exact hc
  · split at h
    · split at h <;> cases h
    · cases h

theorem State.onlyFlow_streamSend (m : Nat) (e : Option StreamEnd) (s : State) : s.onlyFlow (s.streamSend m e).2 := by
  unfold State.streamSend
  split <;> rfl

/-- The data of a stream request land in a Shelf; no input is hashed and no engine is told. -/
theorem State.onlyFlow_landRead {d : Dma} (h : d.cls = 3) (n k : Nat) (data : Bytes) (bad : List (Nat × Nat)) (s : State) :
    s.onlyFlow (s.landRead n k d data bad) := by
  unfold State.landRead
  split
  · rfl
  · simp only [Dma.tied, h]
    rfl

theorem State.onlyFlow_streamTake (fl : List (Bytes × Bool)) {e : Option StreamEnd} (h : ∀ n k t d, e = some (.dma n k t d) → d.cls = 3)
    (s : State) : s.onlyFlow (s.streamTake fl e) := by
  unfold State.streamTake
  split
  · rename_i n k t d
    exact State.onlyFlow_trans (State.onlyFlow_landRead (d := { d with shelf := d.shelf + d.moved }) (h n k t d rfl) n k _ _ s) rfl
  · rfl
  · rfl

theorem State.onlyFlow_exchange (key : Nat) (p : PassageCfg) (s : State) : s.onlyFlow (s.exchange key p) := by
  unfold State.exchange
  dsimp only
  refine State.onlyFlow_trans (State.onlyFlow_trans (State.onlyFlow_streamSend _ _ s) (State.onlyFlow_streamTake _ ?_ _)) rfl
  exact fun n k t d h => State.streamEnd_cls h

theorem State.onlyFlow_flowLoop (key : Nat) (p : PassageCfg) (n : Nat) (s : State) : s.onlyFlow (s.flowLoop key p n) := by
  induction n generalizing s with
  | zero => rfl
  | succ n ih =>
    unfold State.flowLoop
    split
    · rfl
    · exact State.onlyFlow_trans (State.onlyFlow_exchange key p s) (ih _)

theorem State.onlyFlow_flow (key : Nat) (s : State) : s.onlyFlow (s.flow key) := by
  unfold State.flow
  split
  · exact State.onlyFlow_flowLoop ..
  · rfl

theorem State.onlyFlow_eleFlow (j : Nat) (s : State) : s.onlyFlow (s.eleFlow j) := by
  unfold State.eleFlow
  split
  · split
    · exact State.onlyFlow_flow ..
    · rfl
  · rfl

/-! ### What a layer's parameters and state rest on -/

section
variable {s t : State} (h : s.onlyFlow t)
include h

theorem State.onlyFlow.eleOf (l : Layer) : t.eleOf l = s.eleOf l := by
  have e := congrArg (fun x : State => x.eleOf l) h
  exact e

theorem State.onlyFlow.task? (i : Nat) : t.task? i = s.task? i := by
  have e := congrArg (fun x : State => x.task? i) h
  exact e

theorem State.onlyFlow.cellarView (tk : Task) : t.cellarView tk = s.cellarView tk := by
  have e := congrArg (fun x : State => x.cellarView tk) h
  exact e

end

/-! ### The engine's own record changes -/

/-- Only the engines may differ. -/
def State.onlyEng (s t : State) : Prop := { t with eng := s.eng } = s

theorem State.onlyEng_trans {s t u : State} (h : s.onlyEng t) (g : t.onlyEng u) : s.onlyEng u := by
  have h' := congrArg (fun x : State => { x with eng := s.eng }) g
  exact h'.trans h

theorem State.onlyEng.onlyFlow {s t : State} (h : s.onlyEng t) : s.onlyFlow t := by
  have e := congrArg (fun x : State => { x with isl := s.isl, streams := s.streams }) h
  exact e

theorem State.onlyEng_modEng (f : Engines → Engines) (s : State) : s.onlyEng (s.modEng f) := rfl

theorem State.onlyEng_modEle (j : Nat) (f : EleRt → EleRt) (s : State) : s.onlyEng (s.modEle j f) := State.onlyEng_modEng _ s

theorem State.onlyEng_setLayer (j : Nat) (f : Layer → Layer) (s : State) : s.onlyEng (s.setLayer j f) := State.onlyEng_modEle j _ s

section
variable (s : State)

@[simp] theorem State.task?_modEle (j : Nat) (f : EleRt → EleRt) (i : Nat) : (s.modEle j f).task? i = s.task? i := rfl

@[simp] theorem State.eleRt_setLayer (j : Nat) (f : Layer → Layer) :
    (s.setLayer j f).eleRt j = { s.eleRt j with layer := (s.eleRt j).layer.map f } := by
  simp [State.setLayer]

@[simp] theorem State.eleRt_modEng_eleIn (g : List Layer → List Layer) (j : Nat) :
    (s.modEng (fun e => { e with eleIn := g e.eleIn })).eleRt j = s.eleRt j := rfl

end

/-! ### ELE_LAYER_START (R48, R255, R260) -/

theorem exec_eleLayerStart (j : Ele) (rows cols : Nat) (s : State) :
    exec (.eleLayerStart j rows cols) s = .next (s.eleStart j rows cols) := rfl

/-- The state bytes with which a layer of the task starts: zeros where the task has no state block, else the block's, which
carry no poison. -/
def State.startsFrom (s : State) (tk : Task) (p : EleParam) (st : Bytes) : Prop :=
  (stateAt tk p = none ∧ st = zeros p.stateBytes)
    ∨ ∃ a, stateAt tk p = some a ∧ (s.cellarView tk).poisonIn lineB a p.stateBytes = none
        ∧ st = (s.cellarView tk).read a p.stateBytes

/-- The engine has taken the layer `l` off the list of those waiting. -/
def State.eleTakes (j rows cols : Nat) (l : Layer) (s : State) : State :=
  (s.modEng (fun e => { e with eleIn := e.eleIn.filter (fun x => x.ord != l.ord) })).modEle j
    (fun e => { e with layer := some { l with rows := rows, cols := cols } })

theorem State.onlyEng_eleTakes (j rows cols : Nat) (l : Layer) (s : State) : s.onlyEng (s.eleTakes j rows cols l) :=
  State.onlyEng_trans (State.onlyEng_modEng _ s) (State.onlyEng_modEle j _ _)

/-- The layer that is taken, as `f` changes it: it runs on the engine and waits no longer, and nothing else changes. -/
theorem State.eleTakes_setLayer (j rows cols : Nat) (l : Layer) (f : Layer → Layer) (s : State) :
    ((s.eleTakes j rows cols l).setLayer j f).eleRt j = { s.eleRt j with layer := some (f { l with rows := rows, cols := cols }) }
      ∧ ((s.eleTakes j rows cols l).setLayer j f).eng.eleIn = s.eng.eleIn.filter (fun x => x.ord != l.ord)
      ∧ { (s.eleTakes j rows cols l).setLayer j f with eng := s.eng } = s :=
  ⟨by simp [State.eleTakes], by simp [State.eleTakes, State.setLayer, State.modEle],
    State.onlyEng_trans (State.onlyEng_eleTakes j rows cols l s) (State.onlyEng_setLayer j f _)⟩

/-- An output layer asks its passage for its tensor. -/
def State.eleAsks (j rows cols : Nat) (l : Layer) (s : State) : State :=
  match s.eleOf l with
  | some (p, _, _) => (match TElem.of p.tfmt with
    | some t => if l.out then (s.setLayer j (fun l => { l with want := cdiv (t.bytes (rows * cols * p.cin)) 32 })).eleFlow j else s
    | none => s)
  | none => s

/-- The engine reads the state of the layer that it has taken; poison there ends the task. -/
def State.eleLoads (j : Nat) (l : Layer) (s : State) : State :=
  match s.eleOf l, s.task? l.task with
  | some (p, _, _), some t =>
    match stateAt t p with
    | none => s.setLayer j (fun l => { l with state := zeros p.stateBytes })
    | some a =>
      match (s.cellarView t).poisonIn lineB a p.stateBytes with
      | some w => s.elePoison l w
      | none => s.setLayer j (fun l => { l with state := (s.cellarView t).read a p.stateBytes })
  | _, _ => s

section
variable {s : State} {j : Nat} {l : Layer}

/-- The layer that comes before every other that the engine may serve is the first in event order (R37). -/
theorem State.firstBy_eleIn (hl : l ∈ s.eng.eleIn) (hj : l.eng = j) (hm : s.mayServe (0x60 + j) l.stamp = true)
    (hfirst : ∀ m ∈ s.eng.eleIn, m.eng = j → s.mayServe (0x60 + j) m.stamp = true → m ≠ l → l.before m = true) :
    firstBy Layer.before (s.eng.eleIn.filter (fun x => x.eng == j && s.mayServe (0x60 + j) x.stamp)) = some l := by
  apply firstBy_eq_some (fun a b => evBefore_asymm _ _)
  · simp [hl, hj, hm]
  · intro m hmem hne
    simp only [List.mem_filter, Bool.and_eq_true, beq_iff_eq] at hmem
    obtain ⟨hin, heng, hserve⟩ := hmem
    exact hfirst m hin heng hserve hne

/-- An idle engine that no Sweep step holds takes the first of the layers it may serve. -/
theorem State.eleStart_first (rows cols : Nat) (hidle : (s.eleRt j).layer = none)
    (hsweep : s.ras.sweepBusy = false ∨ s.ras.sweepUnit ≠ 0x60 + j)
    (hfirst : firstBy Layer.before (s.eng.eleIn.filter (fun x => x.eng == j && s.mayServe (0x60 + j) x.stamp)) = some l) :
    s.eleStart j rows cols = ((s.eleTakes j rows cols l).eleAsks j rows cols l).eleLoads j l := by
  have hfree : ((s.eleRt j).layer.isSome || (s.ras.sweepBusy && s.ras.sweepUnit == 0x60 + j)) = false := by
    rcases hsweep with h | h <;> simp [hidle, h]
  unfold State.eleStart
  rw [hfree, if_neg Bool.false_ne_true, hfirst]
  rfl

variable {p : EleParam} {rec : Bytes} {base : Nat} (hp : s.eleOf l = some (p, rec, base))
include hp

theorem State.eleAsks_ingest (rows cols : Nat) (hout : l.out = false) : s.eleAsks j rows cols l = s := by
  simp only [State.eleAsks, hp, hout]
  cases TElem.of p.tfmt <;> rfl

theorem State.eleAsks_output (rows cols : Nat) {te : TElem} (hout : l.out = true) (hte : TElem.of p.tfmt = some te) :
    s.eleAsks j rows cols l
      = (s.setLayer j (fun y => { y with want := cdiv (te.bytes (rows * cols * p.cin)) 32 })).eleFlow j := by
  simp [State.eleAsks, hp, hout, hte]

/-- What moves over passages does not change the state that a layer starts from. -/
theorem State.eleLoads_startsFrom {t : State} {tk : Task} {st : Bytes} (ht : s.onlyFlow t) (htk : s.task? l.task = some tk)
    (hst : s.startsFrom tk p st) : t.eleLoads j l = t.setLayer j (fun y => { y with state := st }) := by
  rcases hst with ⟨hn, rfl⟩ | ⟨a, ha, hclean, rfl⟩
  · simp [State.eleLoads, ht.eleOf, ht.task?, hp, htk, hn]
  · simp [State.eleLoads, ht.eleOf, ht.task?, ht.cellarView, hp, htk, ha, hclean]

variable {tk : Task} {st : Bytes} (hidle : (s.eleRt j).layer = none)
  (hsweep : s.ras.sweepBusy = false ∨ s.ras.sweepUnit ≠ 0x60 + j)
  (hfirst : firstBy Layer.before (s.eng.eleIn.filter (fun x => x.eng == j && s.mayServe (0x60 + j) x.stamp)) = some l)
  (htk : s.task? l.task = some tk) (hst : s.startsFrom tk p st) (rows cols : Nat)
include hidle hsweep hfirst htk hst

/-- An ingest layer starts from its state. -/
theorem State.eleStart_ingest (hout : l.out = false) :
    s.eleStart j rows cols = (s.eleTakes j rows cols l).setLayer j (fun y => { y with state := st }) := by
  have hp' : (s.eleTakes j rows cols l).eleOf l = some (p, rec, base) := hp
  rw [State.eleStart_first rows cols hidle hsweep hfirst, State.eleAsks_ingest hp' rows cols hout,
    State.eleLoads_startsFrom hp (State.onlyEng_eleTakes j rows cols l s).onlyFlow htk hst]

/-- An output layer first asks its passage for its tensor. -/
theorem State.eleStart_output {te : TElem} (hout : l.out = true) (hte : TElem.of p.tfmt = some te) :
    s.eleStart j rows cols = (((s.eleTakes j rows cols l).setLayer j
      (fun y => { y with want := cdiv (te.bytes (rows * cols * p.cin)) 32 })).eleFlow j).setLayer j (fun y => { y with state := st }) := by
  have hp' : (s.eleTakes j rows cols l).eleOf l = some (p, rec, base) := hp
  have hasks := State.onlyEng_trans (State.onlyEng_eleTakes j rows cols l s) (State.onlyEng_setLayer j
    (fun y => { y with want := cdiv (te.bytes (rows * cols * p.cin)) 32 }) _)
  have hflow := State.onlyFlow_trans hasks.onlyFlow (State.onlyFlow_eleFlow j _)
  rw [State.eleStart_first rows cols hidle hsweep hfirst, State.eleAsks_output hp' rows cols hout hte,
    State.eleLoads_startsFrom hp hflow htk hst]

end

/-! ### ELE_CHUNK (R256, R259) -/

theorem exec_eleChunk (j : Ele) (s : State) : exec (.eleChunk j) s = .next (s.eleTake j) := rfl

/-- With no tied transfer held back, none goes out. -/
theorem State.tiedGo_of_noneWaits {s : State} {n k : Nat} (h : s.noneWaits n k) : s.tiedGo n k = s := by
  refine List.foldlRecOn (motive := fun t => t = s) _ _ rfl (fun t ht e he => ?_)
  rw [ht, h e he]
  rfl

/-- The ingest layer `l` reads the chunk that has landed in the raw buffer, and counts its samples. -/
def State.eleReads (j : Nat) (l : Layer) (p : EleParam) (s : State) : State :=
  (s.setLayer j (fun _ => { l with
      landed := 0, input := l.input ++ (s.island p.feed).shelf.read p.buf l.landed, chunks := l.chunks + 1 })).modEle j
    (fun e => { e with inS := (e.inS + l.landed / p.sampleBytes) % 2 ^ 32 })

theorem State.onlyEng_eleReads (j : Nat) (l : Layer) (p : EleParam) (s : State) : s.onlyEng (s.eleReads j l p) :=
  State.onlyEng_trans (State.onlyEng_setLayer j _ s) (State.onlyEng_modEle j _ _)

/-- The output layer fills the raw buffer with the chunk `d` of its output, and counts its samples. -/
def State.eleWrites (j : Nat) (p : EleParam) (d : Bytes) (s : State) : State :=
  ((s.modShelf p.feed (fun st => st.write wordB p.buf d)).setLayer j (fun l =>
      { l with filled := d.length, output := l.output.drop d.length, chunks := l.chunks + 1 })).modEle j
    (fun e => { e with outS := (e.outS + d.length / p.sampleBytes) % 2 ^ 32 })

theorem State.eleWrites_only (j : Nat) (p : EleParam) (d : Bytes) (s : State) :
    { s.eleWrites j p d with isl := s.isl, eng := s.eng } = s := by
  have h : (s.modShelf p.feed (fun st => st.write wordB p.buf d)).onlyEng (s.eleWrites j p d) :=
    State.onlyEng_trans (State.onlyEng_setLayer j _ _) (State.onlyEng_modEle j _ _)
  exact congrArg (fun x : State => { x with isl := s.isl }) h

section
variable {s : State} {j : Nat} {l : Layer} {p : EleParam} {rec : Bytes} {base : Nat}
  (hl : (s.eleRt j).layer = some l) (hp : s.eleOf l = some (p, rec, base)) (hw : s.noneWaits l.isl l.slot)
include hl hp hw

/-- An ingest layer that still wants more than the chunk that has landed reads it from the raw buffer. -/
theorem State.eleTake_ingest (hout : l.out = false) (hc : l.computed = false) (hn : l.landed ≠ 0)
    (hmore : l.landed < p.rawBytes (l.rows * l.cols) p.cin - l.input.length)
    (hclean : (s.island p.feed).shelf.poisonIn wordB p.buf l.landed = none) : s.eleTake j = s.eleReads j l p := by
  have hw' : (s.eleReads j l p).noneWaits l.isl l.slot := hw
  rw [← State.tiedGo_of_noneWaits hw']
  simp [State.eleTake, State.eleRead, State.eleReads, hl, hp, hout, hc, hn, hclean, Nat.min_eq_left hmore.le, Nat.not_le.mpr hmore]

/-- An output layer that has computed fills the empty raw buffer. -/
theorem State.eleTake_output (hout : l.out = true) (hc : l.computed = true) (hf : l.filled = 0) (ho : l.output ≠ []) :
    s.eleTake j = s.eleWrites j p (l.output.take (p.chunkKib * 1024)) := by
  have hw' : (s.eleWrites j p (l.output.take (p.chunkKib * 1024))).noneWaits l.isl l.slot := by
    have hs : (s.eleWrites j p (l.output.take (p.chunkKib * 1024))).slot l.isl l.slot = s.slot l.isl l.slot :=
      State.slot_modShelf p.feed l.isl l.slot (fun st => st.write wordB p.buf (l.output.take (p.chunkKib * 1024))) s
    unfold State.noneWaits
    rwa [hs]
  rw [← State.tiedGo_of_noneWaits hw']
  simp [State.eleTake, State.eleFill, State.eleWrites, hl, hp, hout, hc, hf, ho]

end

/-! ### ELE_LAYER_DONE (R260, R261) -/

theorem exec_eleLayerDone (j : Ele) (s : State) : exec (.eleLayerDone j) s = .next (s.eleDone j) := rfl

/-- A Cellar write that lands leaves the tasks. -/
theorem State.cellarLand_tasks (a : Nat) (d : Bytes) (bad : List (Nat × Nat)) (s : State) :
    (s.cellarLand a d bad).tasks = s.tasks := by
  unfold State.cellarLand
  have hcount := congrArg State.tasks (State.countLines_store true a d.length (s.modStore (fun st => st.land lineB a d bad))).2
  exact List.foldlRecOn (motive := fun t : State => t.tasks = s.tasks) _ _ hcount (fun _ h _ _ => h)

/-- A Cellar write of a task, held or landed, leaves the layers that a task has done. -/
theorem State.cellarPart_eleDone (tid : Nat) (t : Task) (a : Nat) (b : Bytes) (bad : List (Nat × Nat)) (s : State) (i : Nat) :
    ((s.cellarPart tid t a b bad).task? i).map (·.eleDone) = (s.task? i).map (·.eleDone) := by
  unfold State.cellarPart
  split
  · rfl
  · split
    · exact State.task?_modTask_map (·.eleDone) tid i (by intro; rfl) s
    · simp only [State.task?, State.cellarLand_tasks]

theorem State.cellarStore_eleDone (tid : Nat) (t : Task) (a : Nat) (b : Bytes) (bad : List (Nat × Nat)) (s : State) (i : Nat) :
    ((s.cellarStore tid t a b bad).task? i).map (·.eleDone) = (s.task? i).map (·.eleDone) := by
  simp only [State.cellarStore, State.cellarPart_eleDone]

/-- The layer's state joins the task's write-back where the task has a state block. -/
def State.eleSaves (l : Layer) (p : EleParam) (tk : Task) (s : State) : State :=
  match stateAt tk p with
  | some a => s.cellarStore l.task tk a l.state []
  | none => s

theorem State.eleSaves_none {l : Layer} {p : EleParam} {tk : Task} (h : stateAt tk p = none) (s : State) : s.eleSaves l p tk = s := by
  simp [State.eleSaves, h]

theorem State.eleSaves_eleDone (l : Layer) (p : EleParam) (tk : Task) (s : State) (i : Nat) :
    ((s.eleSaves l p tk).task? i).map (·.eleDone) = (s.task? i).map (·.eleDone) := by
  unfold State.eleSaves
  split
  · exact State.cellarStore_eleDone ..
  · rfl

/-- The cycles that a layer has taken (R261). -/
def Layer.cycles (l : Layer) (p : EleParam) (rec : Bytes) : Nat :=
  let g := eleGeom p rec l.rows l.cols
  let outs := g.outRows * g.outCols * p.cout
  eleCycles (max l.chunks 1) (if l.out then outs else l.rows * l.cols * p.cin) (outs * p.k)

/-- A layer with nothing left to compute or to hand over is done: its engine is free and its cycles count. -/
theorem State.eleDone_completes {s : State} {j : Nat} {l : Layer} {p : EleParam} {rec : Bytes} {base : Nat} {tk : Task}
    (hl : (s.eleRt j).layer = some l) (hp : s.eleOf l = some (p, rec, base)) (htk : s.task? l.task = some tk)
    (hc : l.computed = true) (ho : l.output = []) (hf : l.filled = 0) :
    s.eleDone j = ((s.eleSaves l p tk).modTask l.task (fun t => { t with eleDone := insN l.idx t.eleDone })).modEle j
      (fun e => { e with layer := none, cycles := (e.cycles + l.cycles p rec) % 2 ^ 64 }) := by
  simp only [State.eleDone, hl, hp, htk, hc, ho, hf, List.isEmpty_nil]
  rfl

end Sys2Proof.Machine
end

section
/-! PROOFS. The restart of an engine: what its counting and its suspicion leave, and the end of the task it served. -/

namespace Sys2Proof.Machine

open Sys2Proof

/-! ### ELE_RESTART (R262, Table 5-3) -/

theorem exec_eleRestart (j : Ele) (s : State) : exec (.eleRestart j) s = .next (s.eleFail j) := rfl

/-- What the counting and the suspicion of a restart leave alone: the islands, the engines and the status of every task. -/
def State.keepsServed (s t : State) : Prop :=
  t.isl = s.isl ∧ t.eng = s.eng ∧ ∀ i, (t.task? i).map (·.status) = (s.task? i).map (·.status)

theorem State.keepsServed_refl (s : State) : s.keepsServed s := ⟨rfl, rfl, fun _ => rfl⟩

theorem State.keepsServed_trans {s t u : State} (h : s.keepsServed t) (g : t.keepsServed u) : s.keepsServed u := by
  obtain ⟨hisl, heng, hstatus⟩ := h
  obtain ⟨gisl, geng, gstatus⟩ := g
  exact ⟨gisl.trans hisl, geng.trans heng, fun i => (gstatus i).trans (hstatus i)⟩

theorem State.keepsServed_foldl {α : Type} {f : State → α → State} (hf : ∀ (s : State) x, s.keepsServed (f s x)) (l : List α)
    (s : State) : s.keepsServed (l.foldl f s) :=
  List.foldlRecOn (motive := fun t : State => s.keepsServed t) _ _ s.keepsServed_refl (fun t h x _ => State.keepsServed_trans h (hf t x))

theorem State.keepsServed_emit (src cls code ten sev : Nat) (words : List Nat) (s : State) :
    s.keepsServed (s.emit src cls code ten sev words) := by
  have h := State.emit_only src cls code ten sev words s
  have hisl := congrArg State.isl h
  have heng := congrArg State.eng h
  have htasks := congrArg State.tasks h
  exact ⟨hisl, heng, fun i => congrArg (fun u : Tasks => (NMap.find? u.live i).map (·.status)) htasks⟩

theorem State.keepsServed_modQm (f : QMgr → QMgr) (s : State) : s.keepsServed (s.modQm f) := ⟨rfl, rfl, fun _ => rfl⟩

theorem State.keepsServed_writeRec (ring : Nat) (rc : Rec) (s : State) : s.keepsServed (s.writeRec ring rc) :=
  State.keepsServed_trans (State.keepsServed_trans (t := s.modOut _) ⟨rfl, rfl, fun _ => rfl⟩ (State.keepsServed_modQm _ _))
    (State.keepsServed_modQm _ _)

theorem State.keepsServed_flushRing (ring n : Nat) (s : State) : s.keepsServed (s.flushRing ring n) := by
  induction n generalizing s with
  | zero => exact s.keepsServed_refl
  | succ n ih =>
    unfold State.flushRing
    dsimp only
    split
    · exact s.keepsServed_refl
    · split
      · exact State.keepsServed_trans (State.keepsServed_trans (State.keepsServed_modQm _ s) (State.keepsServed_writeRec ..)) (ih _)
      · exact s.keepsServed_refl

theorem State.keepsServed_postRec (ring : Nat) (rc : Rec) (s : State) : s.keepsServed (s.postRec ring rc) :=
  State.keepsServed_trans (State.keepsServed_modQm _ s) (State.keepsServed_flushRing ..)

theorem State.keepsServed_timingBreak (m cause : Nat) (s : State) : s.keepsServed (s.timingBreak m cause) := by
  unfold State.timingBreak
  split
  · unfold State.flagOnly
    refine State.keepsServed_trans ?_ (State.keepsServed_foldl (fun s r => State.keepsServed_postRec r _ s) _ _)
    exact State.keepsServed_trans (t := s.modRoom m _) ⟨rfl, rfl, fun _ => rfl⟩ (State.keepsServed_emit ..)
  · exact s.keepsServed_refl

/-- A task whose output will be withheld has the status it had. -/
theorem State.keepsServed_withholdOn (u : Nat) (s : State) : s.keepsServed (s.withholdOn u) := by
  refine State.keepsServed_foldl (fun s tid => ?_) _ _
  split
  · split
    · exact ⟨rfl, rfl, fun i => State.task?_modTask_map (·.status) tid i (by intro; rfl) s⟩
    · exact s.keepsServed_refl
  · exact s.keepsServed_refl

theorem State.keepsServed_suspect (u cause : Nat) (s : State) : s.keepsServed (s.suspect u cause) := by
  unfold State.suspect
  split
  · exact State.keepsServed_trans (State.keepsServed_trans (t := s.modUnit u _) ⟨rfl, rfl, fun _ => rfl⟩ (State.keepsServed_withholdOn ..))
      (State.keepsServed_emit ..)
  · exact s.keepsServed_refl

/-- The task that ends has the status it had, or the one given. -/
theorem State.endTask_status {s : State} {tid : Nat} {tk : Task} (h : s.task? tid = some tk) (status detail : Nat) :
    ((s.endTask tid status detail).task? tid).map (·.status) = some (some (tk.status.getD (status, detail))) := by
  have hset : ((s.setStatus tid status detail).task? tid).map (·.status) = some (some (tk.status.getD (status, detail))) := by
    rw [State.setStatus, State.task?_modTask, if_pos rfl, h]
    cases hst : tk.status <;> simp [hst]
  have htasks : (s.endTask tid status detail).tasks = (s.setStatus tid status detail).tasks := by
    unfold State.endTask
    simp only [h]
    split
    · rfl
    · rw [State.stopSlots_tasks]
      split
      · exact State.stopSlot_tasks ..
      · exact State.endLead_tasks ..
  rwa [State.task?, htasks]

/-- The task of a slot that a fault ends has the status it had, or the fault's. -/
theorem State.slotFault_status {s : State} {n k : Nat} {tk : Task} (h : s.task? (s.slot n k).task = some tk) (status detail : Nat) :
    ((s.slotFault n k status detail).task? (s.slot n k).task).map (·.status) = some (some (tk.status.getD (status, detail))) := by
  unfold State.slotFault
  dsimp only
  apply State.endTask_status
  split
  · exact h
  · rwa [State.task?, State.stopSlot_tasks]

/-- Withdrawing a slot's layers changes nothing of an idle engine. -/
theorem State.eleRt_dropEngine_idle {s : State} {j : Nat} (h : (s.eleRt j).layer = none) (n k : Nat) :
    (s.dropEngine n k).eleRt j = s.eleRt j := by
  simp only [State.eleRt, State.dropEngine, State.modEng_eng, NMap.getD, NMap.find?_mapV] at h ⊢
  cases hf : NMap.find? s.eng.ele j with
  | none => rfl
  | some x =>
    rw [hf] at h
    have hx : x.layer = none := h
    simp [hx]

section
variable {s : State} {j : Nat} (h : (s.eleRt j).layer = none)
include h

/-- Ending work changes nothing of an idle engine. -/
theorem State.eleRt_stopSlot_idle (n k : Nat) : (s.stopSlot n k).eleRt j = s.eleRt j := by
  unfold State.stopSlot
  dsimp only
  split
  · exact State.eleRt_dropEngine_idle (by exact h) n k
  · rfl

theorem State.eleRt_endLead_idle (n k : Nat) : (s.endLead n k).eleRt j = s.eleRt j := by
  unfold State.endLead
  dsimp only
  split
  · exact State.eleRt_dropEngine_idle (by exact h) n k
  · rfl

theorem State.eleRt_stopSlots_idle (l : List (Nat × Nat)) :
    (l.foldl (fun (s : State) (x : Nat × Nat) => s.stopSlot x.1 x.2) s).eleRt j = s.eleRt j :=
  List.foldlRecOn (motive := fun t : State => t.eleRt j = s.eleRt j) _ _ rfl
    (fun t ht x _ => (State.eleRt_stopSlot_idle (s := t) (by rw [ht]; exact h) x.1 x.2).trans ht)

theorem State.eleRt_endTask_idle (tid status detail : Nat) : (s.endTask tid status detail).eleRt j = s.eleRt j := by
  unfold State.endTask
  split
  · rfl
  · have hset : ((s.setStatus tid status detail).eleRt j).layer = none := h
    dsimp only
    split
    · rfl
    · split
      · have e := State.eleRt_stopSlot_idle hset
        rw [State.eleRt_stopSlots_idle (by rw [e]; exact h), e]; rfl
      · have e := State.eleRt_endLead_idle hset
        rw [State.eleRt_stopSlots_idle (by rw [e]; exact h), e]; rfl

theorem State.eleRt_slotFault_idle (n k status detail : Nat) : (s.slotFault n k status detail).eleRt j = s.eleRt j := by
  unfold State.slotFault
  dsimp only
  split
  · exact State.eleRt_endTask_idle h ..
  · have e := State.eleRt_stopSlot_idle h n k
    rw [State.eleRt_endTask_idle (by rw [e]; exact h), e]

end

/-- The restart of an engine that served slot `k` of island `n` counts and suspects, and then ends the slot's task with INTERNAL. -/
theorem State.engineRestart_served (u n k : Nat) (s : State) :
    ∃ v, s.keepsServed v ∧ s.engineRestart u (some (n, k)) = v.slotFault n k 0x7F 0 := by
  refine ⟨_, ?_, rfl⟩
  refine State.keepsServed_trans ?_ (State.keepsServed_foldl (fun s m => State.keepsServed_timingBreak m 4 s) _ _)
  exact State.keepsServed_trans (State.keepsServed_emit ..) (State.keepsServed_suspect ..)

/-- The engine after an error inside it while it served the layer `l`: free, with one more restart counted (Table 12-7). -/
def EleRt.failed (l : Layer) (e : EleRt) : EleRt := { e with layer := none, restarts := sat1 16 e.restarts, lastRoom := l.room }

/-- An engine that fails while it serves a layer is free, counts the restart, and ends the layer's task. -/
theorem State.eleFail_served {s : State} {j : Nat} {l : Layer} {tk : Task} (hl : (s.eleRt j).layer = some l)
    (htk : s.task? (s.slot l.isl l.slot).task = some tk) :
    (s.eleFail j).eleRt j = (s.eleRt j).failed l
      ∧ ((s.eleFail j).task? (s.slot l.isl l.slot).task).map (·.status) = some (some (tk.status.getD (0x7F, 0))) := by
  have e : s.eleFail j = (s.modEle j (EleRt.failed l)).engineRestart (0x60 + j) (some (l.isl, l.slot)) := by
    simp only [State.eleFail, hl, Option.map_some]
    rfl
  obtain ⟨v, ⟨hisl, heng, hstatus⟩, hv⟩ := State.engineRestart_served (0x60 + j) l.isl l.slot (s.modEle j (EleRt.failed l))
  rw [e, hv]
  have hele : v.eleRt j = (s.eleRt j).failed l := by
    have h := State.eleRt_modEle s j j (EleRt.failed l)
    rw [if_pos rfl] at h
    rw [← h, State.eleRt, heng]; rfl
  have hslot : v.slot l.isl l.slot = s.slot l.isl l.slot := by
    rw [State.slot, State.island, hisl]; rfl
  have hfree : (v.eleRt j).layer = none := by rw [hele]; rfl
  have htask : (v.task? (s.slot l.isl l.slot).task).map (·.status) = some tk.status := by
    rw [hstatus, State.task?_modEle, htk]; rfl
  obtain ⟨tk', htk', hsame⟩ := Option.map_eq_some_iff.mp htask
  refine ⟨by rw [State.eleRt_slotFault_idle hfree, hele], ?_⟩
  rw [← hsame, ← hslot]
  exact State.slotFault_status (by rw [hslot]; exact htk') 0x7F 0

end Sys2Proof.Machine
end

section
/-! PROOFS. The statements about the layers of an ELE, and about layout loads and validation. -/

namespace Sys2Proof.Machine

open Sys2Proof

/-- Settles O33: ELE_LAYER_START by the layer's direction, ELE_CHUNK of an ingest and of an output layer, ELE_LAYER_DONE and
ELE_RESTART. -/
theorem eleRunsItsLayerChunkByChunk : Obligations.EleRunsItsLayerChunkByChunk := by
  refine ⟨fun s j rows cols l p rec base tk hidle hsweep hl hj hm hfirst hp htk => ?start,
    fun s j l p rec base hl hp => ⟨fun hw ho hc hn hmore hclean => ?reads, fun hw ho hc hf hne => ?writes,
      fun tk hc ho hf htk => ?done, fun tk htk => ?restart⟩⟩
  case start =>
    intro takes
    have htakes : ∀ st, s.startsFrom tk p st → takes st := by
      intro st hst
      have hfirst' := State.firstBy_eleIn hl hj hm hfirst
      refine ⟨fun ho => ?_, fun te ho hte => ?_⟩
      · rw [exec_eleLayerStart, State.eleStart_ingest hp hidle hsweep hfirst' htk hst rows cols ho]
        exact ⟨_, rfl, State.eleTakes_setLayer ..⟩
      · rw [exec_eleLayerStart, State.eleStart_output hp hidle hsweep hfirst' htk hst rows cols ho hte]
        exact ⟨_, rfl, State.eleTakes_setLayer ..⟩
    exact ⟨fun hn => htakes _ (.inl ⟨hn, rfl⟩), fun a ha hclean => htakes _ (.inr ⟨a, ha, hclean, rfl⟩)⟩
  case reads =>
    rw [exec_eleChunk, State.eleTake_ingest hl hp hw ho hc hn hmore hclean]
    refine ⟨_, rfl, ?_, ?_, State.onlyEng_eleReads ..⟩ <;> simp [State.eleReads, hl]
  case writes =>
    rw [exec_eleChunk, State.eleTake_output hl hp hw ho hc hf hne]
    refine ⟨_, rfl, ?_, ?_, ?_, State.eleWrites_only ..⟩
    · have hshelf := State.shelf_modShelf p.feed (fun st => st.write wordB p.buf (l.output.take (p.chunkKib * 1024))) s
      exact hshelf.symm ▸ Store.write_stored wordB p.buf _ _
    · simp [State.eleWrites, hl]
    · simp [State.eleWrites]
  case done =>
    have hkeep := State.eleSaves_eleDone l p tk s l.task
    rw [htk] at hkeep
    obtain ⟨tk', htk', hsame⟩ := Option.map_eq_some_iff.mp hkeep
    rw [exec_eleLayerDone, State.eleDone_completes hl hp htk hc ho hf]
    refine ⟨_, rfl, ?_, ?_, fun hn => ?_⟩
    · simp
    · rw [State.task?_modEle, State.task?_modTask, if_pos rfl, htk']
      exact congrArg (fun d => some (insN l.idx d)) hsame
    · rw [State.eleSaves_none hn]; rfl
  case restart =>
    obtain ⟨hele, hstatus⟩ := State.eleFail_served hl htk
    rw [exec_eleRestart]
    refine ⟨_, rfl, ?_⟩
    rw [hele]
    exact ⟨rfl, rfl, rfl, hstatus⟩

/-- Settles O38: LAYOUT_GO while BUSY, with the token and with a wrong one; LAYOUT_LOAD_DONE by the outcome of its checks;
VALIDATION_DONE by the equality of the two sets and by the judgement of R79. -/
theorem loadsAndValidationReachTheAttic : Obligations.LoadsAndValidationReachTheAttic := by
  refine ⟨fun s token cellar hb => ?busy, fun s token cellar hb => ⟨fun hd ho ht => ?starts, fun hd hi ht => ?badToken⟩,
    fun s img fault hb hl hr => ?load, fun s auth hv hb => ⟨fun hd hs => ?same, fun h => ⟨fun r d f hj hc => ?refused, fun hj => ?passes⟩,
      fun hd => ?drains⟩⟩
  case busy => rw [exec_layoutGo, State.layoutGo_busy cellar hb]; rfl
  case starts =>
    rw [exec_layoutGo, State.layoutGo_starts cellar hb hd ho ht]
    refine ⟨_, rfl, rfl, rfl, ?_, fun o ho d => ?_, rfl⟩
    · simp [State.landCtrl, State.reg, State.setReg]
    · simp [State.landCtrl, State.reg, State.setReg, Ne.symm ho]
  case badToken =>
    rw [exec_layoutGo, State.layoutGo_badToken cellar hb hd hi ht]
    refine ⟨_, rfl, ?_, ?_, State.postLoad_raises (s := s) (u := (s.landCtrl token cellar).postTxn chipScope 0x85) rfl rfl noTxn, ?_⟩
    · rw [State.postLoad_txn]; rfl
    · rw [State.postLoad_txn, ← hb]; rfl
    · exact congrArg (fun x : State => { x with txn := s.txn, regs := s.regs }) (State.postLoad_only noTxn _)
  case load =>
    rw [exec_layoutLoadDone]
    cases ho : (s.loadImage img fault).2 with
    | error f =>
      obtain ⟨htxn, hattic, hraises, honly⟩ := State.loaded_posts hl hr img fault s.attic f
      rw [State.layoutLoadDone_failed hb ho]
      refine ⟨_, rfl, ?_⟩
      rw [htxn]
      exact ⟨rfl, rfl, rfl, ⟨hattic, rfl, rfl, rfl, rfl, hraises⟩, honly⟩
    | ok c =>
      obtain ⟨htxn, hattic, hraises, honly⟩ := State.loaded_posts hl hr img fault c _
      rw [State.layoutLoadDone_passed hb ho]
      refine ⟨_, rfl, ?_⟩
      rw [htxn]
      exact ⟨rfl, rfl, rfl, ⟨hattic, rfl, hraises⟩, honly⟩
  case same =>
    rw [exec_validationDone_chip, State.validationDone_same hv hb auth hd hs, State.endTxn_chip (by exact hb)]
    exact ⟨_, rfl, rfl, rfl, rfl, rfl, rfl⟩
  case refused =>
    rw [exec_validationDone_chip, State.validationDone_refused hv hb auth h hj, State.refuseCommit_chip hc]; rfl
  case passes =>
    rw [exec_validationDone_chip, State.validationDone_passes hv hb auth h hj]
    refine ⟨_, rfl, State.enqueue_chip _, ?_, fun x hx => ?_, State.enqueue_only _ _⟩
    · exact (State.mem_queue_enqueue _ _).mpr (.inl rfl)
    · exact (State.mem_queue_enqueue _ _).mpr (.inr hx)
  case drains => exact if_pos hd

end Sys2Proof.Machine
end

section
/-! PROOFS. Configuration transactions: a register of a set after a put, a scope after an update of one, what an Attic write
leaves, and how transactions open and end (R70–R79). -/

namespace Sys2Proof.Machine

open Sys2Proof

/-! ### Registers of a configuration set -/

/-- What a register of a set reads after a put: the list leaves out values that equal the reset value. -/
theorem State.rwtOf_rwtPut (s : State) (c : ConfigSet) (o p : Nat) (v : Word) :
    s.rwtOf (s.rwtPut c o v) p = if o = p then v else s.rwtOf c p := by
  unfold State.rwtOf State.rwtPut
  by_cases hv : v = s.rwtReset o
  · rw [if_pos hv, NMap.getD_del]
    split
    · rename_i h; rw [← h, hv]
    · rfl
  · rw [if_neg hv, NMap.getD_set]

/-! ### One scope of many -/

theorem room_ne_chipScope (m : Room) : m.val ≠ chipScope := Nat.ne_of_lt m.isLt

theorem State.txnAt_modTxnAt (s : State) (sc k : Nat) (f : Txn → Txn) :
    (s.modTxnAt sc f).txnAt k = if sc = k then f (s.txnAt sc) else s.txnAt k := by
  unfold State.txnAt State.modTxnAt
  by_cases hs : sc = chipScope
  · by_cases hk : k = chipScope
    · simp [hs, hk]
    · simp [hs, hk, Ne.symm hk]
  · by_cases hk : k = chipScope
    · simp [hs, hk]
    · simp [hs, hk]

/-- An update of a scope changes no other part of the transaction unit. -/
theorem State.modTxnAt_unit (s : State) (sc : Nat) (f : Txn → Txn) :
    { (s.modTxnAt sc f).txn with chip := s.txn.chip, rooms := s.txn.rooms } = s.txn := by
  unfold State.modTxnAt State.modTxn
  dsimp only
  split <;> rfl

theorem State.modTxnAt_chip (s : State) (f : Txn → Txn) :
    s.modTxnAt chipScope f = { s with txn := { s.txn with chip := f s.txn.chip } } := by
  unfold State.modTxnAt State.modTxn
  simp

/-! ### Writes to the Attic (R64, R74, R75) -/

theorem State.atticTakes_atticWrite (s : State) (sc off : Nat) (mask v : Word) :
    s.atticTakes off mask v (s.atticWrite sc off mask v) := by
  have hc : ∀ (c : ConfigSet) (f : Txn → Txn) (o : Nat),
      ((s.setAttic c).modTxnAt sc f).rwtOf ((s.setAttic c).modTxnAt sc f).attic o = s.rwtOf c o := by
    intro c f o
    unfold State.modTxnAt State.modTxn
    rfl
  refine ⟨?_, fun o ho => ?_, rfl, rfl⟩
  · exact (hc _ _ off).trans ((s.rwtOf_rwtPut ..).trans (if_pos rfl))
  · exact (hc _ _ o).trans ((s.rwtOf_rwtPut ..).trans (if_neg (Ne.symm ho)))

theorem State.atticWrite_txnAt (s : State) (sc off : Nat) (mask v : Word) (k : Nat) :
    (s.atticWrite sc off mask v).txnAt k
      = if sc = k then { s.txnAt sc with writes := sat1 16 (s.txnAt sc).writes, lastGtc := s.clk.gtc } else s.txnAt k := by
  unfold State.atticWrite
  dsimp only
  rw [State.txnAt_modTxnAt]
  rfl

/-- Settles O36: while the chip transaction is OPEN the write is one of the Attic, at any other time it is counted. -/
theorem rwtWritesLandOnlyWhileOpen : Obligations.RwtWritesLandOnlyWhileOpen := by
  intro s off mask v hmask
  refine ⟨fun ho => ?_, fun hn => ?_⟩
  · have e : s.rwtWrite off v = s.atticWrite chipScope off mask v := by simp [State.rwtWrite, hmask, ho]
    rw [exec_rwtWrite, e]
    exact ⟨_, rfl, s.atticTakes_atticWrite .., rfl, rfl⟩
  · have e : s.rwtWrite off v = s.modTxn (fun u => { u with discard := sat1 32 u.discard, discardOff := off }) := by
      simp [State.rwtWrite, hmask, hn]
    rw [exec_rwtWrite, e]; rfl

end Sys2Proof.Machine
end

section
/-! PROOFS. How transactions open and end: tokens, the commands of PF0 on the chip transaction, and a tenant's on its rooms
(R70–R79). -/

namespace Sys2Proof.Machine

open Sys2Proof

/-! ### Tokens (R72, R73) -/

/-- Every byte comes up among the 256 candidates after a token. -/
theorem mem_tokenCandidates (t : Nat) {v : Nat} (h : v < 256) : v ∈ (List.range 256).map (fun i => (t + 1 + i) % 256) := by
  refine List.mem_map.mpr ⟨(v + 256 - (t + 1) % 256) % 256, List.mem_range.mpr (Nat.mod_lt _ (by omega)), ?_⟩
  omega

/-- While fewer than 255 tokens are held, the next one is a byte that is not 0 and that nothing holds. -/
theorem nextToken_spec {held : List Nat} (hl : held.length < 255) (t : Nat) :
    nextToken held t ≠ 0 ∧ nextToken held t < 256 ∧ nextToken held t ∉ held := by
  unfold nextToken
  cases hf : ((List.range 256).map (fun i => (t + 1 + i) % 256)).find? (fun v => v != 0 && !held.contains v) with
  | some v =>
    have hp := List.find?_some hf
    have hm := List.mem_of_find?_eq_some hf
    simp only [List.mem_map, List.mem_range] at hm
    obtain ⟨i, -, rfl⟩ := hm
    simp only [Bool.and_eq_true, bne_iff_ne, Bool.not_eq_true', List.contains_eq_mem, decide_eq_false_iff_not] at hp
    exact ⟨hp.1, Nat.mod_lt _ (by omega), hp.2⟩
  | none =>
    exfalso
    have hall : Finset.Ico 1 256 ⊆ held.toFinset := by
      intro v hv
      obtain ⟨h1, h2⟩ := Finset.mem_Ico.mp hv
      have h := List.find?_eq_none.mp hf v (mem_tokenCandidates t h2)
      simpa [show v ≠ 0 by omega] using h
    have hcard := (Finset.card_le_card hall).trans (List.toFinset_card_le held)
    rw [Nat.card_Ico] at hcard
    omega

/-- The first element that satisfies a predicate is the only one that does. -/
theorem find?_eq_some_of_unique {α : Type} {p : α → Bool} {l : List α} {a : α} (ha : a ∈ l) (hp : p a = true)
    (huniq : ∀ b ∈ l, p b = true → b = a) : l.find? p = some a := by
  obtain ⟨b, hb⟩ := Option.isSome_iff_exists.mp (List.find?_isSome.mpr ⟨a, ha, hp⟩)
  rw [hb, huniq b (List.mem_of_find?_eq_some hb) (List.find?_some hb)]

/-! ### What a command acts on (R75) -/

/-- A transaction command of a tenant acts on its own room; its window no longer reports DENIED for a room. -/
theorem State.withScope_own {s : State} {fn : Fn} {m : Room} {r : RoomCfg} (ha : s.tenActive fn = true)
    (hr : s.roomCfg? m = some r) (ht : r.tenant = fn.val) (f : Nat → State → State) :
    s.withScope (.tenant fn m) f = f m (s.modTen fn (fun t => { t with txDenied := none })) := by
  simp [State.withScope, ha, hr, State.roomTenant, ht]

section
variable (s : State)

theorem exec_openTxn (src : Src) (fence : Bool) : exec (.openTxn src fence) s = .next (s.openTxn src fence) := rfl
theorem exec_commit (src : Src) (token : Nat) (force maint cell : Bool) :
    exec (.commit src token force maint cell) s = .next (s.commit src token force maint cell) := rfl
theorem exec_rollback (src : Src) (token : Nat) : exec (.rollback src token) s = .next (s.rollback src token) := rfl
theorem exec_keepalive (src : Src) (token : Nat) : exec (.keepalive src token) s = .next (s.keepalive src token) := rfl
theorem exec_idleTimeout_chip : exec (.idleTimeout 64) s = .next (s.idleTimeout chipScope) := rfl
theorem exec_txwWdataWrite (fn : Fn) (v : Word) : exec (.txwWdataWrite fn v) s = .next (s.txwWrite fn v) := rfl

theorem State.postTxn_chip (r : Nat) :
    s.postTxn chipScope r = { s with txn := { s.txn with chip := { s.txn.chip with result := r, detail := 0 } } } :=
  State.modTxnAt_chip ..

theorem State.txnAt_chip : s.txnAt chipScope = s.txn.chip := if_pos rfl

/-- An OPEN that finds no transaction issues a token. -/
theorem State.openTxn_chip_opens (hi : s.txn.chip.st = .idle) (hr : s.roomTxns = []) (fence : Bool) :
    s.openTxn .pf0 fence = s.openScope chipScope := by
  simp [State.openTxn, State.withScope, State.openChip, hi, hr]

theorem State.openTxn_chip_busy (h : s.txn.chip.st ≠ .idle) (fence : Bool) : s.openTxn .pf0 fence = s.postTxn chipScope 0x86 := by
  simp [State.openTxn, State.withScope, State.openChip, h]

theorem State.openTxn_chip_rooms (h : s.roomTxns ≠ []) : s.openTxn .pf0 false = s.postTxn chipScope 0x86 := by
  simp [State.openTxn, State.withScope, State.openChip, h]

section
variable {s} {token : Nat}

section
variable (h : s.txn.chip.st = .idle ∨ s.txn.chip.token ≠ token)
include h

theorem State.tokenOk_wrong : s.tokenOk chipScope token = false := by
  rcases h with h | h <;> simp [State.tokenOk, State.txnAt_chip, h]

theorem State.rollback_badToken : s.rollback .pf0 token = s.postTxn chipScope 0x85 := by
  simp [State.rollback, State.withScope, State.tokenOk_wrong h]

theorem State.keepalive_badToken : s.keepalive .pf0 token = s.postTxn chipScope 0x85 := by
  simp [State.keepalive, State.withScope, State.tokenOk_wrong h]

theorem State.commit_badToken (force maint cell : Bool) : s.commit .pf0 token force maint cell = s.postTxn chipScope 0x85 := by
  simp [State.commit, State.withScope, State.tokenOk_wrong h]

end

theorem State.tokenOk_own (h : s.txn.chip.st ≠ .idle) : s.tokenOk chipScope s.txn.chip.token = true := by
  simp [State.tokenOk, State.txnAt_chip, h]

section
variable (ho : s.txn.chip.st = .opened)
include ho

/-- A commit that is not cell-wide goes to validation, with the next number in the order of commits. -/
theorem State.commit_opened (force maint : Bool) :
    s.commit .pf0 s.txn.chip.token force maint false = { s with txn := { s.txn with
      commits := s.txn.commits + 1
      chip := { s.txn.chip with st := .validating, force := force, maint := maint, cell := false, pendCommit := false,
                                lastGtc := s.clk.gtc, ord := s.txn.commits } } } := by
  have hok : s.tokenOk chipScope s.txn.chip.token = true := State.tokenOk_own (by simp [ho])
  simp [State.commit, State.withScope, hok, State.txnAt_chip, ho, State.modTxnAt_chip, State.modTxn]

theorem State.rollback_opened : s.rollback .pf0 s.txn.chip.token = s.endTxn chipScope 0x80 := by
  have hok : s.tokenOk chipScope s.txn.chip.token = true := State.tokenOk_own (by simp [ho])
  simp [State.rollback, State.withScope, hok, State.txnAt_chip, ho]

theorem State.keepalive_opened :
    s.keepalive .pf0 s.txn.chip.token = { s with txn := { s.txn with chip := { s.txn.chip with lastGtc := s.clk.gtc } } } := by
  have hok : s.tokenOk chipScope s.txn.chip.token = true := State.tokenOk_own (by simp [ho])
  simp [State.keepalive, State.withScope, hok, State.txnAt_chip, ho, State.modTxnAt_chip]

theorem State.idleTimeout_opened :
    s.idleTimeout chipScope = (s.reach (s.txn.chip.lastGtc + s.idleLimit)).endTxn chipScope 0x81 := by
  simp [State.idleTimeout, State.txnAt_chip, ho]

end

section
variable (h : s.txn.chip.st = .validating ∨ s.txn.chip.st = .hatching)
include h

theorem State.rollback_ignored : s.rollback .pf0 s.txn.chip.token = s := by
  rcases h with h | h <;> simp [State.rollback, State.withScope, State.tokenOk, State.txnAt_chip, h]

theorem State.commit_ignored (force maint cell : Bool) : s.commit .pf0 s.txn.chip.token force maint cell = s := by
  rcases h with h | h <;> simp [State.commit, State.withScope, State.tokenOk, State.txnAt_chip, h]

end

end

end

theorem State.reach_valid {s : State} (h : s.clk.valid = true) (g : Nat) :
    s.reach g = { s with clk := { s.clk with gtc := max s.clk.gtc g } } := by
  simp [State.reach, h, State.modClk]

/-- A chip transaction ended while no load runs: the Attic is the Living set, and nothing else has changed. -/
theorem State.endTxn_chip_ends {s : State} (hb : s.txn.loader.busy = false) (r : Nat) :
    (s.endTxn chipScope r).attic = s.living ∧ (s.endTxn chipScope r).txn.chip.st = .idle
      ∧ (s.endTxn chipScope r).txn.chip.result = r ∧ (s.endTxn chipScope r).living = s.living
      ∧ (s.endTxn chipScope r).clk = s.clk ∧ { s.endTxn chipScope r with attic := s.attic, txn := s.txn } = s := by
  rw [State.endTxn_chip hb]
  exact ⟨rfl, rfl, rfl, rfl, rfl, rfl⟩

/-! ### A tenant's transactions (R72, R75) -/

section
variable {s : State} {fn : Fn} {m : Room} {r : RoomCfg} {tc : TenantCfg} (ha : s.tenActive fn = true)
  (hr : s.roomCfg? m = some r) (ht : r.tenant = fn.val) (htc : s.tenantCfg? fn = some tc)
include ha hr ht htc

/-- An OPEN by the owner of a room: DENIED without ROOM_TXN, refused while the chip transaction or the room's is open, else a
transaction of the room. -/
theorem State.openTxn_room :
    s.openTxn (.tenant fn m) false =
      (let s := s.modTen fn (fun t => { t with txDenied := none })
       if nbit tc.flags 1 = false then s.postTxn m 0x87
       else if s.txn.chip.st ≠ .idle ∨ (s.txnAt m).st ≠ .idle then s.postTxn m 0x86
       else s.openScope m) := by
  have htenant : NMap.find? (s.modTen fn (fun t => { t with txDenied := none })).living.tenants fn.val = some tc := htc
  have hroom : (s.modTen fn (fun t => { t with txDenied := none })).roomCfg? m = some r := hr
  rw [State.openTxn, State.withScope_own ha hr ht]
  simp [State.openRoom, room_ne_chipScope, State.roomTenant, hroom, ht, htenant]

end

theorem State.openScope_room (s : State) (m : Room) :
    let tok := nextToken s.tokensHeld s.txn.token
    ((s.openScope m).txnAt m).st = .opened ∧ ((s.openScope m).txnAt m).token = tok ∧ (s.openScope m).txn.token = tok
      ∧ (∀ k, k ≠ m.val → (s.openScope m).txnAt k = s.txnAt k) ∧ { s.openScope m with txn := s.txn } = s := by
  unfold State.openScope
  simp only [if_neg (room_ne_chipScope m), State.txnAt_modTxnAt, if_true]
  refine ⟨trivial, trivial, ?_, fun k hk => if_neg (Ne.symm hk), rfl⟩
  exact (congrArg TxnUnit.token (State.modTxnAt_unit _ _ _) :)

/-- The write of an OPEN transaction's own token lands in the Attic, where the register is in its scope. -/
theorem State.txwWrite_lands {s : State} {fn : Fn} {m : Room} {mask : Word} (ha : s.tenActive fn = true)
    (hown : s.roomTenant m = fn.val) (hm : m.val ∈ s.roomTxns) (htok : (s.txnAt m).token = fld (s.b2 fn 0x5010) 32 8)
    (ho : (s.txnAt m).st = .opened)
    (huniq : ∀ k ∈ s.roomTxns, (s.txnAt k).token = fld (s.b2 fn 0x5010) 32 8 → k = m.val)
    (hs : fld (s.b2 fn 0x5010) 0 25 ∈ s.scopeOffs m) (hk : rwtMask (fld (s.b2 fn 0x5010) 0 25) = some mask) (v : Word) :
    s.txwWrite fn v = s.atticWrite m (fld (s.b2 fn 0x5010) 0 25) mask v := by
  have hf : s.roomTxns.find? (fun k => s.roomTenant k == fn.val && (s.txnAt k).token == fld (s.b2 fn 0x5010) 32 8
      && (s.txnAt k).st == .opened) = some m.val := by
    refine find?_eq_some_of_unique hm (by simp [hown, htok, ho]) (fun k hk hp => huniq k hk ?_)
    simp only [Bool.and_eq_true, beq_iff_eq] at hp
    exact hp.1.2
  simp [State.txwWrite, ha, State.txwAddr, hf, hk, hs]

/-- A write whose token names no OPEN transaction of the tenant is discarded and counted. -/
theorem State.txwWrite_discards {s : State} {fn : Fn} (ha : s.tenActive fn = true)
    (hnone : ∀ k ∈ s.roomTxns, s.roomTenant k = fn.val → (s.txnAt k).st = .opened → (s.txnAt k).token ≠ fld (s.b2 fn 0x5010) 32 8)
    (v : Word) : s.txwWrite fn v = s.modTen fn (fun t => { t with txDiscards := sat1 16 t.txDiscards }) := by
  have hf : s.roomTxns.find? (fun k => s.roomTenant k == fn.val && (s.txnAt k).token == fld (s.b2 fn 0x5010) 32 8
      && (s.txnAt k).st == .opened) = none := by
    refine List.find?_eq_none.mpr (fun k hk => ?_)
    have h := hnone k hk
    simp only [Bool.and_eq_true, beq_iff_eq]
    tauto
  simp [State.txwWrite, ha, State.txwAddr, hf]

theorem State.tokensHeld_idle {s : State} (hi : s.txn.chip.st = .idle) :
    s.tokensHeld = s.roomTxns.map (fun k => (s.txnAt k).token) := by
  simp [State.tokensHeld, hi]

/-- Settles O37: the commands of PF0 by the state of the chip transaction, then a tenant's OPEN and its writes. -/
theorem transactionsOpenAndEnd : Obligations.TransactionsOpenAndEnd := by
  refine ⟨fun s => ⟨?opens, ?busy, ?rooms, ?badToken, fun ho => ⟨?commit, ?rollback, ?keepalive, ?idle⟩, ?ignored⟩,
    fun s fn m r tc ha hr ht htc => ⟨?roomOpens, ?denied, fun v => ⟨?lands, ?discards⟩⟩⟩
  case opens =>
    intro hi hr fence
    have hnil : s.tokensHeld = [] := by rw [State.tokensHeld_idle hi, hr]; rfl
    obtain ⟨hne, hlt, -⟩ := nextToken_spec (held := s.tokensHeld) (by rw [hnil]; decide) s.txn.token
    rw [exec_openTxn, State.openTxn_chip_opens s hi hr]
    exact ⟨_, rfl, rfl, rfl, rfl, hne, hlt, rfl, rfl, rfl, rfl⟩
  case busy =>
    intro fence h
    rw [exec_openTxn, State.openTxn_chip_busy s h, State.postTxn_chip]
  case rooms =>
    intro h
    rw [exec_openTxn, State.openTxn_chip_rooms s h, State.postTxn_chip]
  case badToken =>
    intro token h
    refine ⟨?_, ?_, fun force maint cell => ?_⟩
    · exact congrArg Host.Outcome.next ((State.rollback_badToken h).trans (s.postTxn_chip 0x85))
    · exact congrArg Host.Outcome.next ((State.keepalive_badToken h).trans (s.postTxn_chip 0x85))
    · exact congrArg Host.Outcome.next ((State.commit_badToken h force maint cell).trans (s.postTxn_chip 0x85))
  case commit =>
    intro force maint
    rw [exec_commit, State.commit_opened ho]
    exact ⟨_, rfl, rfl⟩
  case rollback =>
    intro hb
    obtain ⟨hattic, hst, hres, hliving, hclk, honly⟩ := State.endTxn_chip_ends hb 0x80
    rw [exec_rollback, State.rollback_opened ho]
    exact ⟨_, rfl, ⟨hattic, hst, hres, hliving, congrArg (fun x : State => { x with clk := s.clk }) honly⟩, hclk⟩
  case keepalive => rw [exec_keepalive, State.keepalive_opened ho]
  case idle =>
    intro hb hv
    have hreach := State.reach_valid hv (s.txn.chip.lastGtc + s.idleLimit)
    obtain ⟨hattic, hst, hres, hliving, hclk, honly⟩ :=
      State.endTxn_chip_ends (s := s.reach (s.txn.chip.lastGtc + s.idleLimit)) (by rw [hreach]; exact hb) 0x81
    rw [exec_idleTimeout_chip, State.idleTimeout_opened ho]
    rw [hreach] at hattic hst hres hliving hclk honly ⊢
    exact ⟨_, rfl, ⟨hattic, hst, hres, hliving, congrArg (fun x : State => { x with clk := s.clk }) honly⟩, hclk⟩
  case ignored =>
    intro h
    refine ⟨?_, fun force maint cell => ?_⟩
    · rw [exec_rollback, State.rollback_ignored h]
    · rw [exec_commit, State.commit_ignored h]
  case roomOpens =>
    intro hb hi hmi hlen
    have e : s.openTxn (.tenant fn m) false = (s.modTen fn (fun t => { t with txDenied := none })).openScope m := by
      rw [State.openTxn_room ha hr ht htc]
      exact (if_neg (by simp [hb])).trans (if_neg (not_or.mpr ⟨not_not.mpr hi, not_not.mpr hmi⟩))
    have hheld := State.tokensHeld_idle hi
    have hin : ∀ k ∈ s.roomTxns, (s.txnAt k).token ∈ s.tokensHeld := fun k hk => hheld ▸ List.mem_map.mpr ⟨k, hk, rfl⟩
    obtain ⟨hne, -, hfresh⟩ := nextToken_spec (held := s.tokensHeld) (by rw [hheld, List.length_map]; omega) s.txn.token
    obtain ⟨hst, htok, hunit, hothers, honly⟩ := State.openScope_room (s.modTen fn (fun t => { t with txDenied := none })) m
    rw [exec_openTxn, e]
    refine ⟨_, rfl, hst, htok.trans hunit.symm, ?_, fun k hk => ?_, hothers,
      congrArg (fun x : State => { x with ten := s.ten }) honly⟩
    · rw [hunit]; exact hne
    · rw [hunit]
      exact fun h => hfresh (h ▸ hin k hk)
  case denied =>
    intro hb
    have e : s.openTxn (.tenant fn m) false = (s.modTen fn (fun t => { t with txDenied := none })).postTxn m 0x87 := by
      rw [State.openTxn_room ha hr ht htc, hb]; rfl
    rw [exec_openTxn, e]
    refine ⟨_, rfl, ?_, ?_, ?_, ?_⟩
    · rw [State.postTxn, State.txnAt_modTxnAt, if_pos rfl]
    · rw [State.postTxn, State.txnAt_modTxnAt, if_pos rfl]; rfl
    · exact (congrArg TxnUnit.token (State.modTxnAt_unit _ _ _) :)
    · rfl
  case lands =>
    intro mask hm htok ho huniq hs hk
    have hown : s.roomTenant m = fn.val := by simp [State.roomTenant, hr, ht]
    rw [exec_txwWdataWrite, State.txwWrite_lands ha hown hm htok ho huniq hs hk]
    refine ⟨_, rfl, s.atticTakes_atticWrite .., ?_, ?_⟩
    · rw [State.atticWrite_txnAt, if_pos rfl]
    · rfl
  case discards =>
    intro hnone
    rw [exec_txwWdataWrite, State.txwWrite_discards ha hnone]
    refine ⟨_, rfl, ?_, rfl⟩
    rw [State.tenant_modTen, if_pos rfl]

end Sys2Proof.Machine
end

section
/-! PROOFS. What shared effects leave alone: messages to other chips, events, records, and updates of many rooms. -/

namespace Sys2Proof.Machine

open Sys2Proof

/-! ### Effects one after another -/

/-- A relation that holds of no effect, and of effects one after another, holds of a fold of effects. -/
theorem foldl_relates {σ α : Type} {R : σ → σ → Prop} (hrefl : ∀ s, R s s) (htrans : ∀ {s t u}, R s t → R t u → R s u)
    {f : σ → α → σ} (hf : ∀ s x, R s (f s x)) (l : List α) (s : σ) : R s (l.foldl f s) :=
  List.foldlRecOn (motive := fun t => R s t) l f (hrefl s) (fun t h x _ => htrans h (hf t x))

/-! ### Messages to other chips -/

/-- Only the ports and what has left the device may differ. -/
def State.onlySends (s t : State) : Prop := ∃ l o, t = { s with link := l, out := o }

theorem State.onlySends_refl (s : State) : s.onlySends s := ⟨s.link, s.out, rfl⟩

theorem State.onlySends_trans {s t u : State} (h : s.onlySends t) (g : t.onlySends u) : s.onlySends u := by
  obtain ⟨l, o, rfl⟩ := h
  obtain ⟨l', o', rfl⟩ := g
  exact ⟨l', o', rfl⟩

theorem State.onlySends_foldl {α : Type} {f : State → α → State} (hf : ∀ (s : State) x, s.onlySends (f s x)) (l : List α) (s : State) :
    s.onlySends (l.foldl f s) :=
  foldl_relates State.onlySends_refl State.onlySends_trans hf l s

theorem State.onlySends_modPort (p : Nat) (f : LPort → LPort) (s : State) : s.onlySends (s.modPort p f) := ⟨_, s.out, rfl⟩

theorem State.onlySends_send (m : OutMsg) (s : State) : s.onlySends (s.send m) := ⟨s.link, _, rfl⟩

theorem State.onlySends_freeBlocks (p vc n : Nat) (s : State) : s.onlySends (s.freeBlocks p vc n) := by
  unfold State.freeBlocks
  dsimp only
  split
  · exact State.onlySends_trans (State.onlySends_modPort p _ s) (State.onlySends_send ..)
  · exact State.onlySends_modPort p _ s

theorem State.onlySends_transmit (p : Nat) (h : Held) (s : State) : s.onlySends (s.transmit p h) := by
  unfold State.transmit
  dsimp only
  have hsent : ∀ f m, s.onlySends ((s.modPort p f).send m) := fun f m =>
    State.onlySends_trans (State.onlySends_modPort p f s) (State.onlySends_send m _)
  split
  · exact State.onlySends_trans (hsent _ _) (State.onlySends_freeBlocks ..)
  · exact hsent _ _

theorem State.onlySends_offer (p : Nat) (h : Held) (s : State) : s.onlySends (s.offer p h) := by
  unfold State.offer
  split
  · exact State.onlySends_transmit p h s
  · exact State.onlySends_modPort p _ s

theorem State.onlySends_dispatchHeld (h : Held) (s : State) : s.onlySends (s.dispatchHeld h) := by
  unfold State.dispatchHeld
  dsimp only
  split
  · exact ⟨_, s.out, rfl⟩
  · exact iteInduction (motive := s.onlySends) (fun _ => ⟨_, s.out, rfl⟩) (fun _ => State.onlySends_offer ..)

theorem State.onlySends_sendMsg (dst : Nat) (m : LMsg) (s : State) : s.onlySends (s.sendMsg dst m) :=
  State.onlySends_dispatchHeld ..

theorem State.onlySends_flood (m : LMsg) (s : State) : s.onlySends (s.flood m) :=
  State.onlySends_foldl (fun s p => State.onlySends_offer p _ s) _ s

/-! ### Events -/

/-- Only stamps and the Ledger may differ. -/
def State.onlyEvents (s t : State) : Prop := ∃ st l, t = { s with clk := { s.clk with stamps := st }, ledg := l }

theorem State.onlyEvents_emit (src cls code ten sev : Nat) (words : List Nat) (s : State) :
    s.onlyEvents (s.emit src cls code ten sev words) := by
  unfold State.emit State.stageEvent
  dsimp only
  split <;> exact ⟨_, _, rfl⟩

/-- An event raised in a state is raised in any other with the same clocks and Ledger. -/
theorem State.raises_of_eq {s u t : State} (hc : u.clk = s.clk) (hl : u.ledg = s.ledg) {src cls code ten sev : Nat}
    {words : List Nat} (h : u.raises src cls code ten sev words t) : s.raises src cls code ten sev words t := by
  obtain ⟨hledg, hclk⟩ := h
  obtain ⟨el, ec⟩ := State.raises_emit_of_eq hc hl src cls code ten sev words
  exact ⟨hledg.trans el, hclk.trans ec⟩

/-! ### Completion records -/

/-- Only the completion rings, the functions' poll state and what has left the device may differ. -/
def State.onlyRecs (s t : State) : Prop := ∃ r f o, t = { s with qm := { s.qm with rings := r, fns := f }, out := o }

theorem State.onlyRecs_refl (s : State) : s.onlyRecs s := ⟨s.qm.rings, s.qm.fns, s.out, rfl⟩

theorem State.onlyRecs_trans {s t u : State} (h : s.onlyRecs t) (g : t.onlyRecs u) : s.onlyRecs u := by
  obtain ⟨r, f, o, rfl⟩ := h
  obtain ⟨r', f', o', rfl⟩ := g
  exact ⟨r', f', o', rfl⟩

theorem State.onlyRecs_foldl {α : Type} {f : State → α → State} (hf : ∀ (s : State) x, s.onlyRecs (f s x)) (l : List α) (s : State) :
    s.onlyRecs (l.foldl f s) :=
  foldl_relates State.onlyRecs_refl State.onlyRecs_trans hf l s

theorem State.onlyRecs_modRing (ring : Nat) (f : CRing → CRing) (s : State) : s.onlyRecs (s.modRing ring f) := ⟨_, s.qm.fns, s.out, rfl⟩

theorem State.onlyRecs_writeRec (ring : Nat) (rc : Rec) (s : State) : s.onlyRecs (s.writeRec ring rc) := ⟨_, _, _, rfl⟩

theorem State.onlyRecs_flushRing (ring n : Nat) (s : State) : s.onlyRecs (s.flushRing ring n) := by
  induction n generalizing s with
  | zero => exact s.onlyRecs_refl
  | succ n ih =>
    unfold State.flushRing
    dsimp only
    split
    · exact s.onlyRecs_refl
    · split
      · exact State.onlyRecs_trans (State.onlyRecs_trans (State.onlyRecs_modRing ring _ s) (State.onlyRecs_writeRec ..)) (ih _)
      · exact s.onlyRecs_refl

theorem State.onlyRecs_postRec (ring : Nat) (rc : Rec) (s : State) : s.onlyRecs (s.postRec ring rc) :=
  State.onlyRecs_trans (State.onlyRecs_modRing ring _ s) (State.onlyRecs_flushRing ..)

/-! ### Updates of many rooms -/

/-- The state with another table of rooms. -/
def State.withRooms (rs : NMap RoomRt) (s : State) : State := s.modTenU (fun u => { u with rooms := rs })

@[simp] theorem State.withRooms_room (rs : NMap RoomRt) (s : State) (m : Nat) :
    (s.withRooms rs).room m = NMap.getD rs m .reset := rfl

/-- A fold of effects, each of which does `g` to the one room that it names, does `g` to every room named, where doing it
twice is doing it once. -/
theorem State.withRooms_foldl {s : State} {f : State → Nat → State} {g : Nat → RoomRt → RoomRt} (hg : ∀ m r, g m (g m r) = g m r)
    (hf : ∀ rs m, ∃ rs', f (s.withRooms rs) m = s.withRooms rs'
      ∧ ∀ k, NMap.getD rs' k .reset = if k = m then g k (NMap.getD rs k .reset) else NMap.getD rs k .reset)
    (l : List Nat) : ∃ rs, l.foldl f s = s.withRooms rs ∧ ∀ k, NMap.getD rs k .reset = if k ∈ l then g k (s.room k) else s.room k := by
  suffices h : ∀ rs0, ∃ rs, l.foldl f (s.withRooms rs0) = s.withRooms rs
      ∧ ∀ k, NMap.getD rs k .reset = if k ∈ l then g k (NMap.getD rs0 k .reset) else NMap.getD rs0 k .reset from h s.ten.rooms
  induction l with
  | nil => exact fun rs0 => ⟨rs0, rfl, fun k => rfl⟩
  | cons m l ih =>
    intro rs0
    obtain ⟨rs1, he, h1⟩ := hf rs0 m
    obtain ⟨rs, hl, h2⟩ := ih rs1
    refine ⟨rs, by rw [List.foldl_cons, he, hl], fun k => ?_⟩
    rw [h2, h1]
    by_cases hk : k = m
    · simp [hk, hg]
    · simp [hk]

/-- An effect that is an update of one room. -/
theorem State.withRooms_modRoom (s : State) (rs : NMap RoomRt) (m : Nat) (g : Nat → RoomRt → RoomRt) :
    ∃ rs', (s.withRooms rs).modRoom m (g m) = s.withRooms rs'
      ∧ ∀ k, NMap.getD rs' k .reset = if k = m then g k (NMap.getD rs k .reset) else NMap.getD rs k .reset := by
  refine ⟨NMap.upd rs m .reset (g m), rfl, fun k => ?_⟩
  rw [NMap.getD_upd]
  by_cases h : m = k
  · simp [h]
  · simp [h, Ne.symm h]

end Sys2Proof.Machine
end

section
/-! PROOFS. The Hatch: rooms held and resumed, and the abort of the Hatch in progress (R82–R84, Table 5-2). -/

namespace Sys2Proof.Machine

open Sys2Proof

/-! ### Rooms of a word -/

theorem mem_bitsOf {m : Nat} {w : Word} : m ∈ bitsOf 64 w ↔ bitOf w m = true := by
  simp only [bitsOf, List.mem_filter, List.mem_range, and_iff_right_iff_imp]
  exact fun h => BitVec.lt_of_getLsbD h

theorem bitsOf_zero : bitsOf 64 0 = [] :=
  List.eq_nil_iff_forall_not_mem.mpr (fun m h => by simpa [bitOf] using mem_bitsOf.mp h)

/-! ### Holding rooms (R82) -/

/-- A room whose task starts are held: SERVING becomes HELD. -/
def RoomRt.hold (r : RoomRt) : RoomRt := if r.st = .serving then { r with st := .held } else r

theorem RoomRt.hold_hold (r : RoomRt) : r.hold.hold = r.hold := by
  unfold RoomRt.hold
  split <;> simp_all

/-- A hold of the rooms that `b` names. -/
theorem RoomRt.hold_if (b : Bool) (r : RoomRt) :
    (if b then r.hold else r) = if b = true ∧ r.st = .serving then { r with st := .held } else r := by
  unfold RoomRt.hold
  cases b <;> simp

theorem State.holdRoom_eq (m : Nat) (s : State) : s.holdRoom m = s.modRoom m RoomRt.hold := by
  simp only [State.holdRoom, beq_iff_eq]
  rfl

theorem State.holdRooms (l : List Nat) (s : State) :
    ∃ rs, l.foldl (fun s m => s.holdRoom m) s = s.withRooms rs
      ∧ ∀ k, NMap.getD rs k .reset = if k ∈ l then (s.room k).hold else s.room k :=
  State.withRooms_foldl (g := fun _ => RoomRt.hold) (fun _ => RoomRt.hold_hold)
    (fun rs m => by rw [State.holdRoom_eq]; exact s.withRooms_modRoom rs m (fun _ => RoomRt.hold)) l

/-! ### Rooms that start tasks again (R83, R84, R91) -/

/-- A room that nothing holds any more: HELD becomes SERVING. -/
def State.resumed (s : State) (m : Nat) (r : RoomRt) : RoomRt :=
  if r.st = .held ∧ s.startsHeld m = false then { r with st := .serving } else r

theorem State.resumed_resumed (s : State) (m : Nat) (r : RoomRt) : s.resumed m (s.resumed m r) = s.resumed m r := by
  unfold State.resumed
  split <;> simp_all

/-- Where no start message waits, a room that resumes only changes its state. -/
theorem State.resumeRoom_withRooms {s : State} (hn : s.noStartWaits) (rs : NMap RoomRt) (m : Nat) :
    ∃ rs', (s.withRooms rs).resumeRoom m = s.withRooms rs'
      ∧ ∀ k, NMap.getD rs' k .reset = if k = m then s.resumed k (NMap.getD rs k .reset) else NMap.getD rs k .reset := by
  unfold State.resumeRoom
  by_cases hh : s.startsHeld m = true
  · refine ⟨rs, if_pos hh, fun k => ?_⟩
    split
    · rename_i hk; simp [State.resumed, hk, hh]
    · rfl
  · obtain ⟨rs', he, h⟩ := s.withRooms_modRoom rs m s.resumed
    refine ⟨rs', ?_, h⟩
    have hg : (fun r : RoomRt => if r.st == .held then { r with st := .serving } else r) = s.resumed m := by
      funext r; simp [State.resumed, Bool.eq_false_iff.mpr hh]
    rw [if_neg (by exact hh), hg, he]
    exact if_pos (by rw [show (s.withRooms rs').spanRt m = s.spanRt m from rfl, hn m]; rfl)

theorem State.resumeRooms {s : State} (hn : s.noStartWaits) (l : List Nat) :
    ∃ rs, l.foldl (fun s m => s.resumeRoom m) s = s.withRooms rs
      ∧ ∀ k, NMap.getD rs k .reset = if k ∈ l then s.resumed k (s.room k) else s.room k :=
  State.withRooms_foldl (g := s.resumed) s.resumed_resumed (State.resumeRoom_withRooms hn) l

/-! ### An abort (R84) -/

theorem State.modTxnAt_hatch (s : State) (sc : Nat) (f : Txn → Txn) : (s.modTxnAt sc f).txn.hatch = s.txn.hatch :=
  (congrArg TxnUnit.hatch (State.modTxnAt_unit ..) :)

/-- The Hatch unit after an abort. -/
def State.abortedHatch (s : State) (result failed : Nat) : Hatch :=
  { s.txn.hatch with st := .idle, result := result, blockIsl := s.blockers.1, forcing := false, voted := false
                     blockEng := s.blockers.2 ||| packW [(32, 16, failed)] }

/-- The state after an abort, but for its event. -/
def State.aborted (result failed : Nat) (rs : NMap RoomRt) (s : State) : State :=
  ((s.modHatch (fun _ => s.abortedHatch result failed)).withRooms rs).failTxn s.txn.hatch.cur result 0 0

theorem State.abortHatch_def (s : State) (result failed : Nat) :
    s.abortHatch result failed
      = let u := s.hatchRooms.foldl (fun s m => s.resumeRoom m) (s.modHatch (fun _ => s.abortedHatch result failed))
        (u.failTxn s.txn.hatch.cur result 0 0).emit 0xA0 1 2 (u.scopeTenant s.txn.hatch.cur) 2 [0xA0] := rfl

section
variable {s : State} (hn : s.noStartWaits) (result failed : Nat)
include hn

/-- An abort posts its result, resumes the rooms, opens the commit again, and raises its event. -/
theorem State.abortHatch_eq :
    ∃ rs, s.abortHatch result failed
        = (s.aborted result failed rs).emit 0xA0 1 2 (s.scopeTenant s.txn.hatch.cur) 2 [0xA0]
      ∧ ∀ k, NMap.getD rs k .reset = if bitOf s.txn.hatch.rooms k = true ∧ (s.room k).st = .held ∧ s.txn.quiesce = false
          ∧ s.plat.power ≠ .d3hot then { s.room k with st := .serving } else s.room k := by
  obtain ⟨rs, he, hr⟩ := State.resumeRooms (s := s.modHatch (fun _ => s.abortedHatch result failed)) hn s.hatchRooms
  refine ⟨rs, ?_, fun k => (hr k).trans ?_⟩
  · exact (s.abortHatch_def result failed).trans (by rw [he]; rfl)
  · have hheld : (s.modHatch (fun _ => s.abortedHatch result failed)).startsHeld k = (s.txn.quiesce || s.plat.power == .d3hot) := by
      simp [State.startsHeld, State.modHatch, State.abortedHatch]
    have hroom : (s.modHatch (fun _ => s.abortedHatch result failed)).room k = s.room k := rfl
    simp only [State.hatchRooms, mem_bitsOf, State.resumed, hheld, hroom, Bool.or_eq_false_iff, beq_eq_false_iff_ne]
    by_cases hb : bitOf s.txn.hatch.rooms k = true <;> simp [hb]

theorem State.abortHatch_hatch : (s.abortHatch result failed).txn.hatch = s.abortedHatch result failed := by
  obtain ⟨rs, he, -⟩ := State.abortHatch_eq hn result failed
  obtain ⟨st, l, hev⟩ := State.onlyEvents_emit 0xA0 1 2 (s.scopeTenant s.txn.hatch.cur) 2 [0xA0] (s.aborted result failed rs)
  rw [he, hev]
  exact State.modTxnAt_hatch ..

/-- An abort other than for INVALID is the one of the statements. -/
theorem State.abortHatch_aborts (h : result ≠ 0x83) :
    s.hatchAborts s.txn.hatch.cur result failed (s.abortHatch result failed) := by
  have hhatch := State.abortHatch_hatch hn result failed
  obtain ⟨rs, he, hr⟩ := State.abortHatch_eq hn result failed
  obtain ⟨st, l, hev⟩ := State.onlyEvents_emit 0xA0 1 2 (s.scopeTenant s.txn.hatch.cur) 2 [0xA0] (s.aborted result failed rs)
  refine ⟨?_, ?_, ?_, ?_, ?_, fun m => ?_, ?_, ?_⟩
  · rw [hhatch]; rfl
  · rw [hhatch]; rfl
  · rw [hhatch]; rfl
  · rw [hhatch]; rfl
  · rw [he, hev]
    refine (State.txnAt_modTxnAt ..).trans ((if_pos rfl).trans ?_)
    rw [if_neg h]; rfl
  · rw [he, hev]; exact hr m
  · rw [he]
    exact State.raises_emit_of_eq (s := s) (u := s.aborted result failed rs) rfl rfl ..
  · rw [he, hev]; rfl

end

end Sys2Proof.Machine
end

section
/-! PROOFS. Slots and tasks that are told to stop (R85, R103, R145): what a stop, a kill or a reset makes of a slot's state
and of a task's status. -/

namespace Sys2Proof.Machine

open Sys2Proof

/-! ### Slots (Table 7-5) -/

/-- The state of a slot after a stop request. -/
def SlotSt.stop : SlotSt → SlotSt
  | .ready | .running | .waiting => .stopping
  | x => x

theorem SlotSt.stop_of_live {x : SlotSt} (h : x.live) : x.stop = .stopping := by
  rcases h with rfl | rfl | rfl <;> rfl

theorem SlotSt.stop_of_not_live {x : SlotSt} (h : ¬x.live) : x.stop = x := by
  cases x <;> simp [SlotSt.live, SlotSt.stop] at h ⊢

theorem SlotSt.stop_stop (x : SlotSt) : x.stop.stop = x.stop := by cases x <;> rfl

theorem SlotSt.stop_ne_ending {x : SlotSt} (h : x ≠ .ending) : x.stop ≠ .ending := by
  cases x <;> simp [SlotSt.stop] at h ⊢

theorem State.stopSlot_st (n k : Nat) (s : State) (a b : Nat) :
    ((s.stopSlot n k).slot a b).st = if (n, k) = (a, b) then (s.slot a b).st.stop else (s.slot a b).st := by
  have hdrop : ∀ (u : State) (f : Isl → Isl), (∀ i, (f i).slots = i.slots) →
      ((u.modIsl n f).dropEngine n k).slot a b = u.slot a b := by
    intro u f hf
    show (u.modIsl n f).slot a b = u.slot a b
    simp only [State.slot, State.island_modIsl]
    split
    · rename_i h; rw [hf, h]
    · rfl
  unfold State.stopSlot
  dsimp only
  by_cases hl : (s.slot n k).st.live
  · rw [if_pos (by simpa [SlotSt.live, or_assoc] using hl)]
    refine (congrArg Slot.st (hdrop (s.modSlot n k (fun x => { x.dropReads with st := .stopping }))
      (fun i => { i.dropOps k with run := if i.run == some k then none else i.run }) (fun _ => rfl))).trans ?_
    rw [State.slot_modSlot]
    by_cases he : (n, k) = (a, b)
    · obtain ⟨rfl, rfl⟩ := Prod.mk.inj he
      simp [SlotSt.stop_of_live hl]
    · rw [if_neg (fun h => he (Prod.ext h.1 h.2)), if_neg he]
  · rw [if_neg (by simpa [SlotSt.live, or_assoc] using hl)]
    split
    · rename_i h
      obtain ⟨rfl, rfl⟩ := Prod.mk.inj h
      exact (SlotSt.stop_of_not_live hl).symm
    · rfl

theorem State.stopSlots_st (l : List (Nat × Nat)) (s : State) (a b : Nat) :
    ((l.foldl (fun (s : State) (x : Nat × Nat) => s.stopSlot x.1 x.2) s).slot a b).st
      = if (a, b) ∈ l then (s.slot a b).st.stop else (s.slot a b).st := by
  induction l generalizing s with
  | nil => rfl
  | cons x l ih =>
    rw [List.foldl_cons, ih, State.stopSlot_st]
    by_cases hx : x = (a, b)
    · simp [hx, SlotSt.stop_stop]
    · simp [hx, Ne.symm hx]

/-- A stop makes no slot ENDING. -/
theorem State.stopSlots_ending {l : List (Nat × Nat)} {s : State} {a b : Nat} (h : (s.slot a b).st ≠ .ending) :
    ((l.foldl (fun (s : State) (x : Nat × Nat) => s.stopSlot x.1 x.2) s).slot a b).st ≠ .ending := by
  rw [State.stopSlots_st]
  split
  · exact SlotSt.stop_ne_ending h
  · exact h

/-! ### A task told to stop -/

theorem State.onlyWork_txn {s t : State} (h : s.onlyWork t) : t.txn = s.txn := by
  unfold State.onlyWork at h
  exact (congrArg State.txn h :)

section
variable {s : State} {i n k : Nat} {tk : Task} {more : List (Nat × Nat)}

theorem State.task?_setStatus (ht : s.task? i = some tk) (a b : Nat) :
    (s.setStatus i a b).task? i = some { tk with status := some (tk.status.getD (a, b)) } := by
  rw [State.setStatus, State.task?_modTask, if_pos rfl, ht]
  cases hst : tk.status <;> simp [hst]

/-- Stops of slots leave every task. -/
theorem State.task?_stopSlots (l : List (Nat × Nat)) (u : State) (j : Nat) :
    (l.foldl (fun (s : State) (x : Nat × Nat) => s.stopSlot x.1 x.2) u).task? j = u.task? j :=
  congrArg (fun t : Tasks => NMap.find? t.live j) (State.stopSlots_tasks l u)

section
variable (ht : s.task? i = some tk) (hs : tk.slots = (n, k) :: more) (he : (s.slot n k).st ≠ .ending)
include ht hs he

/-- A task whose lead slot is not ENDING takes the status, unless it has one, and its slots are told to stop. -/
theorem State.stopTask_eq (a b : Nat) :
    s.stopTask i a b = tk.slots.foldl (fun (s : State) (x : Nat × Nat) => s.stopSlot x.1 x.2) (s.setStatus i a b) := by
  simp [State.stopTask, ht, hs, he]

theorem State.task?_stopTask (a b : Nat) : (s.stopTask i a b).task? i = some { tk with status := some (tk.status.getD (a, b)) } := by
  rw [State.stopTask_eq ht hs he, State.task?_stopSlots, State.task?_setStatus ht]

end

theorem State.task?_stopTask_other {j : Nat} (h : i ≠ j) (a b : Nat) : (s.stopTask j a b).task? i = s.task? i := by
  have hset : (s.setStatus j a b).task? i = s.task? i := by rw [State.setStatus, State.task?_modTask, if_neg h]
  unfold State.stopTask
  split
  · rfl
  · split
    · split
      · rfl
      · rw [State.task?_stopSlots, hset]
    · rfl

theorem State.stopTask_ending (h : (s.slot n k).st ≠ .ending) (j a b : Nat) : ((s.stopTask j a b).slot n k).st ≠ .ending := by
  unfold State.stopTask
  split
  · exact h
  · split
    · split
      · exact h
      · exact State.stopSlots_ending h
    · exact h

end

/-- Telling a span's members that a task ends at most marks the task, and sends messages. -/
theorem State.tellStops_cases (j : Nat) (s : State) :
    s.tellStops j = s ∨ (s.modTask j (fun t => { t with spanStop := true })).onlySends (s.tellStops j) := by
  unfold State.tellStops
  split
  · split
    · exact .inr (State.onlySends_foldl (fun s _ => State.onlySends_sendMsg _ _ s) ..)
    · exact .inl rfl
  · exact .inl rfl

theorem State.tellStops_slot (j : Nat) (s : State) (a b : Nat) : (s.tellStops j).slot a b = s.slot a b := by
  rcases s.tellStops_cases j with h | ⟨l, o, h⟩ <;> rw [h]
  rfl

/-- What is kept of a task that is told is what `spanStop` does not touch. -/
theorem State.tellStops_task {α : Type} (g : Task → α) (hg : ∀ t, g { t with spanStop := true } = g t) (j i : Nat) (s : State) :
    ((s.tellStops j).task? i).map g = (s.task? i).map g := by
  rcases s.tellStops_cases j with h | ⟨l, o, h⟩ <;> rw [h]
  exact State.task?_modTask_map (f := fun t => { t with spanStop := true }) g j i hg s

/-- A task told to stop leaves the configuration, the transactions and the Hatch. -/
theorem State.tellStops_txn (j : Nat) (s : State) : (s.tellStops j).txn = s.txn := by
  rcases s.tellStops_cases j with h | ⟨l, o, h⟩ <;> rw [h]
  rfl

end Sys2Proof.Machine
end

section
/-! PROOFS. The Hatch takes a commit, holds its rooms, arms T, and its deadline passes (R81–R86). -/

namespace Sys2Proof.Machine

open Sys2Proof

/-! ### The Hatch takes a commit (R82, R86) -/

/-- The first commit has left the queue. -/
def State.withQueue (rest : List Nat) (s : State) : State := s.modHatch (fun h => { h with queue := rest })

/-- The Hatch unit in PREPARE for a scope. -/
def State.preparing (sc : Nat) (s : State) : State :=
  s.modHatch (fun h => { h with st := .prepare, cur := sc, rooms := s.affected sc, since := s.clk.gtc, forcing := false,
                                preempted := 0, late := false, clearing := 0, voted := false })

/-- The ABORT that this member already knows for the commit taken, if that is cell-wide (R88). -/
def State.abortTaken (sc : Nat) (s : State) : Option Nat :=
  if (s.txnAt sc).cell then s.knownAbort s.hatchTag else none

/-- What a commit that passes R79 does once its rooms are held. -/
def State.prepareOn (sc : Nat) (affected : Word) (s : State) : State :=
  match s.abortTaken sc with
  | some failed => s.abortHatch 0x89 failed
  | none => if affected = 0 then s.prepared else s

/-- A commit that is not cell-wide, or whose ABORT nobody has learnt, stays in PREPARE, or is ready at once. -/
theorem State.prepareOn_goes {s : State} {sc : Nat} (h : (s.txnAt sc).cell = false ∨ s.knownAbort s.hatchTag = none) (affected : Word) :
    s.prepareOn sc affected = if affected = 0 then s.prepared else s := by
  have hno : s.abortTaken sc = none := by
    unfold State.abortTaken
    rcases h with h | h
    · rw [h]; rfl
    · rw [h]; split <;> rfl
  unfold State.prepareOn
  rw [hno]

theorem State.prepared_alone {s : State} (h : (s.txnAt s.txn.hatch.cur).cell = false) : s.prepared = s.armAt (s.clk.gtc + 1000) := by
  unfold State.prepared
  rw [h]; rfl

/-- A commit that is not cell-wide is refused without a vote. -/
theorem State.refuseCommit_alone {s : State} {sc : Nat} (h : (s.txnAt sc).cell = false) (x : Nat × Nat × Word) :
    s.refuseCommit sc x = s.failTxn sc x.1 x.2.1 x.2.2 := by
  unfold State.refuseCommit
  rw [h]; rfl

section
variable {s : State} {sc : Nat} {rest : List Nat} (hi : s.txn.hatch.st = .idle) (hq : s.txn.hatch.queue = sc :: rest)
include hi hq

theorem State.hatchPrepare_refuses {x : Nat × Nat × Word} (h : (s.withQueue rest).judge sc none = some x) :
    s.hatchPrepare = (s.withQueue rest).refuseCommit sc x := by
  have hj : (s.modHatch (fun h => { h with queue := rest })).judge sc none = some x := h
  unfold State.hatchPrepare
  rw [if_neg (by simp [hi]), hq]
  dsimp only
  rw [hj]
  rfl

/-- The commit passes R79: its affected rooms are held in PREPARE. -/
theorem State.hatchPrepare_passes (h : (s.withQueue rest).judge sc none = none) :
    s.hatchPrepare = ((bitsOf 64 ((s.withQueue rest).affected sc)).foldl (fun s m => s.holdRoom m)
      ((s.withQueue rest).preparing sc)).prepareOn sc ((s.withQueue rest).affected sc) := by
  have hj : (s.modHatch (fun h => { h with queue := rest })).judge sc none = none := h
  unfold State.hatchPrepare
  rw [if_neg (by simp [hi]), hq]
  dsimp only
  rw [hj]
  rfl

/-- A commit that affects rooms, and whose ABORT nobody has learnt, stays in PREPARE. -/
theorem State.hatchPrepare_holds (h : (s.withQueue rest).judge sc none = none) (ha : (s.withQueue rest).affected sc ≠ 0)
    (hk : (s.txnAt sc).cell = false ∨ s.knownAbort s.hatchTag = none) :
    ∃ rs, s.hatchPrepare = ((s.withQueue rest).preparing sc).withRooms rs
      ∧ ∀ k, NMap.getD rs k .reset = if bitOf ((s.withQueue rest).affected sc) k then (s.room k).hold else s.room k := by
  obtain ⟨rs, he, hr⟩ := State.holdRooms (bitsOf 64 ((s.withQueue rest).affected sc)) ((s.withQueue rest).preparing sc)
  refine ⟨rs, ?_, fun k => (hr k).trans (by simp only [mem_bitsOf]; rfl)⟩
  rw [State.hatchPrepare_passes hi hq h, he]
  exact (State.prepareOn_goes (s := ((s.withQueue rest).preparing sc).withRooms rs) hk _).trans (if_neg ha)

/-- A commit that affects no room arms the swap at once. -/
theorem State.hatchPrepare_arms (h : (s.withQueue rest).judge sc none = none) (ha : (s.withQueue rest).affected sc = 0)
    (hc : (s.txnAt sc).cell = false) : s.hatchPrepare = ((s.withQueue rest).preparing sc).armAt (s.clk.gtc + 1000) := by
  rw [State.hatchPrepare_passes hi hq h, ha, bitsOf_zero, List.foldl_nil]
  exact (State.prepareOn_goes (s := (s.withQueue rest).preparing sc) (.inl hc) _).trans ((if_pos rfl).trans (State.prepared_alone hc))

end

/-! ### Ready, and late (R83, R84, R85) -/

section
variable {s : State} (hc : (s.txnAt s.txn.hatch.cur).cell = false)
include hc

section
variable (hp : s.txn.hatch.st = .prepare)
include hp

section
variable (hv : s.txn.hatch.voted = false)
include hv

theorem State.hatchReady_alone (hf : s.txn.hatch.forcing = false) :
    s.hatchReady = if s.hatchClear then s.armAt (s.clk.gtc + 1000) else s := by
  simp [State.hatchReady, hp, hf, hv, State.prepared_alone hc]

theorem State.hatchForceStopped_alone (hf : s.txn.hatch.forcing = true) :
    s.hatchForceStopped = if s.hatchClear then s.armAt (s.clk.gtc + 1000) else s := by
  simp [State.hatchForceStopped, hp, hf, hv, State.prepared_alone hc]

end

/-- The instant of a deadline of Prepare has come. -/
def State.deadlineState (s : State) : State := { s with clk := { s.clk with gtc := max s.clk.gtc (s.txn.hatch.since + s.hatchLimit) } }

/-- The deadline of Prepare, where it is the only one that runs. -/
theorem State.hatchDeadline_prepare (hq : s.quiesceTasks = []) (ho : s.openRecord = none) (hk : s.clk.valid = true) :
    s.hatchDeadline = s.deadlineState.prepareLate := by
  have hend : s.prepareEnd = s.txn.hatch.since + s.hatchLimit := by simp [State.prepareEnd, hc]
  have hd : s.deadlines = [(s.txn.hatch.since + s.hatchLimit, .prepare)] := by
    simp [State.deadlines, hp, hq, ho, hend]
  unfold State.hatchDeadline
  rw [hd]
  exact congrArg State.prepareLate (State.reach_valid hk _)

end

variable (hv : s.txn.hatch.voted = false) (hf : s.txn.hatch.forcing = false)
include hv hf

theorem State.prepareLate_aborts (h : (s.txnAt s.txn.hatch.cur).force = false) : s.prepareLate = s.abortHatch 0x84 0 := by
  simp [State.prepareLate, hc, hv, hf, h]

theorem State.prepareLate_forces (h : (s.txnAt s.txn.hatch.cur).force = true) :
    s.prepareLate = s.hatchTasks.foldl (fun s x => s.preempt x.1 x.2) (s.modHatch (fun h => { h with forcing := true })) := by
  simp [State.prepareLate, hc, hv, hf, h]

end

/-- FORCE marks a task of this device for its queue, and tells its slots to stop (R85). -/
theorem State.preempt_running {s : State} {i n k : Nat} {tk : Task} {more : List (Nat × Nat)} (ht : s.task? i = some tk)
    (hs : tk.slots = (n, k) :: more) (hl : (s.slot n k).st.live) (hspan : tk.span = none) :
    (s.preempt i tk).txn.hatch = { s.txn.hatch with preempted := sat1 16 s.txn.hatch.preempted }
      ∧ ((s.preempt i tk).task? i).map (fun u => (u.requeue, u.status)) = some (true, some (tk.status.getD (0x30, 0)))
      ∧ ∀ x ∈ tk.slots, ((s.preempt i tk).slot x.1 x.2).st = (s.slot x.1 x.2).st.stop := by
  have hrun : s.runs tk = true := by simpa [State.runs, hs, SlotSt.live, or_assoc] using hl
  have he : (s.slot n k).st ≠ .ending := by rcases hl with h | h | h <;> simp [h]
  have hm : (s.modTask i (fun t => { t with requeue := true })).task? i = some { tk with requeue := true } := by
    rw [State.task?_modTask, if_pos rfl, ht]; rfl
  have hst := State.stopTask_eq (s := s.modTask i (fun t => { t with requeue := true })) hm hs he 0x30 0
  have hpre : s.preempt i tk = (((s.modTask i (fun t => { t with requeue := true })).stopTask i 0x30 0).tellStops i).modHatch
      (fun h => { h with preempted := sat1 16 h.preempted }) := by
    simp [State.preempt, hrun, hspan]
  have htxn := (State.tellStops_txn i _).trans
    (State.onlyWork_txn (State.onlyWork_stopTask i 0x30 0 (s.modTask i (fun t => { t with requeue := true }))))
  rw [hpre]
  refine ⟨?_, ?_, fun x hx => ?_⟩
  · exact congrArg (fun u : TxnUnit => { u.hatch with preempted := sat1 16 u.hatch.preempted }) htxn
  · refine (State.tellStops_task (fun u => (u.requeue, u.status)) (fun _ => rfl) i i _).trans ?_
    rw [State.task?_stopTask hm hs he]
    rfl
  · refine (congrArg Slot.st (State.tellStops_slot ..)).trans ?_
    rw [hst, State.stopSlots_st, if_pos hx]
    rfl

section
variable (s : State)

theorem exec_hatchPrepare : exec .hatchPrepare s = .next s.hatchPrepare := rfl
theorem exec_hatchReady : exec .hatchReady s = .next s.hatchReady := rfl
theorem exec_hatchForceStopped : exec .hatchForceStopped s = .next s.hatchForceStopped := rfl
theorem exec_hatchDeadline : exec .hatchDeadline s = .next s.hatchDeadline := rfl

end

/-- Settles O39: the Hatch takes the first commit, is refused or holds the affected rooms, arms T when they are ready, and at
the deadline aborts or stops their tasks. -/
theorem hatchPreparesWaitsAndArms : Obligations.HatchPreparesWaitsAndArms := by
  refine ⟨fun s sc rest hi hq => ⟨fun r d f hj hc => ?_, fun hj ha hk => ?_, fun hj ha hc => ?_⟩,
    fun s hp hv hc => ⟨fun hf => ?_, fun hf => ?_⟩, fun s hp hv hf hc hqt ho hclk => ⟨fun hforce hn => ?_, ?_⟩⟩
  · rw [exec_hatchPrepare, State.hatchPrepare_refuses hi hq hj, State.refuseCommit_alone (s := s.withQueue rest) hc]
    refine ⟨_, rfl, ?_, ?_, rfl⟩
    · exact State.modTxnAt_hatch ..
    · exact (State.txnAt_modTxnAt ..).trans (if_pos rfl)
  · obtain ⟨rs, he, hr⟩ := State.hatchPrepare_holds hi hq hj ha hk
    rw [exec_hatchPrepare, he]
    refine ⟨_, rfl, rfl, fun m => (hr m).trans (RoomRt.hold_if ..), rfl, rfl⟩
  · rw [exec_hatchPrepare, State.hatchPrepare_arms hi hq hj ha hc]
    exact ⟨_, rfl, rfl, rfl, rfl, ha, rfl⟩
  · rw [exec_hatchReady, State.hatchReady_alone hc hp hv hf]; rfl
  · rw [exec_hatchForceStopped, State.hatchForceStopped_alone hc hp hv hf]; rfl
  · rw [exec_hatchDeadline, State.hatchDeadline_prepare hc hp hqt ho hclk, State.prepareLate_aborts (s := s.deadlineState) hc hv hf hforce]
    exact ⟨_, rfl, State.abortHatch_aborts (s := s.deadlineState) hn 0x84 0 (by decide)⟩
  · intro i tk n k more hforce htasks ht hs hl hspan
    rw [exec_hatchDeadline, State.hatchDeadline_prepare hc hp hqt ho hclk, State.prepareLate_forces (s := s.deadlineState) hc hv hf hforce]
    have hone : (s.hatchTasks.foldl (fun s x => s.preempt x.1 x.2) (State.modHatch (fun h => { h with forcing := true }) s.deadlineState))
        = (State.modHatch (fun h => { h with forcing := true }) s.deadlineState).preempt i tk := by rw [htasks]; rfl
    obtain ⟨h1, h2, h3⟩ := State.preempt_running (s := State.modHatch (fun h => { h with forcing := true }) s.deadlineState) ht hs hl hspan
    exact ⟨_, congrArg _ hone, h1, h2, fun x hx hx' => (h3 x hx).trans (SlotSt.stop_of_live hx')⟩

end Sys2Proof.Machine
end

section
/-! PROOFS. The cell-wide Hatch: votes, outcomes, doubt, and quiesce (R88–R91, R382). -/

namespace Sys2Proof.Machine

open Sys2Proof

/-! ### An ABORT learnt (R88, R89) -/

/-- The member knows the ABORT of a TAG. -/
def State.abortLearnt (tag failed : Nat) (s : State) : State :=
  s.modHatch (fun h => { h with seen := NMap.set h.seen tag (0, failed) })

/-- A member in the Hatch of the TAG aborts it, and keeps the outcome and its record. -/
theorem State.learnAbort_aborts {s : State} {tag : Nat} (hn : s.noStartWaits) (hc : s.cellHatch tag = true) (failed : Nat) :
    s.hatchAborts s.txn.hatch.cur 0x89 failed (s.learnAbort tag failed)
      ∧ (s.learnAbort tag failed).txn.hatch.seen = NMap.set s.txn.hatch.seen tag (0, failed)
      ∧ (s.learnAbort tag failed).txn.hatch.rec_ = s.txn.hatch.rec_ := by
  have he : s.learnAbort tag failed = (s.abortLearnt tag failed).abortHatch 0x89 failed := if_pos hc
  have hh := State.abortHatch_hatch (s := s.abortLearnt tag failed) hn 0x89 failed
  obtain ⟨h1, h2, h3, h4, h5, h6, h7, h8⟩ := State.abortHatch_aborts (s := s.abortLearnt tag failed) hn 0x89 failed (by decide)
  rw [he]
  exact ⟨⟨h1, h2, h3, h4, h5, h6, State.raises_of_eq (s := s) (u := s.abortLearnt tag failed) rfl rfl h7, congrArg (fun u : State => { u with txn := s.txn }) h8⟩, by rw [hh]; rfl, by rw [hh]; rfl⟩

/-- A member that is not in the Hatch of the TAG only notes the outcome. -/
theorem State.learnAbort_notes {s : State} {tag : Nat} (hc : s.cellHatch tag = false) (failed : Nat) :
    ∃ be, s.learnAbort tag failed
      = { s with txn := { s.txn with hatch := { s.txn.hatch with seen := NMap.set s.txn.hatch.seen tag (0, failed), blockEng := be } } } := by
  have he : s.learnAbort tag failed = if (s.knownAbort tag).isSome && s.hatchTag == tag && s.txn.hatch.result == 0x89
      then (s.abortLearnt tag failed).modHatch (fun h => { h with blockEng := setFld h.blockEng 32 16 failed })
      else s.abortLearnt tag failed := if_neg (by rw [show (s.modHatch _).cellHatch tag = s.cellHatch tag from rfl, hc]; simp)
  rw [he]
  split <;> exact ⟨_, rfl⟩

/-! ### Votes (R88) -/

/-- The coordinator's record with a vote of a member. -/
def HatchRec.voted (r : HatchRec) (members k : Nat) (ready : Bool) : HatchRec :=
  { r with members := members, ready := if ready then r.ready ||| 2 ^ k else r.ready
           failed := if ready then r.failed else r.failed ||| 2 ^ k }

/-- The coordinator's record once it has decided ABORT. -/
def HatchRec.abort (r : HatchRec) (members failed : Nat) : HatchRec :=
  { r with members := members, failed := failed, decision := some 0 }

/-- The coordinator's record of the Hatch is `r`. -/
def State.decides (r : HatchRec) (s : State) : State := s.modHatch (fun h => { h with rec_ := some r })

/-- An ABORT decided is recorded, sent, and learnt here. -/
theorem State.decideAbort_sends (r : HatchRec) (s : State) :
    ∃ u, (s.decides { r with decision := some 0 }).onlySends u ∧ s.decideAbort r = u.learnAbort r.tag r.failed :=
  ⟨_, State.onlySends_foldl (fun u _ => State.onlySends_sendMsg _ _ u) _ _, rfl⟩

section
variable {s : State} {k tag : Nat} {r : HatchRec} (hco : s.coordinates = true) (hr : s.txn.hatch.rec_ = some r) (ht : r.tag = tag)
  (hh : s.hatchTag = tag) (hd : r.decision = none) (hk : k < 16)
include hco hr ht hh hd hk

theorem State.voteIn_open (ready : Bool) :
    s.voteIn k ready tag =
      let v := r.voted s.hatchMembers k ready
      if !ready then s.decideAbort v
      else if v.members ≠ 0 ∧ v.members &&& v.ready = v.members then
        ((s.modHatch (fun h => { h with rec_ := some { v with decision := some (s.clk.gtc + s.hatchLead) }
                                        seen := NMap.set h.seen tag (s.clk.gtc + s.hatchLead, 0) })).flood
          (.swap tag (s.clk.gtc + s.hatchLead))).armAt (s.clk.gtc + s.hatchLead)
      else s.decides v := by
  obtain ⟨rtag, members, got, failed, decision, since⟩ := r
  obtain rfl : rtag = tag := ht
  obtain rfl : decision = none := hd
  unfold State.voteIn State.recordVote
  simp only [hco, if_true, hr, hh, Nat.mod_eq_of_lt hk]
  rfl

end

section
variable (s : State)

theorem exec_hatchVote (k : Nat) (ready : Bool) (tag : Nat) : exec (.hatchVote k ready tag) s = .next (s.voteIn k ready tag) := rfl
theorem exec_hatchSwapMsg (tag t : Nat) : exec (.hatchSwapMsg tag t) s = .next (s.swapMsg tag t) := rfl
theorem exec_hatchAbortMsg (tag failed : Nat) : exec (.hatchAbortMsg tag failed) s = .next (s.abortMsg tag failed) := rfl
theorem exec_inDoubtQuery (d : Doubt) : exec (.inDoubtQuery d) s = .next (s.doubtQuery d) := rfl
theorem exec_quiesce (qforce : Bool) : exec (.quiesce qforce) s = .next (s.quiesce qforce) := rfl
theorem exec_quiesceRelease : exec .quiesceRelease s = .next s.quiesceRelease := rfl

end

section
variable {s : State} {k tag : Nat} {r : HatchRec} (hco : s.coordinates = true) (hr : s.txn.hatch.rec_ = some r) (ht : r.tag = tag)
  (hh : s.hatchTag = tag) (hd : r.decision = none) (hk : k < 16)
include hco hr ht hh hd hk

/-- A ready vote that leaves others missing is recorded. -/
theorem State.voteIn_records (h : s.hatchMembers &&& (r.ready ||| 2 ^ k) ≠ s.hatchMembers) :
    s.voteIn k true tag = s.decides { r with members := s.hatchMembers, ready := r.ready ||| 2 ^ k } := by
  rw [State.voteIn_open hco hr ht hh hd hk]
  exact if_neg (fun hx : _ ∧ _ => h hx.2)

/-- The last ready vote decides the instant, tells it, and arms the Hatch. -/
theorem State.voteIn_arms (h0 : s.hatchMembers ≠ 0) (h : s.hatchMembers &&& (r.ready ||| 2 ^ k) = s.hatchMembers) :
    ∃ l o, s.voteIn k true tag = { s with
      link := l, out := o
      txn := { s.txn with hatch := { s.txn.hatch with
        st := .armed, t := s.clk.gtc + s.hatchLead, seen := NMap.set s.txn.hatch.seen tag (s.clk.gtc + s.hatchLead, 0)
        rec_ := some { r with members := s.hatchMembers, ready := r.ready ||| 2 ^ k, decision := some (s.clk.gtc + s.hatchLead) } } } } := by
  rw [State.voteIn_open hco hr ht hh hd hk]
  obtain ⟨l, o, he⟩ := State.onlySends_flood (.swap tag (s.clk.gtc + s.hatchLead)) (s.modHatch (fun h =>
    { h with rec_ := some { r.voted s.hatchMembers k true with decision := some (s.clk.gtc + s.hatchLead) }
             seen := NMap.set h.seen tag (s.clk.gtc + s.hatchLead, 0) }))
  refine ⟨l, o, ?_⟩
  refine (if_pos (show s.hatchMembers ≠ 0 ∧ _ from ⟨h0, h⟩)).trans ?_
  rw [he]
  rfl

/-- An abort vote decides ABORT, which the members are told and this device learns. -/
theorem State.voteIn_aborts :
    ∃ u, (s.decides (r.abort s.hatchMembers (r.failed ||| 2 ^ k))).onlySends u
      ∧ s.voteIn k false tag = u.learnAbort tag (r.failed ||| 2 ^ k) := by
  rw [State.voteIn_open hco hr ht hh hd hk]
  obtain ⟨u, hu, he⟩ := State.decideAbort_sends (r.voted s.hatchMembers k false) s
  refine ⟨u, hu, ?_⟩
  rw [← ht]
  exact he

end

/-- A device that is not the coordinator ignores votes. -/
theorem State.voteIn_ignored {s : State} (h : s.coordinates = false) (k : Nat) (ready : Bool) (tag : Nat) :
    s.voteIn k ready tag = s := by
  simp [State.voteIn, h]

/-! ### Outcomes at a member (R88) -/

theorem State.cellHatch_prepare {s : State} {tag : Nat} (hp : s.txn.hatch.st = .prepare)
    (hc : (s.txnAt s.txn.hatch.cur).cell = true) (hh : s.hatchTag = tag) : s.cellHatch tag = true := by
  simp [State.cellHatch, hp, hc, hh]

/-- An outcome learnt stands: no SWAP changes it. -/
theorem State.swapMsg_known {s : State} {tag : Nat} {x : Nat × Nat} (h : NMap.find? s.txn.hatch.seen tag = some x) (t : Nat) :
    s.swapMsg tag t = s := by
  simp [State.swapMsg, h]

theorem State.abortMsg_swapped {s : State} {tag a f : Nat} (h : NMap.find? s.txn.hatch.seen tag = some (a, f)) (ha : a ≠ 0) (failed : Nat) :
    s.abortMsg tag failed = s := by
  simp [State.abortMsg, State.knownAbort, h, ha]

theorem State.abortMsg_learns {s : State} {tag : Nat} (h : NMap.find? s.txn.hatch.seen tag = none) (failed : Nat) :
    s.abortMsg tag failed = s.learnAbort tag failed := by
  simp [State.abortMsg, h]

/-- The first SWAP arms the Hatch of a member that has voted, where its instant is ahead. -/
theorem State.swapMsg_arms {s : State} {tag t : Nat} (h : NMap.find? s.txn.hatch.seen tag = none) (hp : s.txn.hatch.st = .prepare)
    (hc : s.cellHatch tag = true) (hv : s.txn.hatch.voted = true) (ht : s.clk.gtc < t) :
    ∃ l o, s.swapMsg tag t = { s with
      link := l, out := o
      txn := { s.txn with hatch := { s.txn.hatch with st := .armed, t := t, seen := NMap.set s.txn.hatch.seen tag (t, 0) } } } := by
  obtain ⟨l, o, he⟩ := State.onlySends_flood (.swap tag t) (s.modHatch (fun h => { h with seen := NMap.set h.seen tag (t, 0) }))
  refine ⟨l, o, ?_⟩
  unfold State.swapMsg
  rw [if_neg (by simp [h])]
  dsimp only
  rw [he]
  exact (if_pos (show (s.cellHatch tag && s.txn.hatch.voted) = true by simp [hc, hv])).trans
    (if_neg (show ¬(s.txn.hatch.st == .inDoubt || decide (t ≤ s.clk.gtc)) = true by simp [hp, ht]))

/-! ### Doubt (R89) -/

/-- A query that no member answers changes only what is sent. -/
theorem State.doubtQuery_none {s : State} (h : s.txn.hatch.st = .inDoubt) : s.onlySends (s.doubtQuery .none) := by
  unfold State.doubtQuery
  rw [if_neg (by simp [h])]
  exact State.onlySends_foldl (fun u _ => State.onlySends_sendMsg _ _ u) _ s

/-- An ABORT answered, or no record, is learnt. -/
theorem State.doubtQuery_aborts {s : State} (h : s.txn.hatch.st = .inDoubt) (hseen : NMap.find? s.txn.hatch.seen s.hatchTag = none)
    {d : Doubt} {failed : Nat} (hd : d = .abort failed ∨ d = .noRecord) :
    ∃ u f, s.onlySends u ∧ s.doubtQuery d = u.learnAbort s.hatchTag f := by
  obtain ⟨l, o, hu⟩ := State.onlySends_foldl (fun (u : State) (m : Nat) =>
    State.onlySends_sendMsg (u.memberChip m) (.query s.hatchTag u.ownMember) u) s.otherMembers s
  unfold State.doubtQuery
  rw [if_neg (by simp [h])]
  dsimp only
  rw [hu]
  rcases hd with rfl | rfl
  · exact ⟨_, failed, ⟨l, o, rfl⟩, State.abortMsg_learns (s := { s with link := l, out := o }) hseen failed⟩
  · exact ⟨_, 0, ⟨l, o, rfl⟩, rfl⟩

/-! ### Quiesce (R90, R91) -/

theorem State.quiesce_holds (s : State) (qf : Bool) :
    ∃ rs, s.quiesce qf = State.withRooms rs { s with txn := { s.txn with
        quiesce := true, qforce := qf, quiesceAt := if s.txn.quiesce then s.txn.quiesceAt else s.clk.gtc } }
      ∧ ∀ m, NMap.getD rs m .reset = if m < 64 then (s.room m).hold else s.room m := by
  obtain ⟨rs, he, hr⟩ := State.holdRooms (List.range 64) (s.modTxn (fun u =>
    { u with quiesce := true, qforce := qf, quiesceAt := if s.txn.quiesce then s.txn.quiesceAt else s.clk.gtc }))
  exact ⟨rs, he, fun m => (hr m).trans (by simp only [List.mem_range]; rfl)⟩

/-- Nothing of the quiesce is left. -/
def State.unquiesced (s : State) : State := s.modTxn (fun u => { u with quiesce := false, qforce := false })

theorem State.startsHeld_unquiesced (s : State) (m : Nat) :
    s.unquiesced.startsHeld m = false
      ↔ s.plat.power ≠ .d3hot ∧ ¬(bitOf s.txn.hatch.rooms m ∧ s.txn.hatch.st ∈ [.prepare, .armed, .inDoubt]) := by
  simp [State.unquiesced, State.startsHeld, State.modTxn, and_assoc]

theorem State.quiesceRelease_resumes {s : State} (hp : s.txn.resetPending = false) (hn : s.noStartWaits) :
    ∃ rs, s.quiesceRelease = s.unquiesced.withRooms rs
      ∧ ∀ m, NMap.getD rs m .reset = if m < 64 then s.unquiesced.resumed m (s.room m) else s.room m := by
  obtain ⟨rs, he, hr⟩ := State.resumeRooms (s := s.unquiesced) hn (List.range 64)
  refine ⟨rs, ?_, fun m => (hr m).trans (by simp only [List.mem_range]; rfl)⟩
  rw [← he]
  exact if_neg (by simp [hp])

/-- Settles O41: votes, outcomes and doubt by what a member knows of the TAG, and the quiesce by its rooms. -/
theorem cellWideHatchFollowsItsOutcome : Obligations.CellWideHatchFollowsItsOutcome := by
  refine ⟨fun s k tag ready hco => ?_, fun s k tag r hco hr ht hh hd hk => ⟨fun hm => ?_, fun h0 hm => ?_, fun hc => ?_, fun hc hn => ?_⟩,
    fun s tag at_ failed => ⟨fun a f hs => ⟨?_, fun ha => ?_⟩, fun hs hp hc hh => ⟨fun hv hlt => ?_, fun hn => ?_⟩⟩,
    fun s hp hc hv hco => ?_, fun s hi => ⟨?_, fun d failed hd hc hs hn => ?_⟩, fun s => ⟨fun qf => ?_, fun hp => ?_, fun hp hn => ?_⟩⟩
  · rw [exec_hatchVote, State.voteIn_ignored hco]
  · rw [exec_hatchVote, State.voteIn_records hco hr ht hh hd hk hm]; rfl
  · obtain ⟨l, o, he⟩ := State.voteIn_arms hco hr ht hh hd hk h0 hm
    rw [exec_hatchVote, he]
    exact ⟨_, rfl, rfl, rfl, rfl, NMap.find?_set_self .., rfl, rfl, rfl⟩
  · obtain ⟨_, ⟨l, o, rfl⟩, he⟩ := State.voteIn_aborts hco hr ht hh hd hk
    obtain ⟨be, hb⟩ := State.learnAbort_notes
      (s := { s.decides (r.abort s.hatchMembers (r.failed ||| 2 ^ k)) with link := l, out := o }) hc (r.failed ||| 2 ^ k)
    rw [exec_hatchVote, he, hb]
    exact ⟨_, rfl, rfl, NMap.find?_set_self .., rfl, rfl, rfl, rfl⟩
  · obtain ⟨_, ⟨l, o, rfl⟩, he⟩ := State.voteIn_aborts hco hr ht hh hd hk
    obtain ⟨⟨h1, h2, -, -, h5, h6, -, h8⟩, hseen, -⟩ := State.learnAbort_aborts
      (s := { s.decides (r.abort s.hatchMembers (r.failed ||| 2 ^ k)) with link := l, out := o }) hn hc (r.failed ||| 2 ^ k)
    rw [exec_hatchVote, he]
    exact ⟨_, rfl, h1, h2, by rw [hseen]; exact NMap.find?_set_self .., h6, congrArg Txn.st h5,
      (congrArg State.living h8 :), (congrArg State.attic h8 :)⟩
  · rw [exec_hatchSwapMsg, State.swapMsg_known hs]
  · rw [exec_hatchAbortMsg, State.abortMsg_swapped hs ha]
  · obtain ⟨l, o, he⟩ := State.swapMsg_arms hs hp (State.cellHatch_prepare hp hc hh) hv hlt
    rw [exec_hatchSwapMsg, he]
    exact ⟨_, rfl, rfl, rfl, rfl, rfl⟩
  · obtain ⟨habort, hseen, -⟩ := State.learnAbort_aborts hn (State.cellHatch_prepare hp hc hh) failed
    rw [exec_hatchAbortMsg, State.abortMsg_learns hs]
    exact ⟨_, rfl, habort, by rw [hseen]; exact NMap.find?_set_self ..⟩
  · have hcond : (s.cellHatch s.hatchTag && s.txn.hatch.st == .prepare && s.txn.hatch.voted && !s.coordinates) = true := by
      simp [State.cellHatch_prepare hp hc rfl, hp, hv, hco]
    exact congrArg Host.Outcome.next (if_pos hcond)
  · obtain ⟨l, o, he⟩ := State.doubtQuery_none hi
    rw [exec_inDoubtQuery, he]
    exact ⟨_, rfl, rfl, rfl, rfl, rfl, rfl, rfl⟩
  · obtain ⟨_, f, ⟨l, o, rfl⟩, he⟩ := State.doubtQuery_aborts hi hs hd
    have hcell : s.cellHatch s.hatchTag = true := by simp [State.cellHatch, hi, hc]
    obtain ⟨⟨h1, h2, -, -, h5, h6, -, h8⟩, -⟩ := State.learnAbort_aborts (s := { s with link := l, out := o }) hn hcell f
    rw [exec_inDoubtQuery, he]
    exact ⟨_, rfl, h1, h2, congrArg Txn.st h5, h6, (congrArg State.living h8 :), (congrArg State.attic h8 :)⟩
  · obtain ⟨rs, he, hr⟩ := s.quiesce_holds qf
    rw [exec_quiesce, he]
    exact ⟨_, rfl, rfl, fun m hm => ((hr m).trans (if_pos hm)).trans rfl, rfl⟩
  · rw [exec_quiesceRelease]
    exact congrArg Host.Outcome.next (if_pos hp)
  · obtain ⟨rs, he, hr⟩ := State.quiesceRelease_resumes hp hn
    rw [exec_quiesceRelease, he]
    refine ⟨_, rfl, rfl, fun m hm => ((hr m).trans (if_pos hm)).trans ?_, rfl⟩
    simp only [State.resumed, State.startsHeld_unquiesced]

end Sys2Proof.Machine
end

section
/-! PROOFS. The chip swap and the GTC: what the swap ends may take the GTC past T (R295, R310). -/

namespace Sys2Proof.Machine

open Sys2Proof

/-- A Level T room 0 of tenant 1 on island 0. -/
def twinnedRoom : RoomCfg :=
  { tenant := 1, level := 2, dispatcher := 0, restart := false, islands := 1, rces := 0, eles := 0, slots := 4, numericKey := 0,
    rasKey := 0 }

/-- Room 0 is twinned. -/
def twinnedSet : ConfigSet := { ConfigSet.empty with rooms := [(0, twinnedRoom)], rwt := [(offTwinCfg, 1)] }

/-- A paired task of room 0 that has ended and waits for its twin's outcome (R308). -/
def comparedTask : Task :=
  { Task.new 0 0 1 { raw := [], accGtc := 0, ord := 0, twin := some 0 } 0 [] false 0 0 0 0 with
    status := some (0, 0), comparing := true }

/-- A paired device whose chip Hatch, armed for 1,100 ns, takes room 0 out of the twinned rooms. -/
def unpairingSwap : State :=
  { State.reset with
    clk := { State.reset.clk with gtc := 100, valid := true }
    living := twinnedSet, attic := { twinnedSet with rwt := [] }
    tasks := { live := [(0, comparedTask)], next := 1 }
    repro := { State.reset.repro with st := .paired }
    txn := { State.reset.txn with
      chip := { Txn.reset with st := .hatching, token := 1 }
      hatch := { State.reset.txn.hatch with st := .armed, cur := 64, t := 1100 } } }

/-- The swap ends the pairing (R310), and with it the comparison: the task's completion, at Level T 40 ns after the swap, is
where the GTC stands then. -/
theorem unpairingSwap_gtc : unpairingSwap.hatchSwap.clk.gtc = 1140 := by decide +kernel

/-- The swap is of the statement's kind, and affects no room, so that no task had to end before it. -/
theorem unpairingSwap_meets :
    unpairingSwap.affected 64 = 0 ∧ unpairingSwap.txn.hatch.st = .armed ∧ unpairingSwap.txn.hatch.heldRooms = [] ∧ unpairingSwap.txn.hatch.heldTenants = []
      ∧ unpairingSwap.clk.valid = true ∧ unpairingSwap.txn.hatch.cur = 64 ∧ unpairingSwap.roomTxns = []
      ∧ (∀ e ∈ unpairingSwap.living.rooms, e.1 < 64) ∧ max unpairingSwap.clk.gtc unpairingSwap.txn.hatch.t = 1100 := by
  decide +kernel

/-- Refutes O40: a chip swap that ends a pairing completes the Level T tasks that wait for their twin, 40 ns after T each
(R295, R310), so that the GTC is past the later of now and T. -/
theorem not_hatchSwapsAtTheInstant : ¬ Obligations.HatchSwapsAtTheInstant := by
  intro h
  obtain ⟨-, hst, hrooms, htens, hvalid, hcur, htxns, hlt, hmax⟩ := unpairingSwap_meets
  obtain ⟨-, hchip⟩ := h.1 unpairingSwap hst hrooms htens hvalid
  obtain ⟨t, he, hgtc, -⟩ := hchip hcur htxns hlt
  obtain rfl : unpairingSwap.hatchSwap = t := Host.Outcome.next.inj he
  rw [unpairingSwap_gtc, hmax] at hgtc
  omega

end Sys2Proof.Machine
end

section
/-! PROOFS. Kills and resets of tasks (R103): the status that each task halted takes, and what halting leaves alone. -/

namespace Sys2Proof.Machine

open Sys2Proof

/-! ### Maps -/

theorem NMap.mem_of_find? {α : Type} {m : NMap α} {k : Nat} {v : α} (h : NMap.find? m k = some v) : (k, v) ∈ m := by
  induction m with
  | nil => cases h
  | cons e r ih =>
    unfold NMap.find? at h
    split at h
    · rename_i hk
      cases h
      exact List.mem_cons.mpr (.inl (Prod.ext hk.symm rfl))
    · exact List.mem_cons_of_mem _ (ih h)

/-- A key that a filter takes out reads as absent. -/
theorem NMap.getD_filter_out {α : Type} {m : NMap α} {k : Nat} {d : α} {p : Nat → Bool} (h : p k = false) :
    NMap.getD (m.filter (fun e => p e.1)) k d = d := by
  have hnone : NMap.find? (m.filter (fun e => p e.1)) k = none := by
    rw [← Option.not_isSome_iff_eq_none]
    intro hs
    obtain ⟨v, hv⟩ := Option.isSome_iff_exists.mp hs
    have hp := (List.mem_filter.mp (NMap.mem_of_find? hv)).2
    simp [h] at hp
  simp [NMap.getD, hnone]

/-! ### What halting leaves alone -/

/-- Only what stops of tasks and messages to other chips touch may differ. -/
def State.onlyHalts (s t : State) : Prop :=
  { t with isl := s.isl, tasks := s.tasks, eng := s.eng, ledg := s.ledg, clk := s.clk, free := s.free, link := s.link, out := s.out } = s

theorem State.onlyHalts_refl (s : State) : s.onlyHalts s := rfl

theorem State.onlyHalts_trans {s t u : State} (h : s.onlyHalts t) (g : t.onlyHalts u) : s.onlyHalts u := by
  unfold State.onlyHalts at h g
  have h' := congrArg (fun x : State =>
    { x with isl := s.isl, tasks := s.tasks, eng := s.eng, ledg := s.ledg, clk := s.clk, free := s.free, link := s.link, out := s.out }) g
  exact h'.trans h

theorem State.onlyHalts_of_onlyWork {s t : State} (h : s.onlyWork t) : s.onlyHalts t := by
  unfold State.onlyWork at h
  exact (congrArg (fun x : State => { x with link := s.link, out := s.out }) h :)

theorem State.onlyHalts_modTask (i : Nat) (f : Task → Task) (s : State) : s.onlyHalts (s.modTask i f) := rfl

theorem State.onlyHalts_tellStops (i : Nat) (s : State) : s.onlyHalts (s.tellStops i) := by
  rcases s.tellStops_cases i with h | ⟨l, o, h⟩ <;> rw [h]
  · exact s.onlyHalts_refl
  · rfl

/-- A halted task's own step: one that FORCE was stopping does not go back to its queue (R103). -/
def Task.unforced (t : Task) : Task := if t.requeue then { t with requeue := false, status := some (0x31, 0) } else t

theorem State.halt_eq (i : Nat) (s : State) : s.halt i = ((s.modTask i Task.unforced).stopTask i 0x31 0).tellStops i := rfl

theorem State.onlyHalts_halt (i : Nat) (s : State) : s.onlyHalts (s.halt i) :=
  State.onlyHalts_trans (State.onlyHalts_trans (State.onlyHalts_modTask i Task.unforced s)
    (State.onlyHalts_of_onlyWork (State.onlyWork_stopTask i 0x31 0 _))) (State.onlyHalts_tellStops i _)

theorem State.onlyHalts_foldl {α : Type} {f : State → α → State} (hf : ∀ (s : State) x, s.onlyHalts (f s x)) (l : List α) (s : State) :
    s.onlyHalts (l.foldl f s) :=
  foldl_relates State.onlyHalts_refl State.onlyHalts_trans hf l s

theorem State.onlyHalts_haltAll (l : List (Nat × Task)) (s : State) : s.onlyHalts (s.haltAll l) :=
  State.onlyHalts_foldl (fun s (t : Nat × Task) => State.onlyHalts_halt t.1 s) l s

section
variable {s t : State} (h : s.onlyHalts t)
include h

theorem State.onlyHalts_txn : t.txn = s.txn := by unfold State.onlyHalts at h; exact (congrArg State.txn h :)
theorem State.onlyHalts_ten : t.ten = s.ten := by unfold State.onlyHalts at h; exact (congrArg State.ten h :)
theorem State.onlyHalts_qm : t.qm = s.qm := by unfold State.onlyHalts at h; exact (congrArg State.qm h :)
theorem State.onlyHalts_cell : t.cell = s.cell := by unfold State.onlyHalts at h; exact (congrArg State.cell h :)
theorem State.onlyHalts_living : t.living = s.living := by unfold State.onlyHalts at h; exact (congrArg State.living h :)

end

/-! ### The status that a halted task takes (R85, R103) -/

/-- What halts read and write of a task. -/
def Task.course (t : Task) : List (Nat × Nat) × Bool × Option (Nat × Nat) := (t.slots, t.requeue, t.status)

/-- The course of a task whose lead slot is not ENDING. -/
def State.onCourse (i n k : Nat) (more : List (Nat × Nat)) (rq : Bool) (st : Option (Nat × Nat)) (s : State) : Prop :=
  (s.task? i).map Task.course = some ((n, k) :: more, rq, st) ∧ (s.slot n k).st ≠ .ending

/-- The status that a halt leaves. -/
def haltStatus (rq : Bool) (st : Option (Nat × Nat)) : Nat × Nat := if rq then (0x31, 0) else st.getD (0x31, 0)

section
variable {s : State} {i n k : Nat} {more : List (Nat × Nat)} {rq : Bool} {st : Option (Nat × Nat)}

/-- A step of a task other than on its course, or of another task, leaves the course. -/
theorem State.onCourse_modTask {f : Task → Task} {j : Nat} (hf : j = i → ∀ t, (f t).course = t.course)
    (h : s.onCourse i n k more rq st) : (s.modTask j f).onCourse i n k more rq st := by
  refine ⟨?_, h.2⟩
  rw [State.task?_modTask]
  split
  · rename_i hij
    rw [Option.map_map, ← hij, show Task.course ∘ f = Task.course from funext (hf hij.symm)]
    exact h.1
  · exact h.1

theorem State.onCourse_tellStops (j : Nat) (h : s.onCourse i n k more rq st) : (s.tellStops j).onCourse i n k more rq st :=
  ⟨(State.tellStops_task Task.course (fun _ => rfl) j i s).trans h.1, by rw [State.tellStops_slot]; exact h.2⟩

theorem State.onCourse_halt_other {j : Nat} (hij : i ≠ j) (h : s.onCourse i n k more rq st) :
    (s.halt j).onCourse i n k more rq st := by
  have hm : (s.modTask j Task.unforced).onCourse i n k more rq st := State.onCourse_modTask (fun hji => absurd hji.symm hij) h
  rw [State.halt_eq]
  exact State.onCourse_tellStops j ⟨by rw [State.task?_stopTask_other hij]; exact hm.1, State.stopTask_ending hm.2 j _ _⟩

theorem State.onCourse_halt_self (h : s.onCourse i n k more rq st) :
    (s.halt i).onCourse i n k more false (some (haltStatus rq st)) := by
  obtain ⟨t, ht, hc⟩ := Option.map_eq_some_iff.mp h.1
  simp only [Task.course, Prod.mk.injEq] at hc
  obtain ⟨hs, rfl, rfl⟩ := hc
  have hm : (s.modTask i Task.unforced).task? i = some t.unforced := by rw [State.task?_modTask, if_pos rfl, ht]; rfl
  have hus : t.unforced.slots = (n, k) :: more := by rw [← hs]; unfold Task.unforced; split <;> rfl
  have he : ((s.modTask i Task.unforced).slot n k).st ≠ .ending := h.2
  rw [State.halt_eq]
  refine State.onCourse_tellStops i ⟨?_, State.stopTask_ending he i _ _⟩
  rw [State.task?_stopTask hm hus he]
  cases hrq : t.requeue <;> simp [Task.course, Task.unforced, haltStatus, hrq, hs]

section
variable {α : Type} {f : State → α → State} {key : α → Nat}
  (hself : ∀ {s : State} {x : α} {rq : Bool} {st : Option (Nat × Nat)}, key x = i → s.onCourse i n k more rq st →
    (f s x).onCourse i n k more false (some (haltStatus rq st)))
  (hother : ∀ {s : State} {x : α} {rq : Bool} {st : Option (Nat × Nat)}, key x ≠ i → s.onCourse i n k more rq st →
    (f s x).onCourse i n k more rq st)
include hself hother

/-- A task halted stays as it is through more halts. -/
theorem State.onCourse_halts_again {v : Nat × Nat} (l : List α) (h : s.onCourse i n k more false (some v)) :
    (l.foldl f s).onCourse i n k more false (some v) :=
  List.foldlRecOn (motive := fun t : State => t.onCourse i n k more false (some v)) l f h (fun _ ht x _ =>
    if hx : key x = i then hself hx ht else hother hx ht)

/-- After the halts of a list of tasks, a task of the list has its status. -/
theorem State.onCourse_halts {l : List α} (hi : i ∈ l.map key) (h : s.onCourse i n k more rq st) :
    (l.foldl f s).onCourse i n k more false (some (haltStatus rq st)) := by
  induction l generalizing s with
  | nil => cases hi
  | cons x l ih =>
    rw [List.foldl_cons]
    by_cases hx : key x = i
    · exact State.onCourse_halts_again hself hother l (hself hx h)
    · exact ih ((List.mem_cons.mp hi).resolve_left (Ne.symm hx)) (hother hx h)

end

theorem State.onCourse_haltAll {l : List (Nat × Task)} (hi : i ∈ l.map (·.1)) (h : s.onCourse i n k more rq st) :
    (s.haltAll l).onCourse i n k more false (some (haltStatus rq st)) :=
  State.onCourse_halts (key := fun x : Nat × Task => x.1) (fun hx h => hx ▸ State.onCourse_halt_self (hx ▸ h))
    (fun hx h => State.onCourse_halt_other (Ne.symm hx) h) hi h

end

/-- The statement's status of a task that was halted. -/
theorem State.status_of_onCourse {t : State} {i n k : Nat} {more : List (Nat × Nat)} {v : Nat × Nat}
    (h : t.onCourse i n k more false (some v)) : (t.task? i).map (·.status) = some (some v) := by
  obtain ⟨u, hu, hc⟩ := Option.map_eq_some_iff.mp h.1
  rw [hu]
  exact congrArg (fun c : List (Nat × Nat) × Bool × Option (Nat × Nat) => some c.2.2) hc

/-- A task as it stands is on the course of its slots, mark and status. -/
theorem State.onCourse_of_task {s : State} {i n k : Nat} {tk : Task} {more : List (Nat × Nat)} (ht : s.task? i = some tk)
    (hs : tk.slots = (n, k) :: more) (he : (s.slot n k).st ≠ .ending) : s.onCourse i n k more tk.requeue tk.status :=
  ⟨by rw [ht]; exact congrArg some (by rw [Task.course, hs]), he⟩

/-- A live task that a list of halts names. -/
theorem State.mem_keys_filter {s : State} {i : Nat} {tk : Task} {p : Nat × Task → Bool} (ht : s.task? i = some tk)
    (hp : p (i, tk) = true) : i ∈ (s.tasks.live.filter p).map (·.1) :=
  List.mem_map.mpr ⟨(i, tk), List.mem_filter.mpr ⟨NMap.mem_of_find? ht, hp⟩, rfl⟩

end Sys2Proof.Machine
end

section
/-! PROOFS. What resets do besides halting tasks: waiting descriptors, lanes, and open transactions of rooms (R78, R87, R103). -/

namespace Sys2Proof.Machine

open Sys2Proof

/-! ### Waiting descriptors (R103) -/

/-- Only the queues and rings, and what has left the device, may differ. -/
def State.onlyQm (s t : State) : Prop := ∃ q o, t = { s with qm := q, out := o }

theorem State.onlyQm_refl (s : State) : s.onlyQm s := ⟨s.qm, s.out, rfl⟩

theorem State.onlyQm_trans {s t u : State} (h : s.onlyQm t) (g : t.onlyQm u) : s.onlyQm u := by
  obtain ⟨q, o, rfl⟩ := h
  obtain ⟨q', o', rfl⟩ := g
  exact ⟨q', o', rfl⟩

/-- The queues and rings may differ, but not in which descriptors wait. -/
def State.keepsWaiting (s t : State) : Prop := s.onlyQm t ∧ ∀ q, (t.queue q).waiting = (s.queue q).waiting

theorem State.keepsWaiting_refl (s : State) : s.keepsWaiting s := ⟨s.onlyQm_refl, fun _ => rfl⟩

theorem State.keepsWaiting_trans {s t u : State} (h : s.keepsWaiting t) (g : t.keepsWaiting u) : s.keepsWaiting u :=
  ⟨State.onlyQm_trans h.1 g.1, fun q => (g.2 q).trans (h.2 q)⟩

theorem State.keepsWaiting_foldl {α : Type} {f : State → α → State} (hf : ∀ (s : State) x, s.keepsWaiting (f s x)) (l : List α)
    (s : State) : s.keepsWaiting (l.foldl f s) :=
  foldl_relates State.keepsWaiting_refl State.keepsWaiting_trans hf l s

theorem State.keepsWaiting_send (m : OutMsg) (s : State) : s.keepsWaiting (s.send m) := ⟨⟨s.qm, _, rfl⟩, fun _ => rfl⟩

theorem State.keepsWaiting_hostReads (fn addr len : Nat) (s : State) : s.keepsWaiting (s.hostReads fn addr len) :=
  State.keepsWaiting_foldl (fun s _ => State.keepsWaiting_send _ s) _ s

theorem State.keepsWaiting_postRec (ring : Nat) (rc : Rec) (s : State) : s.keepsWaiting (s.postRec ring rc) := by
  obtain ⟨r, f, o, h⟩ := State.onlyRecs_postRec ring rc s
  rw [h]
  exact ⟨⟨_, _, rfl⟩, fun _ => rfl⟩

theorem State.keepsWaiting_modQueue {f : Queue → Queue} (hf : ∀ r, (f r).waiting = r.waiting) (q : Nat) (s : State) :
    s.keepsWaiting (s.modQueue q f) := by
  refine ⟨⟨_, s.out, rfl⟩, fun j => ?_⟩
  rw [State.queue_modQueue]
  split
  · rename_i h; rw [hf, h]
  · rfl

theorem State.keepsWaiting_ringAsk (q : Nat) (s : State) : s.keepsWaiting (s.ringAsk q) := by
  unfold State.ringAsk
  dsimp only
  split
  · exact State.keepsWaiting_trans (State.keepsWaiting_trans (State.keepsWaiting_modQueue
      (f := fun r => { r with asked := r.asked + ((s.queue q).fetchable - (s.queue q).asked) }) (fun _ => rfl) q s)
      (State.keepsWaiting_hostReads ..)) (State.keepsWaiting_hostReads ..)
  · exact s.keepsWaiting_refl

/-- The descriptors that a kill or a flush names leave the queue. -/
theorem State.endWaiting_waiting (q : Nat) (p : QEntry → Bool) (s : State) :
    s.onlyQm (s.endWaiting q p) ∧ ∀ j, ((s.endWaiting q p).queue j).waiting
      = if q = j then (s.queue j).waiting.filter (fun e => !p e) else (s.queue j).waiting := by
  obtain ⟨honly, hw⟩ := State.keepsWaiting_trans
    (State.keepsWaiting_foldl (fun s (e : QEntry) => State.keepsWaiting_postRec ((s.queueRing q).getD 0) (s.descRec q e.raw 0x31 0 0) s)
      ((s.queue q).waiting.filter p) (s.modQueue q (fun r => { r with waiting := (s.queue q).waiting.filter (fun e => !p e) })))
    (State.keepsWaiting_ringAsk q _)
  refine ⟨State.onlyQm_trans ⟨_, s.out, rfl⟩ honly, fun j => (hw j).trans ?_⟩
  rw [State.queue_modQueue]
  split
  · rename_i h; rw [h]
  · rfl

theorem State.onlyQm_flushRoom (m : Nat) (s : State) : s.onlyQm (s.flushRoom m) :=
  foldl_relates State.onlyQm_refl State.onlyQm_trans (fun s q => (State.endWaiting_waiting q _ s).1) _ s

/-! ### Lanes (R41) -/

/-- Only the islands and the streams may differ. -/
def State.onlyStreams (s t : State) : Prop := ∃ i r, t = { s with isl := i, streams := r }

theorem State.onlyStreams_refl (s : State) : s.onlyStreams s := ⟨s.isl, s.streams, rfl⟩

theorem State.onlyStreams_trans {s t u : State} (h : s.onlyStreams t) (g : t.onlyStreams u) : s.onlyStreams u := by
  obtain ⟨i, r, rfl⟩ := h
  obtain ⟨i', r', rfl⟩ := g
  exact ⟨i', r', rfl⟩

theorem State.onlyStreams_foldl {α : Type} {f : State → α → State} (hf : ∀ (s : State) x, s.onlyStreams (f s x)) (l : List α)
    (s : State) : s.onlyStreams (l.foldl f s) :=
  foldl_relates State.onlyStreams_refl State.onlyStreams_trans hf l s

theorem State.onlyStreams_endReqs (e : Nat) (wr : Bool) (keep : Nat → Bool) (s : State) : s.onlyStreams (s.endReqs e wr keep) := by
  unfold State.endReqs
  split
  · refine State.onlyStreams_foldl (fun s x => ?_) _ s
    split
    · exact s.onlyStreams_refl
    · exact ⟨_, s.streams, rfl⟩
  · exact s.onlyStreams_refl

theorem State.onlyStreams_freePassage (key : Nat) (s : State) : s.onlyStreams (s.freePassage key) := by
  have hmod : ∀ (u : State), u.onlyStreams (u.modStream key (fun _ => [])) := fun u => ⟨u.isl, _, rfl⟩
  unfold State.freePassage
  split
  · exact State.onlyStreams_trans (State.onlyStreams_trans (State.onlyStreams_endReqs ..) (State.onlyStreams_endReqs ..)) (hmod _)
  · exact hmod s

/-! ### A room's transaction ends with its reset (R78, R87) -/

/-- A Hatch that aborts changes the rooms' table of the tenants' unit, and raises its event. -/
theorem State.abortHatch_ten {s : State} (hn : s.noStartWaits) (result failed : Nat) :
    ∃ rs, (s.abortHatch result failed).ten = { s.ten with rooms := rs } := by
  obtain ⟨rs, he, -⟩ := State.abortHatch_eq hn result failed
  obtain ⟨st, l, hev⟩ := State.onlyEvents_emit 0xA0 1 2 (s.scopeTenant s.txn.hatch.cur) 2 [0xA0] (s.aborted result failed rs)
  exact ⟨rs, by rw [he, hev]; rfl⟩

/-- Only the transactions, the Attic, the rooms, the Ledger and the time stamps may differ. -/
def State.onlyRoomTxns (s t : State) : Prop :=
  { t with txn := s.txn, attic := s.attic, ten := s.ten, ledg := s.ledg, clk := s.clk } = s
    ∧ { t.ten with rooms := s.ten.rooms } = s.ten

theorem State.onlyRoomTxns_refl (s : State) : s.onlyRoomTxns s := ⟨rfl, rfl⟩

theorem State.onlyRoomTxns_trans {s t u : State} (h : s.onlyRoomTxns t) (g : t.onlyRoomTxns u) : s.onlyRoomTxns u := by
  obtain ⟨h1, h2⟩ := h
  obtain ⟨g1, g2⟩ := g
  constructor
  · exact (congrArg (fun x : State => { x with txn := s.txn, attic := s.attic, ten := s.ten, ledg := s.ledg, clk := s.clk }) g1 :).trans h1
  · exact (congrArg (fun x : TenUnit => { x with rooms := s.ten.rooms }) g2 :).trans h2

section
variable {s t : State} (h : s.onlyRoomTxns t)
include h

theorem State.onlyRoomTxns_tasks : t.tasks = s.tasks := (congrArg State.tasks h.1 :)
theorem State.onlyRoomTxns_qm : t.qm = s.qm := (congrArg State.qm h.1 :)
theorem State.onlyRoomTxns_tenant (k : Nat) : t.tenant k = s.tenant k :=
  (congrArg (fun u : TenUnit => NMap.getD u.tenants k .reset) h.2 :)

theorem State.onlyRoomTxns_noStartWaits (hn : s.noStartWaits) : t.noStartWaits := by
  intro m
  have hc : t.cell = s.cell := (congrArg State.cell h.1 :)
  exact (congrArg (fun c : Cell => (NMap.getD c.spans m .reset).waits) hc).trans (hn m)

end

/-- Of the rooms only those that were HELD may differ: they may serve. -/
def State.onlyResumes (s t : State) : Prop :=
  s.onlyRoomTxns t ∧ ∀ k, t.room k = s.room k ∨ ((s.room k).st = .held ∧ t.room k = { s.room k with st := .serving })

theorem State.onlyResumes_refl (s : State) : s.onlyResumes s := ⟨s.onlyRoomTxns_refl, fun _ => .inl rfl⟩

theorem State.onlyResumes_trans {s t u : State} (h : s.onlyResumes t) (g : t.onlyResumes u) : s.onlyResumes u := by
  obtain ⟨hr, h⟩ := h
  obtain ⟨gr, g⟩ := g
  refine ⟨State.onlyRoomTxns_trans hr gr, fun k => ?_⟩
  rcases h k with hk | ⟨hk, hk'⟩ <;> rcases g k with gk | ⟨gk, gk'⟩
  · exact .inl (gk.trans hk)
  · exact .inr ⟨hk ▸ gk, by rw [gk', hk]⟩
  · exact .inr ⟨hk, gk.trans hk'⟩
  · rw [hk'] at gk; cases gk

/-- A room that is not HELD stays as it is. -/
theorem State.onlyResumes_room {s t : State} (h : s.onlyResumes t) {m : Nat} (hm : (s.room m).st ≠ .held) : t.room m = s.room m :=
  (h.2 m).resolve_right (fun hx => hm hx.1)

theorem State.onlyResumes_abortHatch {s : State} (hn : s.noStartWaits) : s.onlyResumes (s.abortHatch 0x31 0) := by
  obtain ⟨-, -, -, -, -, hrooms, -, honly⟩ := State.abortHatch_aborts hn 0x31 0 (by decide)
  obtain ⟨rs, hten⟩ := State.abortHatch_ten hn 0x31 0
  refine ⟨⟨(congrArg (fun x : State => { x with attic := s.attic }) honly :), by rw [hten]⟩, fun k => ?_⟩
  rw [hrooms k]
  split
  · rename_i h; exact .inr ⟨h.2.1, rfl⟩
  · exact .inl rfl

theorem State.onlyResumes_stopLoad (s : State) : s.onlyResumes s.stopLoad := by
  unfold State.stopLoad
  split
  · unfold State.postLoad
    dsimp only
    obtain ⟨st, l, h⟩ := State.onlyEvents_emit 0xA0 1 4 noTenant 0 [0x01, 1, 0xFFFF, 0]
      (s.modLoader (fun l => { l with busy := false, result := 0x01, stage := 1, section_ := 0xFFFF, offset := 0 }))
    rw [h]
    exact ⟨⟨rfl, rfl⟩, fun _ => .inl rfl⟩
  · exact s.onlyResumes_refl

/-- A transaction that ends is IDLE with its result. -/
theorem State.endTxn_ends (sc result : Nat) (s : State) :
    s.onlyResumes (s.endTxn sc result) ∧ ((s.endTxn sc result).txnAt sc).st = .idle ∧ ((s.endTxn sc result).txnAt sc).result = result := by
  have hload : s.onlyResumes (if sc = chipScope then s.stopLoad else s) := by
    split
    · exact s.onlyResumes_stopLoad
    · exact s.onlyResumes_refl
  have hattic : ∀ u : State, ∃ c, u.restoreAttic sc = u.setAttic c := by
    intro u; unfold State.restoreAttic; split <;> exact ⟨_, rfl⟩
  unfold State.endTxn
  dsimp only
  generalize (if sc = chipScope then s.stopLoad else s) = u at hload
  obtain ⟨c, hc⟩ := hattic u
  rw [hc]
  refine ⟨State.onlyResumes_trans hload ⟨⟨rfl, rfl⟩, fun _ => .inl rfl⟩, ?_, ?_⟩
  · exact congrArg Txn.st ((State.txnAt_modTxnAt ..).trans (if_pos rfl))
  · exact congrArg Txn.result ((State.txnAt_modTxnAt ..).trans (if_pos rfl))

theorem State.endRoomTxn_idle {s : State} {m : Nat} (h : (s.txnAt m).st = .idle) : s.endRoomTxn m = s := by
  simp [State.endRoomTxn, h]

theorem State.endRoomTxn_open {s : State} (hn : s.noStartWaits) {m : Nat} (h : (s.txnAt m).st ≠ .idle) :
    s.onlyResumes (s.endRoomTxn m) ∧ ((s.endRoomTxn m).txnAt m).st = .idle ∧ ((s.endRoomTxn m).txnAt m).result = 0x31 := by
  unfold State.endRoomTxn
  rw [if_neg (by simp [h])]
  dsimp only
  split
  · obtain ⟨honly, hst, hres⟩ := State.endTxn_ends m 0x31 (s.abortHatch 0x31 0)
    exact ⟨State.onlyResumes_trans (State.onlyResumes_abortHatch hn) honly, hst, hres⟩
  · exact State.endTxn_ends m 0x31 s

theorem State.onlyResumes_endRoomTxn {s : State} (hn : s.noStartWaits) (m : Nat) : s.onlyResumes (s.endRoomTxn m) := by
  by_cases h : (s.txnAt m).st = .idle
  · rw [State.endRoomTxn_idle h]; exact s.onlyResumes_refl
  · exact (State.endRoomTxn_open hn h).1

end Sys2Proof.Machine
end

section
/-! PROOFS. Task kills, and island, room and tenant resets (R87, R94–R98, R102–R107). -/

namespace Sys2Proof.Machine

open Sys2Proof

/-! ### Room states under a tenant reset (Table 5-6) -/

/-- The state that a tenant reset gives a room. -/
def RoomSt.tenantReset : RoomSt → RoomSt
  | .absent => .absent
  | .dormant => .dormant
  | .clearing => .clearing
  | _ => .resetting

theorem RoomSt.tenantReset_eq (x : RoomSt) :
    x.tenantReset = if x = .absent then .absent else if x = .dormant then .dormant else if x = .clearing then .clearing else .resetting := by
  cases x <;> rfl

theorem RoomSt.tenantReset_idem (x : RoomSt) : x.tenantReset.tenantReset = x.tenantReset := by cases x <;> rfl

/-- A room of a tenant under reset: its transaction ends and it resets. -/
def State.tenantRoom (s : State) (m : Nat) : State :=
  (s.endRoomTxn m).modRoom m (fun r =>
    if r.st == .absent || r.st == .dormant || r.st == .clearing then r else { r with st := .resetting })

theorem State.onlyRoomTxns_tenantRoom {s : State} (hn : s.noStartWaits) (m : Nat) : s.onlyRoomTxns (s.tenantRoom m) :=
  State.onlyRoomTxns_trans (State.onlyResumes_endRoomTxn hn m).1 ⟨rfl, rfl⟩

theorem State.tenantRoom_st {s : State} (hn : s.noStartWaits) (m k : Nat) :
    ((s.tenantRoom m).room k).st.tenantReset = (s.room k).st.tenantReset
      ∧ (k = m ∨ (s.room k).st.tenantReset = (s.room k).st → ((s.tenantRoom m).room k).st = (s.room k).st.tenantReset) := by
  have hend : ((s.endRoomTxn m).room k).st = (s.room k).st
      ∨ ((s.room k).st = .held ∧ ((s.endRoomTxn m).room k).st = .serving) := by
    rcases (State.onlyResumes_endRoomTxn hn m).2 k with h | ⟨h, h'⟩
    · exact .inl (by rw [h])
    · exact .inr ⟨h, by rw [h']⟩
  have hst : ((s.tenantRoom m).room k).st
      = if m = k then ((s.endRoomTxn m).room k).st.tenantReset else ((s.endRoomTxn m).room k).st := by
    unfold State.tenantRoom
    rw [State.room_modRoom]
    split
    · rename_i hk
      subst hk
      cases h : ((s.endRoomTxn m).room m).st <;> simp [h, RoomSt.tenantReset]
    · rfl
  rw [hst]
  have hsame : ((s.endRoomTxn m).room k).st.tenantReset = (s.room k).st.tenantReset := by
    rcases hend with h | ⟨h, h'⟩
    · rw [h]
    · rw [h, h']; rfl
  by_cases hk : m = k
  · rw [if_pos hk, hsame]
    exact ⟨RoomSt.tenantReset_idem _, fun _ => rfl⟩
  · rw [if_neg hk]
    refine ⟨hsame, fun h => ?_⟩
    have hfix := h.resolve_left (Ne.symm hk)
    rcases hend with h | ⟨h, -⟩
    · rw [h, hfix]
    · rw [h] at hfix; cases hfix

theorem State.tenantRooms_st (l : List Nat) {s : State} (hn : s.noStartWaits) :
    s.onlyRoomTxns (l.foldl State.tenantRoom s) ∧ ∀ k,
      ((l.foldl State.tenantRoom s).room k).st.tenantReset = (s.room k).st.tenantReset
        ∧ (k ∈ l ∨ (s.room k).st.tenantReset = (s.room k).st →
            ((l.foldl State.tenantRoom s).room k).st = (s.room k).st.tenantReset) := by
  induction l generalizing s with
  | nil => exact ⟨s.onlyRoomTxns_refl, fun k => ⟨rfl, fun h => (h.resolve_left List.not_mem_nil).symm⟩⟩
  | cons m l ih =>
    have hone := State.onlyRoomTxns_tenantRoom hn m
    obtain ⟨honly, h⟩ := ih (State.onlyRoomTxns_noStartWaits hone hn)
    refine ⟨State.onlyRoomTxns_trans hone honly, fun k => ?_⟩
    obtain ⟨h1, h2⟩ := h k
    obtain ⟨g1, g2⟩ := State.tenantRoom_st hn m k
    refine ⟨h1.trans g1, fun hk => (h2 ?_).trans g1⟩
    rcases hk with hk | hk
    · rcases List.mem_cons.mp hk with hk | hk
      · exact .inr (by rw [g2 (.inl hk), RoomSt.tenantReset_idem])
      · exact .inl hk
    · exact .inr (by rw [g2 (.inr hk), RoomSt.tenantReset_idem])

/-! ### Tasks of a tenant under reset (R102) -/

/-- A task of a tenant under reset ends with no record. -/
def State.tenantHalt (s : State) (x : Nat × Task) : State := (s.modTask x.1 (fun k => { k with noRecord := true })).halt x.1

theorem State.onlyHalts_tenantHalt (s : State) (x : Nat × Task) : s.onlyHalts (s.tenantHalt x) :=
  State.onlyHalts_trans (State.onlyHalts_modTask x.1 _ s) (State.onlyHalts_halt x.1 _)

section
variable {s : State} {i n k : Nat} {more : List (Nat × Nat)} {rq : Bool} {st : Option (Nat × Nat)}

theorem State.onCourse_noRecord (j : Nat) (h : s.onCourse i n k more rq st) :
    (s.modTask j (fun k => { k with noRecord := true })).onCourse i n k more rq st :=
  State.onCourse_modTask (fun _ _ => rfl) h

theorem State.onCourse_tenantHalts {l : List (Nat × Task)} (hi : i ∈ l.map (·.1)) (h : s.onCourse i n k more rq st) :
    (l.foldl State.tenantHalt s).onCourse i n k more false (some (haltStatus rq st)) :=
  State.onCourse_halts (key := fun x : Nat × Task => x.1)
    (fun hx h => by subst hx; exact State.onCourse_halt_self (State.onCourse_noRecord _ h))
    (fun hx h => State.onCourse_halt_other (Ne.symm hx) (State.onCourse_noRecord _ h)) hi h

end

/-- A halt keeps what neither status nor marks are. -/
theorem State.halt_task {α : Type} (g : Task → α)
    (hg : ∀ (t : Task) rq st sp, g { t with requeue := rq, status := st, spanStop := sp } = g t) (j i : Nat) (s : State) :
    ((s.halt j).task? i).map g = (s.task? i).map g := by
  have hun : ∀ t : Task, g t.unforced = g t := fun t => by
    unfold Task.unforced; split
    · exact hg t false (some (0x31, 0)) t.spanStop
    · rfl
  have hset : ∀ u : State, ((u.setStatus j 0x31 0).task? i).map g = (u.task? i).map g := fun u =>
    State.task?_modTask_map g j i (fun t => hg t t.requeue _ t.spanStop) u
  have hstop : ∀ u : State, ((u.stopTask j 0x31 0).task? i).map g = (u.task? i).map g := fun u => by
    unfold State.stopTask
    split
    · rfl
    · split
      · split
        · rfl
        · rw [State.task?_stopSlots]; exact hset u
      · rfl
  rw [State.halt_eq]
  exact (State.tellStops_task g (fun t => hg t t.requeue t.status true) j i _).trans
    ((hstop _).trans (State.task?_modTask_map g j i hun s))

theorem State.tenantHalt_noRecord (s : State) (x : Nat × Task) (i : Nat) :
    ((s.tenantHalt x).task? i).map (·.noRecord) = if i = x.1 then (s.task? i).map (fun _ => true) else (s.task? i).map (·.noRecord) := by
  refine (State.halt_task (fun t : Task => t.noRecord) (fun _ _ _ _ => rfl) x.1 i _).trans ?_
  rw [State.task?_modTask]
  split
  · rename_i h; rw [h, Option.map_map]; rfl
  · rfl

theorem State.tenantHalts_noRecord {i : Nat} (l : List (Nat × Task)) {s : State} {b : Bool}
    (hs : (s.task? i).map (·.noRecord) = some b) (h : i ∈ l.map (·.1) ∨ b = true) :
    ((l.foldl State.tenantHalt s).task? i).map (·.noRecord) = some true := by
  induction l generalizing s b with
  | nil => exact hs.trans (congrArg some (h.resolve_left List.not_mem_nil))
  | cons x l ih =>
    have hx := s.tenantHalt_noRecord x i
    by_cases hi : i = x.1
    · obtain ⟨t, ht, -⟩ := Option.map_eq_some_iff.mp hs
      rw [if_pos hi, ht] at hx
      exact ih hx (.inr rfl)
    · rw [if_neg hi, hs] at hx
      exact ih hx (h.imp_left (fun h => (List.mem_cons.mp h).resolve_left hi))

/-! ### Commands -/

section
variable (s : State)

theorem exec_taskKill (fn : Fn) (q : Nat) (matchTag : Bool) : exec (.taskKill fn q matchTag) s = .next (s.taskKill fn q matchTag) := rfl
theorem exec_islandReset (n : IslN) : exec (.islandReset n) s = .next (s.islandReset n) := rfl
theorem exec_roomReset (fn : Fn) (m : Room) (flush : Bool) : exec (.roomReset fn m flush) s = .next (s.roomResetBy fn m flush) := rfl
theorem exec_tenantReset (fn t : Fn) (scrub : Bool) : exec (.tenantReset fn t scrub) s = .next (s.tenantResetBy fn t scrub) := rfl
theorem exec_dispatchStall (m : Room) : exec (.dispatchStall m) s = .next (s.dispatchStall m) := rfl

/-- TEN_KILL of a whole queue. -/
theorem State.taskKill_pf0 (q : Nat) :
    s.taskKill 0 q false =
      ((((s.setReg 0x20028 (packW [(0, 17, q), (20, 1, 0)])).endWaiting q (fun e => killTakes none e.raw)).haltAll (s.killable q none))).modTenU
        (fun t => { t with killBusy := true, killTids := (s.killNamed q none).map (·.1)
                           killed := sat 16 ((s.killable q none).length
                             + ((s.queue q).waiting.filter (fun e => killTakes none e.raw)).length) }) := rfl

end

theorem Fn.val_ne_zero {fn : Fn} (h : fn ≠ 0) : fn.val ≠ 0 := fun h0 => h (Fin.ext h0)

/-- A tenant's kill of a queue that is not its own. -/
theorem State.taskKill_foreign {s : State} {fn : Fn} {q : Nat} (hfn : fn ≠ 0) (ha : s.tenActive fn = true)
    (hq : s.ownsQueue fn q = false) :
    s.taskKill fn q false
      = ((s.setB2 fn 0x6018 (packW [(0, 17, q), (20, 1, 0)])).queueViol fn q).modTen fn (fun t => { t with killed := 0 }) := by
  have hq' : (s.setB2 fn 0x6018 (packW [(0, 17, q), (20, 1, 0)])).ownsQueue fn q = false := hq
  unfold State.taskKill
  rw [if_neg (Fn.val_ne_zero hfn), if_neg (by simp [ha])]
  unfold State.tenantKill
  simp only [b2n, Bool.false_eq_true, if_false, hq']

/-- A tenant's fault bit after an update of the tenant. -/
theorem State.tenant_setFault (t bit : Nat) (f : TenRt → TenRt) (s : State) :
    ((s.modTen t f).setFault t bit).tenant t = { f (s.tenant t) with fault := setBit (f (s.tenant t)).fault bit } := by
  show (((s.modTen t f).modTen t (fun r => { r with fault := setBit r.fault bit })).tenant t) = _
  rw [State.tenant_modTen, if_pos rfl, State.tenant_modTen, if_pos rfl]

theorem State.emit_tenant (src cls code ten sev : Nat) (words : List Nat) (s : State) (k : Nat) :
    (s.emit src cls code ten sev words).tenant k = s.tenant k := by
  obtain ⟨st, l, h⟩ := State.onlyEvents_emit src cls code ten sev words s
  rw [h]; rfl

theorem State.emit_room (src cls code ten sev : Nat) (words : List Nat) (s : State) (k : Nat) :
    (s.emit src cls code ten sev words).room k = s.room k := by
  obtain ⟨st, l, h⟩ := State.onlyEvents_emit src cls code ten sev words s
  rw [h]; rfl

/-- An event raised last, over a state with the clocks and the Ledger of `s`. -/
theorem State.raises_of_emit {s t u : State} {src cls code ten sev : Nat} {words : List Nat}
    (he : t = u.emit src cls code ten sev words) (hc : u.clk = s.clk) (hl : u.ledg = s.ledg) :
    s.raises src cls code ten sev words t := by
  rw [he]; exact State.raises_emit_of_eq hc hl ..

/-- A queue violation but for its event (R96). -/
def State.queueViolated (t q : Nat) (s : State) : State :=
  ((s.modTen t (fun r => { r with violQ := sat1 16 r.violQ, lastQ := q })).modQm (fun m => { m with viol := wrap1 16 m.viol })).setFault t 2

theorem State.queueViol_eq (t q : Nat) (s : State) : s.queueViol t q = (s.queueViolated t q).emit 0x90 2 1 t 2 [q] := rfl

theorem State.queueViolated_tenant (t q : Nat) (s : State) :
    (s.queueViolated t q).tenant t
      = { s.tenant t with violQ := sat1 16 (s.tenant t).violQ, lastQ := q, fault := setBit (s.tenant t).fault 2 } :=
  State.tenant_setFault t 2 (fun r => { r with violQ := sat1 16 r.violQ, lastQ := q }) s

/-- What a queue violation leaves of the rest. -/
theorem State.queueViol_spec (s : State) (t q : Nat) :
    s.raises 0x90 2 1 t 2 [q] (s.queueViol t q) ∧ (∀ j, (s.queueViol t q).queue j = s.queue j)
      ∧ { s.queueViol t q with ten := s.ten, qm := s.qm, ledg := s.ledg, clk := s.clk } = s := by
  refine ⟨State.raises_of_emit (s.queueViol_eq t q) rfl rfl, ?_⟩
  obtain ⟨st, l, h⟩ := State.onlyEvents_emit 0x90 2 1 t 2 [q] (s.queueViolated t q)
  rw [State.queueViol_eq, h]
  unfold State.queueViolated State.setFault State.modTen State.modQm
  exact ⟨fun _ => rfl, rfl⟩

/-- An access violation but for its event (R96). -/
def State.addrViolated (t : Nat) (s : State) : State :=
  (s.modTen t (fun r => { r with violA := sat1 16 r.violA })).setFault t 3

theorem State.addrViol_eq (src t addr : Nat) (s : State) : s.addrViol src t addr = (s.addrViolated t).emit src 2 2 t 2 [addr] := rfl

theorem State.addrViolated_tenant (t : Nat) (s : State) :
    (s.addrViolated t).tenant t = { s.tenant t with violA := sat1 16 (s.tenant t).violA, fault := setBit (s.tenant t).fault 3 } :=
  State.tenant_setFault t 3 (fun r => { r with violA := sat1 16 r.violA }) s

/-- A room fault but for its event (R98). -/
def State.roomFaulted (m cause : Nat) (s : State) : State :=
  (s.modRoom m (fun r => { r with st := .faulted, cause := cause })).setFault (s.roomTenant m) 1

theorem State.roomFault_eq (m cause : Nat) (s : State) :
    s.roomFault m cause = (s.roomFaulted m cause).emit 0 2 4 (s.roomTenant m) 3 [m, cause] := rfl

theorem State.roomFaulted_room (m cause : Nat) (s : State) :
    (s.roomFaulted m cause).room m = { s.room m with st := .faulted, cause := cause } :=
  (State.room_modRoom s m m (fun r => { r with st := .faulted, cause := cause })).trans (if_pos rfl)

theorem State.roomFaulted_tenant (m cause : Nat) (s : State) :
    (s.roomFaulted m cause).tenant (s.roomTenant m)
      = { s.tenant (s.roomTenant m) with fault := setBit (s.tenant (s.roomTenant m)).fault 1 } :=
  (State.tenant_modTen s (s.roomTenant m) (s.roomTenant m) (fun r => { r with fault := setBit r.fault 1 })).trans (if_pos rfl)

/-! ### Room resets (R78, R87, R104) -/

section
variable {s : State} {m : Nat} {flush : Bool}

theorem State.roomReset_held (ha : s.txn.hatch.st = .armed) (hb : bitOf s.txn.hatch.rooms m = true) :
    s.roomReset m flush = s.modHatch (fun h => { h with heldRooms := h.heldRooms ++ [(m, flush)] }) :=
  if_pos (by simp [ha, hb])

theorem State.roomReset_goes (h : ¬(s.txn.hatch.st = .armed ∧ bitOf s.txn.hatch.rooms m = true))
    (ht : (s.tenant (s.roomTenant m)).st ≠ .resetting) : s.roomReset m flush = s.roomResetGo flush m := by
  unfold State.roomReset
  rw [if_neg (by simpa using h), if_neg (by simp [ht])]

theorem State.roomResetGo_clearing (h : (s.room m).st = .clearing) :
    s.roomResetGo flush m = (s.endRoomTxn m).modRoom m (fun r => { r with merged := true, flush := r.flush || flush }) := by
  unfold State.roomResetGo
  rw [h]

/-- The room is RESETTING and its tasks are told to stop. -/
def State.roomHalted (m : Nat) (s : State) : State :=
  let s := s.modRoom m (fun r => { r with st := .resetting })
  s.haltAll (s.roomTasks m)

/-- Its transaction has ended, its lanes are free, and FLUSH has emptied its queues. -/
def State.roomDropped (flush : Bool) (m : Nat) (s : State) : State :=
  let s := s.endRoomTxn m
  let s := (s.living.roomPassages m).foldl (fun s k => s.freePassage k) s
  if flush then s.flushRoom m else s

theorem State.roomResetGo_begins (h : (s.room m).st ∈ [.serving, .held, .faulted]) :
    s.roomResetGo flush m = (s.roomHalted m).roomDropped flush m := by
  simp only [List.mem_cons, List.not_mem_nil, or_false] at h
  unfold State.roomResetGo
  rcases h with h | h | h <;> rw [h] <;> rfl

/-- What a room's reset drops is not a task, nor a room that is not HELD. -/
theorem State.roomDropped_spec (hn : s.noStartWaits) (hm : (s.room m).st = .resetting) :
    (s.roomDropped flush m).tasks = s.tasks ∧ ((s.roomDropped flush m).room m).st = .resetting
      ∧ ((s.txnAt m).st ≠ .idle → ((s.roomDropped flush m).txnAt m).st = .idle ∧ ((s.roomDropped flush m).txnAt m).result = 0x31) := by
  have hend := State.onlyResumes_endRoomTxn hn m
  obtain ⟨i, r, hp⟩ := State.onlyStreams_foldl (fun s k => State.onlyStreams_freePassage k s)
    ((s.endRoomTxn m).living.roomPassages m) (s.endRoomTxn m)
  have hdrop : ∃ i r q o, s.roomDropped flush m = { s.endRoomTxn m with isl := i, streams := r, qm := q, out := o } := by
    unfold State.roomDropped
    dsimp only
    rw [hp]
    cases flush with
    | false => exact ⟨i, r, _, _, rfl⟩
    | true =>
      obtain ⟨q, o, hf⟩ := State.onlyQm_flushRoom m { s.endRoomTxn m with isl := i, streams := r }
      exact ⟨i, r, q, o, hf⟩
  obtain ⟨i, r, q, o, he⟩ := hdrop
  rw [he]
  refine ⟨(State.onlyRoomTxns_tasks hend.1 :), ?_, fun h => (State.endRoomTxn_open hn h).2⟩
  exact (congrArg RoomRt.st (State.onlyResumes_room hend (m := m) (by simp [hm]))).trans hm

end

/-! ### Tenant resets (R102, R107) -/

/-- A queue of the tenant holds nothing once its contexts are emptied. -/
theorem State.emptyQueues_queue {s : State} {t q : Nat} (h : s.ownsQueue t q = true) : (s.emptyQueues t).queue q = .reset := by
  unfold State.ownsQueue at h
  unfold State.emptyQueues
  split at h
  · rename_i c hc
    rw [hc]
    exact NMap.getD_filter_out (p := fun q => !c.hasQueue q) (by simp [h])
  · cases h

theorem State.onlyQm_emptyQueues (t : Nat) (s : State) : s.onlyQm (s.emptyQueues t) := by
  unfold State.emptyQueues
  split
  · exact s.onlyQm_refl
  · exact ⟨_, s.out, rfl⟩

/-- A tenant under reset, with what is to be zeroed (R105). -/
def State.tenantResetting (scrub : Bool) (t : Nat) (s : State) : State :=
  s.modTen t (fun r =>
    { r with st := .resetting, scrubOn := scrub || r.scrubOn
             scrub := if scrub then State.tenantResetGo.insScrub s.living t r.scrub else r.scrub })

theorem State.tenantResetting_tenant (scrub : Bool) (t : Nat) (s : State) :
    ((s.tenantResetting scrub t).tenant t).st = .resetting
      ∧ ((s.tenantResetting scrub t).tenant t).scrubOn = (scrub || (s.tenant t).scrubOn) := by
  unfold State.tenantResetting
  rw [State.tenant_modTen, if_pos rfl]
  exact ⟨rfl, rfl⟩

theorem State.tenantResetGo_eq (scrub : Bool) (t : Nat) (s : State) :
    s.tenantResetGo scrub t = (((s.living.roomsOf t).foldl State.tenantRoom
      (((s.tasks.live.filter (fun x => x.2.tenant == t)).foldl State.tenantHalt s).emptyQueues t))).tenantResetting scrub t := rfl

section
variable {s : State} {t : Nat} {scrub : Bool}

/-- What a tenant reset leaves: the tasks as halted, the queues as emptied, and each of its rooms with its state. -/
theorem State.tenantResetGo_spec (hn : s.noStartWaits) :
    (s.tenantResetGo scrub t).tasks = ((s.tasks.live.filter (fun x => x.2.tenant == t)).foldl State.tenantHalt s).tasks
      ∧ (∀ q, s.ownsQueue t q = true → (s.tenantResetGo scrub t).queue q = .reset)
      ∧ (∀ m ∈ s.living.roomsOf t, ((s.tenantResetGo scrub t).room m).st = (s.room m).st.tenantReset)
      ∧ ((s.tenantResetGo scrub t).tenant t).st = .resetting
      ∧ ((s.tenantResetGo scrub t).tenant t).scrubOn = (scrub || (s.tenant t).scrubOn) := by
  have hhalt := State.onlyHalts_foldl State.onlyHalts_tenantHalt (s.tasks.live.filter (fun x => x.2.tenant == t)) s
  rw [State.tenantResetGo_eq]
  generalize (s.tasks.live.filter (fun x => x.2.tenant == t)).foldl State.tenantHalt s = u at hhalt
  have hten := State.onlyHalts_ten hhalt
  have hliving := State.onlyHalts_living hhalt
  have hown : ∀ q, u.ownsQueue t q = s.ownsQueue t q := fun q => by
    unfold State.ownsQueue State.tenantCfg?; rw [hliving]
  obtain ⟨qm, o, hq⟩ := State.onlyQm_emptyQueues t u
  have hn' : (u.emptyQueues t).noStartWaits := by
    intro m
    rw [hq]
    exact (congrArg (fun c : Cell => (NMap.getD c.spans m .reset).waits) (State.onlyHalts_cell hhalt)).trans (hn m)
  obtain ⟨honly, hrooms⟩ := State.tenantRooms_st (s.living.roomsOf t) hn'
  have hroom : ∀ m, (u.emptyQueues t).room m = s.room m := fun m => by
    rw [hq]; exact congrArg (fun x : TenUnit => NMap.getD x.rooms m .reset) hten
  have htenant : (u.emptyQueues t).tenant t = s.tenant t := by
    rw [hq]; exact congrArg (fun x : TenUnit => NMap.getD x.tenants t .reset) hten
  refine ⟨?_, fun q hq' => ?_, fun m hm => ?_, ?_, ?_⟩
  · exact (State.onlyRoomTxns_tasks honly).trans (by rw [hq])
  · rw [← hown] at hq'
    exact (congrArg (fun x : QMgr => NMap.getD x.queues q .reset) (State.onlyRoomTxns_qm honly)).trans (State.emptyQueues_queue hq')
  · rw [← hroom m]
    exact (hrooms m).2 (.inl hm)
  · exact (State.tenantResetting_tenant scrub t _).1
  · rw [(State.tenantResetting_tenant scrub t _).2, State.onlyRoomTxns_tenant honly, htenant]

end

/-! ### The status of the tasks stopped -/

section
variable {s t u : State} {i n k : Nat} {tk : Task} {more : List (Nat × Nat)} (ht : s.task? i = some tk) (hs : tk.slots = (n, k) :: more)
  (he : (s.slot n k).st ≠ .ending)
include ht hs he

/-- A task on its course in `s` is on it in a state with the same tasks and islands. -/
theorem State.onCourse_of_eq (hu : u.tasks = s.tasks) (hi : u.isl = s.isl) : u.onCourse i n k more tk.requeue tk.status := by
  obtain ⟨h1, h2⟩ := State.onCourse_of_task ht hs he
  unfold State.onCourse State.task? State.slot State.island at *
  rw [hu, hi]
  exact ⟨h1, h2⟩

/-- A task that a list of halts names has its status when they are done. -/
theorem State.status_haltAll {l : List (Nat × Task)} (hu : u.tasks = s.tasks) (hi : u.isl = s.isl) (hl : i ∈ l.map (·.1))
    (htt : t.tasks = (u.haltAll l).tasks) :
    (t.task? i).map (·.status) = some (some (haltStatus tk.requeue tk.status)) := by
  have h := State.status_of_onCourse (State.onCourse_haltAll hl (State.onCourse_of_eq ht hs he hu hi))
  unfold State.task? at h ⊢
  rw [htt]
  exact h

end

/-- The waiting descriptors of a queue that a kill of the whole queue ends are all of them. -/
theorem killTakes_all (ws : List QEntry) :
    ws.filter (fun e => killTakes none e.raw) = ws ∧ ws.filter (fun e => !killTakes none e.raw) = [] :=
  ⟨List.filter_eq_self.mpr (fun _ _ => rfl), List.filter_eq_nil_iff.mpr (fun _ _ => by simp [killTakes])⟩

theorem State.taskKill_spec (s : State) (q : Nat) :
    ((s.taskKill 0 q false).queue q).waiting = [] ∧ (s.taskKill 0 q false).ten.killBusy = true
      ∧ (s.taskKill 0 q false).ten.killed = sat 16 ((s.killable q none).length + (s.queue q).waiting.length)
      ∧ ∃ u : State, u.tasks = s.tasks ∧ u.isl = s.isl ∧ (s.taskKill 0 q false).tasks = (u.haltAll (s.killable q none)).tasks := by
  obtain ⟨honly, hw⟩ := State.endWaiting_waiting q (fun e => killTakes none e.raw) (s.setReg 0x20028 (packW [(0, 17, q), (20, 1, 0)]))
  rw [State.taskKill_pf0]
  generalize (s.setReg 0x20028 (packW [(0, 17, q), (20, 1, 0)])).endWaiting q (fun e => killTakes none e.raw) = u at honly hw
  obtain ⟨qm, o, rfl⟩ := honly
  have hqm := State.onlyHalts_qm (State.onlyHalts_haltAll (s.killable q none)
    { s.setReg 0x20028 (packW [(0, 17, q), (20, 1, 0)]) with qm := qm, out := o })
  refine ⟨?_, rfl, ?_, { s.setReg 0x20028 (packW [(0, 17, q), (20, 1, 0)]) with qm := qm, out := o }, rfl, rfl, rfl⟩
  · exact (congrArg (fun x : QMgr => (NMap.getD x.queues q .reset).waiting) hqm).trans
      ((hw q).trans ((if_pos rfl).trans (killTakes_all _).2))
  · exact congrArg (fun l : List QEntry => sat 16 ((s.killable q none).length + l.length)) (killTakes_all _).1

theorem State.islandReset_spec (s : State) (n : Nat) :
    n ∈ (s.islandReset n).ten.islBusy
      ∧ ∃ u : State, u.tasks = s.tasks ∧ u.isl = s.isl ∧ (s.islandReset n).tasks = (u.haltAll (s.islTasks n)).tasks :=
  ⟨(mem_insN n n _).mpr (.inl rfl), s.setReg 0x20030 (packW [(0, 6, n)]), rfl, rfl, rfl⟩

section
variable {s : State} {m : Nat} {flush : Bool}

/-- A reset of a room under clearing is merged into it. -/
theorem State.roomResetGo_merges (hn : s.noStartWaits) (h : (s.room m).st = .clearing) :
    (s.roomResetGo flush m).room m = { s.room m with merged := true, flush := (s.room m).flush || flush }
      ∧ ((s.txnAt m).st ≠ .idle → ((s.roomResetGo flush m).txnAt m).st = .idle ∧ ((s.roomResetGo flush m).txnAt m).result = 0x31)
      ∧ ((s.txnAt m).st = .idle → { s.roomResetGo flush m with ten := s.ten } = s) := by
  have hroom := State.onlyResumes_room (State.onlyResumes_endRoomTxn hn m) (m := m) (by simp [h])
  rw [State.roomResetGo_clearing h]
  refine ⟨?_, fun ho => (State.endRoomTxn_open hn ho).2, fun hi => ?_⟩
  · rw [State.room_modRoom, if_pos rfl, hroom]
  · rw [State.endRoomTxn_idle hi]; rfl

/-- A room that serves, is held or is faulted resets. -/
theorem State.roomResetGo_resets (hn : s.noStartWaits) (h : (s.room m).st ∈ [.serving, .held, .faulted]) :
    ((s.roomResetGo flush m).room m).st = .resetting
      ∧ ((s.txnAt m).st ≠ .idle → ((s.roomResetGo flush m).txnAt m).st = .idle ∧ ((s.roomResetGo flush m).txnAt m).result = 0x31)
      ∧ (s.roomResetGo flush m).tasks = ((s.modRoom m (fun r => { r with st := .resetting })).haltAll (s.roomTasks m)).tasks := by
  have hhalt := State.onlyHalts_haltAll (s.roomTasks m) (s.modRoom m (fun r => { r with st := .resetting }))
  have hn' : (s.roomHalted m).noStartWaits := fun k =>
    (congrArg (fun c : Cell => (NMap.getD c.spans k .reset).waits) (State.onlyHalts_cell hhalt)).trans (hn k)
  have hroom : ((s.roomHalted m).room m).st = .resetting := by
    refine (congrArg (fun x : TenUnit => (NMap.getD x.rooms m .reset).st) (State.onlyHalts_ten hhalt)).trans ?_
    exact congrArg RoomRt.st ((State.room_modRoom s m m _).trans (if_pos rfl))
  obtain ⟨htasks, hst, htxn⟩ := State.roomDropped_spec (flush := flush) hn' hroom
  rw [State.roomResetGo_begins h]
  refine ⟨hst, fun ho => htxn ?_, htasks⟩
  have hkeep : (s.roomHalted m).txn = s.txn := (State.onlyHalts_txn hhalt :)
  unfold State.txnAt at ho ⊢
  rw [hkeep]; exact ho

/-- A tenant's reset of a room that is not its own. -/
theorem State.roomResetBy_foreign {fn : Fn} (hfn : fn ≠ 0) (ha : s.tenActive fn = true) (h : s.roomTenant m ≠ fn.val) :
    s.roomResetBy fn m flush = (s.setB2 fn 0x6020 (packW [(0, 6, m)])).addrViol 0x90 fn 0x6020 := by
  have h' : (s.setB2 fn 0x6020 (packW [(0, 6, m)])).roomTenant m ≠ fn.val := h
  unfold State.roomResetBy
  rw [if_neg (Fn.val_ne_zero hfn), if_neg (by simp [ha])]
  unfold State.ownRoomReset
  dsimp only
  rw [if_neg (by simp [h'])]

theorem State.dispatchStall_faults {q : Nat} {e : QEntry} (hst : (s.room m).st = .serving) (hh : s.nextHead m = some (q, e))
    (hr : (s.resident? (s.roomTenant m) m (dGraph e.raw)).isSome = true) : s.dispatchStall m = s.roomFault m 2 :=
  if_pos (by simp [hst, hh, hr])

theorem State.tenantResetBy_pf0 {t : Nat} (ha : s.tenActive t = true) (scrub : Bool) :
    s.tenantResetBy 0 t scrub = s.tenantReset t scrub := by
  simp [State.tenantResetBy, ha]

end

/-- Settles O42: kills and resets halt the tasks of what they name, and a reset that is held, refused or merged does no more
than say so. -/
theorem killsAndResetsStopTheirTasks : Obligations.KillsAndResetsStopTheirTasks := by
  intro s stopped
  refine ⟨fun q => ?kill, fun fn q hfn ha hq => ?killForeign, fun n => ?island,
    fun m flush => ⟨fun ha hb => ?held, fun hb ht hn => ⟨fun hc => ?merged, fun hr => ?room⟩, fun fn hfn ha hown => ?foreign⟩,
    fun fn scrub ha harmed => ?tenantHeld, fun fn scrub ha harmed hn => ?tenant, fun m q e hst hh hr => ?stall⟩
  case kill =>
    obtain ⟨hw, hbusy, hkilled, u, hu, hi, htasks⟩ := s.taskKill_spec q
    refine ⟨_, exec_taskKill s 0 q false, hw, hbusy, hkilled, fun i tk ht hq hspan hrun n k more hs he => ?_⟩
    refine State.status_haltAll ht hs he hu hi ?_ htasks
    unfold State.killable State.killNamed
    rw [List.filter_filter]
    refine State.mem_keys_filter ht ?_
    simpa [hq, hspan, killTakes] using hrun
  case killForeign =>
    obtain ⟨hraises, hqueue, honly⟩ := (s.setB2 fn 0x6018 (packW [(0, 17, q), (20, 1, 0)])).queueViol_spec fn q
    rw [exec_taskKill, State.taskKill_foreign hfn ha hq]
    refine ⟨_, rfl, ?_, hqueue q, State.raises_of_eq (s := s) (u := s.setB2 fn 0x6018 (packW [(0, 17, q), (20, 1, 0)])) rfl rfl hraises,
      (congrArg (fun x : State => { x with bar2 := s.bar2 }) honly :)⟩
    rw [State.tenant_modTen, if_pos rfl, State.queueViol_eq, State.emit_tenant, State.queueViolated_tenant]
    rfl
  case island =>
    obtain ⟨hbusy, u, hu, hi, htasks⟩ := s.islandReset_spec n.val
    refine ⟨_, exec_islandReset s n, hbusy, fun i tk ht hx n k more hs he => State.status_haltAll ht hs he hu hi ?_ htasks⟩
    exact State.mem_keys_filter ht (by simpa using hx)
  case held =>
    rw [exec_roomReset]
    exact congrArg Host.Outcome.next (State.roomReset_held ha hb)
  case merged =>
    obtain ⟨hroom, hopen, hidle⟩ := State.roomResetGo_merges (flush := flush) hn hc
    exact ⟨_, congrArg Host.Outcome.next (State.roomReset_goes hb ht), hroom, hopen, hidle⟩
  case room =>
    obtain ⟨hroom, hopen, htasks⟩ := State.roomResetGo_resets (flush := flush) hn hr
    refine ⟨_, congrArg Host.Outcome.next (State.roomReset_goes hb ht), hroom, hopen, fun i tk ht hm n k more hs he => ?_⟩
    exact State.status_haltAll (u := s.modRoom m (fun r => { r with st := .resetting })) (l := s.roomTasks m) ht hs he rfl rfl
      (State.mem_keys_filter (p := fun t => t.2.room == m.val) ht (by simpa using hm)) htasks
  case foreign =>
    rw [exec_roomReset, State.roomResetBy_foreign hfn ha hown, State.addrViol_eq]
    refine ⟨_, rfl, ?_, State.emit_room .., State.raises_emit_of_eq (s := s) (u := (s.setB2 fn 0x6020 (packW [(0, 6, m.val)])).addrViolated fn) rfl rfl ..⟩
    rw [State.emit_tenant, State.addrViolated_tenant]
    rfl
  case tenantHeld =>
    rw [exec_tenantReset]
    exact congrArg Host.Outcome.next ((State.tenantResetBy_pf0 ha scrub).trans (if_pos (by simp [harmed])))
  case tenant =>
    obtain ⟨htasks, hqueues, hrooms, hst, hscrub⟩ := State.tenantResetGo_spec (t := fn) (scrub := scrub) hn
    refine ⟨_, congrArg Host.Outcome.next ((State.tenantResetBy_pf0 ha scrub).trans (if_neg (by simp [harmed]))), hst, hscrub,
      fun m hm _ => (hrooms m hm).trans (RoomSt.tenantReset_eq _), hqueues, fun i tk ht hten => ?_⟩
    have hmem : i ∈ (s.tasks.live.filter (fun x => x.2.tenant == fn.val)).map (·.1) := State.mem_keys_filter ht (by simpa using hten)
    refine ⟨fun n k more hs he => ?_, ?_⟩
    · have h := State.status_of_onCourse (State.onCourse_tenantHalts hmem (State.onCourse_of_task ht hs he))
      unfold State.task? at h ⊢
      rw [htasks]
      exact h
    · have h := State.tenantHalts_noRecord (s.tasks.live.filter (fun x => x.2.tenant == fn.val)) (s := s) (b := tk.noRecord)
        (by rw [ht]; rfl) (.inl hmem)
      unfold State.task? at h ⊢
      rw [htasks]
      exact h
  case stall =>
    rw [exec_dispatchStall, State.dispatchStall_faults hst hh hr, State.roomFault_eq]
    refine ⟨_, rfl, ?_, ?_, State.raises_emit_of_eq (s := s) (u := s.roomFaulted m.val 2) rfl rfl ..⟩
    · rw [State.emit_room, State.roomFaulted_room]
    · rw [State.emit_tenant, State.roomFaulted_tenant]

end Sys2Proof.Machine
end

section
/-! PROOFS. What effects of other units leave of silent-error handling: the RAS unit, and queues that hold nothing. -/

namespace Sys2Proof.Machine

open Sys2Proof

/-! ### Effects that the RAS unit does not see -/

/-- The RAS unit stays, and a queue with no waiting descriptor gets none. -/
def State.keepsRas (s t : State) : Prop := t.ras = s.ras ∧ ∀ q, (s.queue q).waiting = [] → (t.queue q).waiting = []

theorem State.keepsRas_refl (s : State) : s.keepsRas s := ⟨rfl, fun _ h => h⟩

theorem State.keepsRas_trans {s t u : State} (h : s.keepsRas t) (g : t.keepsRas u) : s.keepsRas u :=
  ⟨g.1.trans h.1, fun q hq => g.2 q (h.2 q hq)⟩

theorem State.keepsRas_foldl {α : Type} {f : State → α → State} (hf : ∀ (s : State) x, s.keepsRas (f s x)) (l : List α) (s : State) :
    s.keepsRas (l.foldl f s) :=
  foldl_relates State.keepsRas_refl State.keepsRas_trans hf l s

/-- An effect that leaves the RAS unit and the queues. -/
theorem State.keepsRas_of_eq {s t : State} (hr : t.ras = s.ras) (hq : t.qm.queues = s.qm.queues) : s.keepsRas t := by
  refine ⟨hr, fun q h => ?_⟩
  unfold State.queue at h ⊢
  rw [hq]; exact h

theorem State.keepsRas_of_keepsWaiting {s t : State} (h : s.keepsWaiting t) : s.keepsRas t := by
  obtain ⟨⟨q, o, rfl⟩, hw⟩ := h
  exact ⟨rfl, fun q hq => (hw q).trans hq⟩

theorem State.keepsRas_emit (src cls code ten sev : Nat) (words : List Nat) (s : State) :
    s.keepsRas (s.emit src cls code ten sev words) := by
  obtain ⟨st, l, h⟩ := State.onlyEvents_emit src cls code ten sev words s
  rw [h]
  exact State.keepsRas_of_eq rfl rfl

theorem State.keepsRas_sendMsg (dst : Nat) (m : LMsg) (s : State) : s.keepsRas (s.sendMsg dst m) := by
  obtain ⟨l, o, h⟩ := State.onlySends_sendMsg dst m s
  rw [h]
  exact State.keepsRas_of_eq rfl rfl

theorem State.keepsRas_modRoom (m : Nat) (f : RoomRt → RoomRt) (s : State) : s.keepsRas (s.modRoom m f) := State.keepsRas_of_eq rfl rfl

/-! ### Clocks of rooms (R299, R300) -/

theorem State.keepsRas_timingBreak (m cause : Nat) (s : State) : s.keepsRas (s.timingBreak m cause) := by
  unfold State.timingBreak
  split
  · exact State.keepsRas_trans (State.keepsRas_trans (State.keepsRas_modRoom m _ s) (State.keepsRas_emit ..))
      (State.keepsRas_foldl (fun s r => State.keepsRas_of_keepsWaiting (State.keepsWaiting_postRec r _ s)) _ _)
  · exact s.keepsRas_refl

theorem State.keepsRas_clockChanged (src : Nat) (fresh : Option Nat) (s : State) : s.keepsRas (s.clockChanged src fresh) := by
  refine State.keepsRas_foldl (fun s m => ?_) _ s
  dsimp only
  split
  · exact State.keepsRas_trans (State.keepsRas_modRoom m _ s) (State.keepsRas_timingBreak ..)
  · exact State.keepsRas_modRoom m _ s

theorem State.keepsRas_syncCeilAt (fresh : Option Nat) (s : State) : s.keepsRas (s.syncCeilAt fresh) := by
  refine State.keepsRas_foldl (fun s src => ?_) _ s
  dsimp only
  split
  · exact s.keepsRas_refl
  · exact State.keepsRas_trans (t := s.retuneTo src (s.ceilNow src)) (State.keepsRas_of_eq rfl rfl) (State.keepsRas_clockChanged ..)

theorem State.keepsRas_returnTimed (m : Nat) (s : State) : s.keepsRas (s.returnTimed m) := by
  unfold State.returnTimed
  split
  · exact s.keepsRas_refl
  · split
    · exact State.keepsRas_modRoom ..
    · split <;> exact State.keepsRas_modRoom ..

theorem State.keepsRas_afterTask (m : Nat) (s : State) : s.keepsRas (s.afterTask m) := by
  have hsettle : s.keepsRas (s.settleTimed m) := by
    unfold State.settleTimed
    split
    · exact State.keepsRas_returnTimed m s
    · exact s.keepsRas_refl
  exact State.keepsRas_trans hsettle (State.keepsRas_syncCeilAt ..)

/-! ### Start messages that waited (R380) -/

theorem State.onlyIsls_trans {s t u : State} (h : s.onlyIsls t) (g : t.onlyIsls u) : s.onlyIsls u := by
  unfold State.onlyIsls at h g ⊢
  exact (congrArg (fun x : State => { x with isl := s.isl }) g :).trans h

theorem State.onlyIsls_modIsl (n : Nat) (f : Isl → Isl) (s : State) : s.onlyIsls (s.modIsl n f) := rfl

theorem State.keepsRas_of_onlyIsls {s t : State} (h : s.onlyIsls t) : s.keepsRas t := by
  unfold State.onlyIsls at h
  exact State.keepsRas_of_eq (congrArg State.ras h :) (congrArg (fun x : State => x.qm.queues) h :)

theorem State.onlyIsls_takeSlots (tid m first : Nat) (e : PEntry) (d : Bytes) (s : State) : s.onlyIsls (s.takeSlots tid m first e d).1 := by
  unfold State.takeSlots
  split
  · exact rfl
  · rename_i r hr
    dsimp only
    have hfold : ∀ f : State × List (Nat × Nat) → Nat × Nat × SegInfo → State × List (Nat × Nat),
        (∀ (x : State × List (Nat × Nat)) y, x.1.onlyIsls (f x y).1) → s.onlyIsls ((e.segOn first r.isls).foldl f (s, [])).1 := fun f hf =>
      List.foldlRecOn (motive := fun x : State × List (Nat × Nat) => s.onlyIsls x.1) _ f rfl
        (fun x hx y _ => State.onlyIsls_trans hx (hf x y))
    split
    · exact State.onlyIsls_trans (hfold _ (fun x y => by split <;> rfl)) (State.onlyIsls_modIsl ..)
    · exact hfold _ (fun x y => by split <;> rfl)

theorem State.keepsRas_spanBegin (m chip : Nat) (x : SpanStartMsg) (s : State) : s.keepsRas (s.spanBegin m chip x) := by
  unfold State.spanBegin
  split
  · exact State.keepsRas_sendMsg ..
  · rename_i w i g hg
    exact State.keepsRas_trans (State.keepsRas_of_onlyIsls (State.onlyIsls_takeSlots s.tasks.next m g.first g x.desc s))
      (State.keepsRas_of_eq rfl rfl)

theorem State.keepsRas_spanServe (m n : Nat) (s : State) : s.keepsRas (State.spanServe m n s) := by
  induction n generalizing s with
  | zero => exact s.keepsRas_refl
  | succ n ih =>
    unfold State.spanServe
    split
    · exact s.keepsRas_refl
    · rename_i chip x rest hw
      exact iteInduction (motive := s.keepsRas)
        (fun _ => State.keepsRas_trans (State.keepsRas_trans (t := s.modSpan m (fun r => { r with waits := rest }))
          (State.keepsRas_of_eq rfl rfl) (State.keepsRas_spanBegin ..)) (ih _))
        (fun _ => s.keepsRas_refl)

theorem State.keepsRas_spanResume (s : State) (m : Nat) : s.keepsRas (s.spanResume m) := by
  unfold State.spanResume
  split
  · exact s.keepsRas_refl
  · exact State.keepsRas_trans (State.keepsRas_spanServe ..) (State.keepsRas_afterTask ..)

/-! ### The end of a clearing (R69, R104) -/

theorem State.keepsRas_flushRoom (m : Nat) (s : State) : s.keepsRas (s.flushRoom m) := by
  refine State.keepsRas_foldl (fun s q => ?_) _ s
  obtain ⟨⟨qm, o, he⟩, hw⟩ := State.endWaiting_waiting q (fun _ => true) s
  refine ⟨by rw [he], fun j hj => (hw j).trans ?_⟩
  rw [hj]
  split <;> rfl

theorem State.keepsRas_clearIsl (s : State) (n : Nat) : s.keepsRas (s.clearIsl n) := State.keepsRas_of_eq rfl rfl

theorem State.keepsRas_roomWiped (m : Nat) (s : State) : s.keepsRas (s.roomWiped m) := by
  have hisls : s.keepsRas ((s.roomIsls m).foldl State.clearIsl s) :=
    State.keepsRas_foldl State.keepsRas_clearIsl _ s
  have hlanes : ∀ u : State, u.keepsRas (u.freeLanes m) := fun u => by
    obtain ⟨i, r, h⟩ := State.onlyStreams_foldl (fun s k => State.onlyStreams_freePassage k s) (u.living.roomPassages m)
      (u.modRoom m (fun r => { r with stalled := [] }))
    unfold State.freeLanes
    rw [h]
    exact State.keepsRas_of_eq rfl rfl
  unfold State.roomWiped
  exact State.keepsRas_trans (State.keepsRas_trans (State.keepsRas_trans (State.keepsRas_trans hisls (hlanes _))
    (State.keepsRas_of_eq rfl rfl)) (State.keepsRas_modRoom m (fun r => { r with resets := sat1 16 r.resets }) _)) (State.keepsRas_returnTimed ..)

theorem State.keepsRas_setFault (k bit : Nat) (s : State) : s.keepsRas (s.setFault k bit) := State.keepsRas_of_eq rfl rfl

theorem State.keepsRas_mergedReset (m : Nat) (s : State) : s.keepsRas (s.mergedReset m) := by
  unfold State.mergedReset
  split
  · have hwiped : s.keepsRas ((s.modRoom m (fun r => { r with merged := false, flush := false })).roomWiped m) :=
      State.keepsRas_trans (State.keepsRas_modRoom m (fun r => { r with merged := false, flush := false }) s) (State.keepsRas_roomWiped ..)
    have hflushed := iteInduction (c := (s.room m).flush = true) (motive := s.keepsRas)
      (fun _ => State.keepsRas_trans hwiped (State.keepsRas_flushRoom m _)) (fun _ => hwiped)
    exact State.keepsRas_trans (State.keepsRas_trans hflushed (State.keepsRas_setFault (s.roomTenant m) 5 _)) (State.keepsRas_emit ..)
  · exact s.keepsRas_refl

theorem State.keepsRas_clearingEnds (m : Nat) (s : State) : s.keepsRas (s.clearingEnds m) := by
  unfold State.clearingEnds
  split
  · exact s.keepsRas_refl
  · exact State.keepsRas_trans (State.keepsRas_trans (State.keepsRas_mergedReset m s)
      (State.keepsRas_modRoom m (fun r => { r with st := (s.mergedReset m).freeState m }) _)) (State.keepsRas_spanResume ..)

end Sys2Proof.Machine
end

section
/-! PROOFS. Suspicion, draining, margin steps and tests of units (R386–R404). -/

namespace Sys2Proof.Machine

open Sys2Proof

/-! ### The bound (R386) -/

/-- A check of the bound leaves it as it is now, with its event. -/
theorem State.checkBound_eq (s : State) :
    ∃ st l, s.checkBound = { s with ras := { s.ras with bound := s.boundNow }, clk := { s.clk with stamps := st }, ledg := l } := by
  unfold State.checkBound
  split
  · rename_i h
    rw [beq_iff_eq.mp h]
    exact ⟨s.clk.stamps, s.ledg, rfl⟩
  · rename_i h
    have hb : s.boundNow = !s.ras.bound := by
      cases hn : s.boundNow <;> cases hr : s.ras.bound <;> simp [hn, hr] at h ⊢
    obtain ⟨st, l, he⟩ := State.onlyEvents_emit 0 8 5 noTenant 1 [0] (s.modRas (fun r => { r with bound := !r.bound }))
    exact ⟨st, l, by rw [he, hb]; rfl⟩

/-! ### Draining (R403) -/

/-- A queue that holds nothing any more. -/
def State.emptied (q : Nat) (s : State) : State := s.modQueue q (fun r => { r with waiting := [] })

theorem State.emptied_waiting (q j : Nat) (s : State) :
    ((s.emptied q).queue j).waiting = if q = j then [] else (s.queue j).waiting := by
  unfold State.emptied
  rw [State.queue_modQueue]
  split <;> rfl

theorem State.keepsRas_emptied (q : Nat) (s : State) : s.keepsRas (s.emptied q) := by
  refine ⟨rfl, fun j hj => ?_⟩
  rw [State.emptied_waiting, hj]
  split <;> rfl

/-- The descriptors that wait in one queue complete. -/
def State.drainQueue (s : State) (e : Nat × Queue) : State :=
  e.2.waiting.foldl (fun s d => s.postRec ((s.queueRing e.1).getD 0) (s.descRec e.1 d.raw 0x7F 0xD0 0)) (s.emptied e.1)

theorem State.drainQueue_empties (s : State) (e : Nat × Queue) :
    s.keepsRas (s.drainQueue e) ∧ ((s.drainQueue e).queue e.1).waiting = [] := by
  have hpost : (s.emptied e.1).keepsRas (s.drainQueue e) := State.keepsRas_foldl (fun s (d : QEntry) =>
    State.keepsRas_of_keepsWaiting (State.keepsWaiting_postRec ((s.queueRing e.1).getD 0) (s.descRec e.1 d.raw 0x7F 0xD0 0) s)) _ _
  exact ⟨State.keepsRas_trans (State.keepsRas_emptied e.1 s) hpost, hpost.2 e.1 ((State.emptied_waiting ..).trans (if_pos rfl))⟩

theorem State.drainQueues_waiting (l : NMap Queue) (s : State) {q : Nat} (h : q ∈ l.map (·.1) ∨ (s.queue q).waiting = []) :
    ((l.foldl State.drainQueue s).queue q).waiting = [] := by
  have hkeep : ∀ (l : NMap Queue) (s : State), s.keepsRas (l.foldl State.drainQueue s) :=
    State.keepsRas_foldl (fun s e => (State.drainQueue_empties s e).1)
  induction l generalizing s with
  | nil => exact h.resolve_left List.not_mem_nil
  | cons e l ih =>
    obtain ⟨hone, hempty⟩ := State.drainQueue_empties s e
    rcases h with h | h
    · rcases List.mem_cons.mp h with rfl | h
      · exact (hkeep l _).2 _ hempty
      · exact ih _ (.inl h)
    · exact ih _ (.inr (hone.2 q h))

/-- Every waiting descriptor is gone once the queues are drained. -/
theorem State.drainQueues_empty (s : State) : s.drainQueues.ras = s.ras ∧ ∀ q, (s.drainQueues.queue q).waiting = [] := by
  refine ⟨(State.keepsRas_foldl (fun s e => (State.drainQueue_empties s e).1) s.qm.queues s).1, fun q =>
    State.drainQueues_waiting s.qm.queues s ?_⟩
  cases hf : NMap.find? s.qm.queues q with
  | some v => exact .inl (List.mem_map.mpr ⟨(q, v), NMap.mem_of_find? hf, rfl⟩)
  | none =>
    refine .inr ?_
    unfold State.queue NMap.getD
    rw [hf]; rfl

/-- RAS_STATUS of a device that begins to drain. -/
def State.draining (s : State) : State := s.modRas (fun r => { r with drain := 1, drainAt := s.view 0, stopped := 0 })

theorem State.startDrain_eq {s : State} (h : s.ras.drain = 0) (u : Nat) :
    s.startDrain u = (s.draining.emit 0 8 6 noTenant 4 [u]).drainQueues.checkBound :=
  if_neg (by simp [h])

/-- The device begins to drain: no queue holds a waiting descriptor. -/
theorem State.startDrain_drains {s : State} (h : s.ras.drain = 0) (u : Nat) :
    (∃ b, (s.startDrain u).ras = { s.ras with drain := 1, drainAt := s.view 0, stopped := 0, bound := b })
      ∧ ∀ q, ((s.startDrain u).queue q).waiting = [] := by
  obtain ⟨hras, hq⟩ := (s.draining.emit 0 8 6 noTenant 4 [u]).drainQueues_empty
  have hemit := (State.keepsRas_emit 0 8 6 noTenant 4 [u] s.draining).1
  rw [State.startDrain_eq h]
  generalize (s.draining.emit 0 8 6 noTenant 4 [u]).drainQueues = v at hras hq
  obtain ⟨st, l, hb⟩ := v.checkBound_eq
  rw [hb]
  exact ⟨⟨v.boundNow, congrArg (fun r : Ras => { r with bound := v.boundNow }) (hras.trans hemit)⟩, hq⟩

theorem State.startDrain_again {s : State} (h : s.ras.drain ≠ 0) (u : Nat) : s.startDrain u = s := if_pos (by simp [h])

/-! ### Margin steps (R400, R401) -/

/-- Of the RAS unit, only the units and what a drain is may differ. -/
def State.keepsAudits (s t : State) : Prop :=
  ∃ us d g n l b, t.ras = { s.ras with units := us, drain := d, drainAt := g, stopped := n, toRetire := l, bound := b }

theorem State.unit_modUnit_self (u : Nat) (f : UnitRt → UnitRt) (s : State) : (s.modUnit u f).unit u = f (s.unit u) := by
  rw [State.unit_modUnit, if_pos rfl]

/-- The unit is FAILED and waits for its entry. -/
def State.failing (u : Nat) (s : State) : State :=
  (s.modUnit u (fun x => { x with health := .failed })).modRas (fun r => { r with toRetire := r.toRetire ++ [(u, s.view 0)] })

theorem State.failing_unit (u : Nat) (s : State) : (s.failing u).unit u = { s.unit u with health := .failed } :=
  State.unit_modUnit_self u (fun x => { x with health := .failed }) s

theorem State.failUnit_eq (u : Nat) (s : State) : s.failUnit u = (s.failing u).startDrain u := rfl

/-- A unit that fails waits for its entry, and the device drains unless it does already. -/
theorem State.failUnit_fails (u : Nat) (s : State) :
    (s.failUnit u).unit u = { s.unit u with health := .failed } ∧ (s.failUnit u).ras.toRetire = s.ras.toRetire ++ [(u, s.view 0)]
      ∧ (s.ras.drain = 0 → (s.failUnit u).ras.drain = 1 ∧ (s.failUnit u).ras.drainAt = s.view 0 ∧ (s.failUnit u).ras.stopped = 0
          ∧ ∀ q, ((s.failUnit u).queue q).waiting = [])
      ∧ s.keepsAudits (s.failUnit u) := by
  rw [State.failUnit_eq]
  by_cases hd : s.ras.drain = 0
  · obtain ⟨⟨b, hr⟩, hq⟩ := State.startDrain_drains (s := s.failing u) hd u
    have hunit : ((s.failing u).startDrain u).unit u = (s.failing u).unit u :=
      (congrArg (fun r : Ras => NMap.getD r.units u .reset) hr :)
    refine ⟨hunit.trans (s.failing_unit u), (congrArg Ras.toRetire hr :), fun _ => ⟨?_, ?_, ?_, hq⟩, _, _, _, _, _, _, hr⟩
    · exact (congrArg Ras.drain hr :)
    · exact (congrArg Ras.drainAt hr :)
    · exact (congrArg Ras.stopped hr :)
  · rw [State.startDrain_again (s := s.failing u) hd]
    exact ⟨s.failing_unit u, rfl, fun h => absurd h hd, _, _, _, _, _, _, rfl⟩

theorem State.atLimit_iff (s : State) (u : Nat) :
    s.atLimit u = true ↔ (s.marginRule u).2 ≤ (s.unit u).vstep + (s.unit u).cstep
      ∨ 4 ≤ (if (s.marginRule u).1 then (s.unit u).cstep else (s.unit u).vstep) := by
  unfold State.atLimit
  simp

/-- The unit with the step of its room's kind. -/
def State.stepped (u : Nat) (s : State) : State :=
  s.modUnit u (fun x => if (s.marginRule u).1 then { x with cstep := x.cstep + 1 } else { x with vstep := x.vstep + 1 })

theorem State.stepped_unit (u : Nat) (s : State) :
    (s.stepped u).unit u = if (s.marginRule u).1 then { s.unit u with cstep := (s.unit u).cstep + 1 }
      else { s.unit u with vstep := (s.unit u).vstep + 1 } :=
  State.unit_modUnit_self u (fun x => if (s.marginRule u).1 then { x with cstep := x.cstep + 1 } else { x with vstep := x.vstep + 1 }) s

theorem State.marginStep_takes (u : Nat) (s : State) :
    s.marginTaken u (s.unit u) (s.marginStep u) ∧ s.keepsAudits (s.marginStep u) := by
  unfold State.marginTaken
  simp only [← State.atLimit_iff]
  by_cases hl : s.atLimit u = true
  · obtain ⟨hunit, hretire, hdrain, hkeep⟩ := s.failUnit_fails u
    rw [show s.marginStep u = s.failUnit u from if_pos hl]
    exact ⟨⟨fun _ => ⟨hunit, hretire, hdrain⟩, fun h => absurd hl h⟩, hkeep⟩
  · have hras : (s.marginStep u).ras = (s.stepped u).ras := by
      rw [show s.marginStep u = ((s.stepped u).emit 0 8 3 noTenant 2 [u]).syncCeil from if_neg hl]
      exact (State.keepsRas_syncCeilAt none _).1.trans (State.keepsRas_emit ..).1
    refine ⟨⟨fun h => absurd h hl, fun _ => ⟨?_, ?_, ?_⟩⟩, _, _, _, _, _, _, hras⟩
    · exact (congrArg (fun r : Ras => NMap.getD r.units u .reset) hras :).trans (s.stepped_unit u)
    · exact (congrArg Ras.drain hras :)
    · exact (congrArg Ras.toRetire hras :)

/-- A margin step after which the RAS unit keeps its units and its drain is one still. -/
theorem State.marginTaken_after {s t t' : State} {u : Nat} {x : UnitRt} (h : s.marginTaken u x t)
    (hr : ∃ a, t'.ras = { t.ras with roomAudits := a }) (hq : ∀ q, (t.queue q).waiting = [] → (t'.queue q).waiting = []) :
    s.marginTaken u x t' := by
  obtain ⟨a, hr⟩ := hr
  obtain ⟨h1, h2⟩ := h
  have hunit : t'.unit u = t.unit u := (congrArg (fun r : Ras => NMap.getD r.units u .reset) hr :)
  have hretire : t'.ras.toRetire = t.ras.toRetire := (congrArg Ras.toRetire hr :)
  have hdrain : t'.ras.drain = t.ras.drain := (congrArg Ras.drain hr :)
  have hat : t'.ras.drainAt = t.ras.drainAt := (congrArg Ras.drainAt hr :)
  have hstop : t'.ras.stopped = t.ras.stopped := (congrArg Ras.stopped hr :)
  unfold State.marginTaken
  rw [hunit, hretire, hdrain, hat, hstop]
  refine ⟨fun hl => ?_, h2⟩
  obtain ⟨g1, g2, g3⟩ := h1 hl
  refine ⟨g1, g2, fun hd => ?_⟩
  obtain ⟨d1, d2, d3, d4⟩ := g3 hd
  exact ⟨d1, d2, d3, fun q => hq q (d4 q)⟩

/-! ### Suspicion (R388, R398) -/

theorem State.withholdOn_tasks (u : Nat) (s : State) : ∃ tk, s.withholdOn u = { s with tasks := tk } := by
  refine foldl_relates (R := fun s t : State => ∃ tk, t = { s with tasks := tk }) (fun s => ⟨s.tasks, rfl⟩) (fun {s t v} h g => ?_)
    (fun s tid => ?_) (s.tasksOn u) s
  · obtain ⟨tk, rfl⟩ := h
    obtain ⟨tk', rfl⟩ := g
    exact ⟨tk', rfl⟩
  · split
    · split
      · exact ⟨_, rfl⟩
      · exact ⟨s.tasks, rfl⟩
    · exact ⟨s.tasks, rfl⟩

/-- An event of Table 18-4 makes a healthy unit suspect, and leaves any other. -/
theorem State.suspect_eq {u : Nat} (hu : isUnit u = true) (cause : Nat) (s : State) :
    ∃ us tk st l, s.suspect u cause
        = { s with ras := { s.ras with units := us }, tasks := tk, clk := { s.clk with stamps := st }, ledg := l }
      ∧ NMap.getD us u .reset = (s.unit u).suspected cause (s.view 0) := by
  unfold State.suspect
  by_cases hh : (s.unit u).health = .healthy
  · rw [if_pos (by simp [hu, hh])]
    dsimp only
    generalize hv : s.modUnit u (fun x =>
      { x with health := .suspect, cause := cause, firstCause := if x.firstCause = 0 then cause else x.firstCause
               suspicions := sat1 16 x.suspicions, since := s.view 0 }) = v
    obtain ⟨tk, ht⟩ := v.withholdOn_tasks u
    obtain ⟨st, l, he⟩ := State.onlyEvents_emit 0 8 2 noTenant 2 [u] { v with tasks := tk }
    rw [ht, he]
    subst hv
    refine ⟨_, tk, st, l, rfl, (NMap.getD_upd ..).trans ((if_pos rfl).trans ?_)⟩
    exact (if_pos hh).symm
  · rw [if_neg (by simp [hh])]
    exact ⟨s.ras.units, s.tasks, s.clk.stamps, s.ledg, rfl, (if_neg hh).symm⟩

end Sys2Proof.Machine
end

section
/-! PROOFS. Sweep, Audit tests, verification and the end of a drain (R389–R405). -/

namespace Sys2Proof.Machine

open Sys2Proof

/-! ### A unit made ready for a test (R389) -/

/-- A unit awake, with the crates of a T-island saved and emptied. -/
def State.readied (u : Nat) (s : State) : State := (s.wake u).clearForTest u

theorem State.onlyIsl_trans {n : Nat} {s t u : State} (h : s.onlyIsl n t) (g : t.onlyIsl n u) : s.onlyIsl n u :=
  ⟨State.onlyIsls_trans h.1 g.1, fun m hm => (g.2 m hm).trans (h.2 m hm)⟩

theorem State.onlyIsl_modIsl (n : Nat) (f : Isl → Isl) (s : State) : s.onlyIsl n (s.modIsl n f) :=
  ⟨rfl, fun m hm => by rw [State.island_modIsl, if_neg (Ne.symm hm)]⟩

theorem State.onlyIsl_saveCrates (n k : Nat) (s : State) : s.onlyIsl n (s.saveCrates n k) :=
  State.onlyIsl_trans (foldl_relates (R := State.onlyIsl n) (fun _ => ⟨rfl, fun _ _ => rfl⟩) State.onlyIsl_trans
    (fun s _ => State.onlyIsl_modIsl n _ s) (s.slot n k).savePlan s) (State.onlyIsl_modIsl n _ _)

theorem isT_iff {u : Nat} : isT u = true ↔ 0x10 ≤ u ∧ u < 0x50 := by simp [isT]

theorem State.clearForTest_island (u : Nat) (s : State) :
    s.onlyIsls (s.clearForTest u) ∧ (∀ n, u = 0x10 + n → n < 64 → ((s.clearForTest u).island n).crates = [])
      ∧ ∀ n, u ≠ 0x10 + n → (s.clearForTest u).island n = s.island n := by
  unfold State.clearForTest
  by_cases hu : isT u = true
  · rw [if_pos hu]
    obtain ⟨hlo, hhi⟩ := isT_iff.mp hu
    have hsaved : s.onlyIsl (u - 0x10) (if s.holdsCrates (u - 0x10) (s.island (u - 0x10)).owner
        then s.saveCrates (u - 0x10) (s.island (u - 0x10)).owner else s) := by
      split
      · exact State.onlyIsl_saveCrates ..
      · exact ⟨rfl, fun _ _ => rfl⟩
    obtain ⟨honly, hothers⟩ := State.onlyIsl_trans hsaved (State.onlyIsl_modIsl (u - 0x10) (fun i => { i with crates := [] }) _)
    refine ⟨honly, fun n hn _ => ?_, fun n hn => hothers n (by omega)⟩
    dsimp only
    rw [State.island_modIsl, if_pos (by omega)]
  · rw [if_neg hu]
    refine ⟨rfl, fun n hn hlt => absurd (isT_iff.mpr (by omega)) hu, fun _ _ => rfl⟩

theorem State.readied_spec (u : Nat) (s : State) :
    (∃ i, s.readied u = { s with isl := i, plat := { s.plat with gated := s.plat.gated.filter (· != u) } })
      ∧ u ∉ (s.readied u).plat.gated ∧ (∀ n, u = 0x10 + n → n < 64 → ((s.readied u).island n).crates = [])
      ∧ ∀ n, u ≠ 0x10 + n → (s.readied u).island n = s.island n := by
  obtain ⟨honly, hcrates, hothers⟩ := (s.wake u).clearForTest_island u
  have he : s.readied u = { s.wake u with isl := (s.readied u).isl } := by
    unfold State.onlyIsls at honly
    exact (congrArg (fun x : State => { x with isl := (s.readied u).isl }) honly :)
  refine ⟨⟨_, he⟩, ?_, hcrates, hothers⟩
  rw [he]
  exact fun h => by simpa using (List.mem_filter.mp h).2

/-! ### Sweep (R389–R394) -/

/-- Sweep at a unit whose slot begins. -/
def Ras.atUnit (u now : Nat) (r : Ras) : Ras :=
  { r with sweepUnit := u, sweepStep := 0, sweepBusy := false, sweepForced := false, slotStart := now }

/-- A round of Sweep ends. -/
def Ras.roundEnds (r : Ras) : Ras :=
  { r with rounds := wrap1 16 r.rounds, missed := r.missed && r.roundMiss, roundMiss := false }

theorem State.sweepNext_more {s : State} {v : Nat} (h : s.liveUnits.find? (fun v => decide (s.ras.sweepUnit < v)) = some v) :
    s.sweepNext = s.modRas (Ras.atUnit v s.clk.gtc) := by
  unfold State.sweepNext
  dsimp only
  rw [h]
  rfl

theorem State.sweepNext_round {s : State} (h : s.liveUnits.find? (fun v => decide (s.ras.sweepUnit < v)) = none) :
    s.sweepNext = (s.modRas (fun r => (r.atUnit (s.liveUnits.headD 0x10) s.clk.gtc).roundEnds)).checkBound := by
  unfold State.sweepNext
  dsimp only
  rw [h]
  rfl

/-- Sweep has moved to the next unit, or a round has ended. -/
def State.sweepMoves (s t : State) : Prop :=
  t.ras.sweepBusy = false ∧ t.ras.sweepForced = false ∧ t.ras.sweepStep = 0
    ∧ match s.liveUnits.find? (fun v => decide (s.ras.sweepUnit < v)) with
      | some v => t.ras.sweepUnit = v ∧ t.ras.rounds = s.ras.rounds
      | none => t.ras.sweepUnit = s.liveUnits.headD 0x10 ∧ t.ras.rounds = wrap1 16 s.ras.rounds ∧ t.ras.roundMiss = false

theorem State.sweepNext_moves (s : State) :
    s.sweepMoves s.sweepNext ∧ s.sweepNext.ras.units = s.ras.units ∧ s.sweepNext.ras.steps = s.ras.steps
      ∧ s.sweepNext.ras.misses = s.ras.misses ∧ { s.sweepNext with ras := s.ras, ledg := s.ledg, clk := s.clk } = s := by
  unfold State.sweepMoves
  cases h : s.liveUnits.find? (fun v => decide (s.ras.sweepUnit < v)) with
  | some v =>
    rw [State.sweepNext_more h]
    exact ⟨⟨rfl, rfl, rfl, rfl, rfl⟩, rfl, rfl, rfl, rfl⟩
  | none =>
    obtain ⟨st, l, he⟩ := State.checkBound_eq (s.modRas (fun r => (r.atUnit (s.liveUnits.headD 0x10) s.clk.gtc).roundEnds))
    rw [State.sweepNext_round h, he]
    exact ⟨⟨rfl, rfl, rfl, rfl, rfl, rfl⟩, rfl, rfl, rfl, rfl⟩

/-- A miss of this round keeps the bound broken (R386, R394). -/
theorem State.boundNow_missed {s : State} (h : s.ras.missed = true) : s.boundNow = false := by
  have hc : s.boundCond ≠ 0 := by
    unfold State.boundCond
    simp [h, b2n]
  simp [State.boundNow, hc]

theorem State.sweepNext_missed {s : State} (hm : s.ras.missed = true) (hr : s.ras.roundMiss = true) (hb : s.ras.bound = false) :
    s.sweepNext.ras.missed = true ∧ s.sweepNext.ras.bound = false := by
  cases h : s.liveUnits.find? (fun v => decide (s.ras.sweepUnit < v)) with
  | some v =>
    rw [State.sweepNext_more h]
    exact ⟨hm, hb⟩
  | none =>
    have hmiss : (s.modRas (fun r => (r.atUnit (s.liveUnits.headD 0x10) s.clk.gtc).roundEnds)).ras.missed = true := by
      show (s.ras.missed && s.ras.roundMiss) = true
      rw [hm, hr]; rfl
    obtain ⟨st, l, he⟩ := State.checkBound_eq (s.modRas (fun r => (r.atUnit (s.liveUnits.headD 0x10) s.clk.gtc).roundEnds))
    rw [State.sweepNext_round h, he]
    exact ⟨hmiss, State.boundNow_missed hmiss⟩

theorem State.liveUnits_of_health {s v : State} (h : ∀ w, (v.unit w).health = (s.unit w).health) : v.liveUnits = s.liveUnits := by
  unfold State.liveUnits
  simp only [h]

theorem State.sweepMoves_of_eq {s v t : State} (hl : v.liveUnits = s.liveUnits) (hu : v.ras.sweepUnit = s.ras.sweepUnit)
    (hr : v.ras.rounds = s.ras.rounds) (h : v.sweepMoves t) : s.sweepMoves t := by
  unfold State.sweepMoves at h ⊢
  rw [hl, hu, hr] at h
  exact h

/-- A step of a pass is over, and counts. -/
def State.stepOver (s : State) : State := s.modRas (fun r => { r with sweepBusy := false, steps := wrap1 32 r.steps })

/-- A unit with one more failed step. -/
def UnitRt.failedStep (no : Nat) (x : UnitRt) : UnitRt := { x with fails := sat1 16 x.fails, lastFail := no }

/-- A unit with the time of its last pass. -/
def UnitRt.passed (now : Nat) (x : UnitRt) : UnitRt := { x with lastPass := now }

section
variable {s : State} (hb : s.ras.sweepBusy = true)
include hb

theorem State.sweepDone_counts (h : s.ras.sweepStep + 1 < passLen s.ras.sweepUnit) :
    s.sweepDone true = s.stepOver.modRas (fun r => { r with sweepStep := s.ras.sweepStep + 1 }) := by
  unfold State.sweepDone
  simp only [hb, Bool.not_true, Bool.false_eq_true, if_false, if_true, if_pos h]
  rfl

theorem State.sweepDone_last (h : passLen s.ras.sweepUnit ≤ s.ras.sweepStep + 1) :
    s.sweepDone true = (s.stepOver.modUnit s.ras.sweepUnit (UnitRt.passed (s.view 0))).sweepNext := by
  unfold State.sweepDone
  simp only [hb, Bool.not_true, Bool.false_eq_true, if_false, if_true, if_neg (Nat.not_lt.mpr h)]
  rfl

theorem State.sweepDone_failed :
    s.sweepDone false
      = (s.stepOver.modUnit s.ras.sweepUnit (UnitRt.failedStep (testNo s.ras.sweepUnit s.ras.sweepStep))).suspect s.ras.sweepUnit 2 := by
  unfold State.sweepDone
  simp only [hb, Bool.not_true, Bool.false_eq_true, if_false]
  rfl

/-- A step that fails counts on its unit and makes it suspect (R388, R389). -/
theorem State.sweepDone_fails (hu : isUnit s.ras.sweepUnit = true) :
    (s.sweepDone false).ras.sweepBusy = false ∧ (s.sweepDone false).ras.steps = wrap1 32 s.ras.steps
      ∧ (s.sweepDone false).unit s.ras.sweepUnit
          = ((s.unit s.ras.sweepUnit).failedStep (testNo s.ras.sweepUnit s.ras.sweepStep)).suspected 2 (s.view 0)
      ∧ { s.sweepDone false with ras := s.ras, tasks := s.tasks, ledg := s.ledg, clk := s.clk } = s := by
  obtain ⟨us, tk, st, l, hs, hunit⟩ := State.suspect_eq hu 2
    (s.stepOver.modUnit s.ras.sweepUnit (UnitRt.failedStep (testNo s.ras.sweepUnit s.ras.sweepStep)))
  rw [State.unit_modUnit_self] at hunit
  rw [State.sweepDone_failed hb, hs]
  exact ⟨rfl, rfl, hunit, rfl⟩

/-- The last step that passes leaves the time of the pass, and Sweep moves on. -/
theorem State.sweepDone_passes (h : passLen s.ras.sweepUnit ≤ s.ras.sweepStep + 1) :
    s.sweepMoves (s.sweepDone true) ∧ (s.sweepDone true).ras.steps = wrap1 32 s.ras.steps
      ∧ (s.sweepDone true).unit s.ras.sweepUnit = (s.unit s.ras.sweepUnit).passed (s.view 0)
      ∧ { s.sweepDone true with ras := s.ras, ledg := s.ledg, clk := s.clk } = s := by
  have hhealth : ∀ w, ((s.stepOver.modUnit s.ras.sweepUnit (UnitRt.passed (s.view 0))).unit w).health = (s.unit w).health := fun w => by
    rw [State.unit_modUnit]
    split
    · rename_i hw; subst hw; rfl
    · rfl
  obtain ⟨hmoves, hunits, hsteps, -, honly⟩ := (s.stepOver.modUnit s.ras.sweepUnit (UnitRt.passed (s.view 0))).sweepNext_moves
  rw [State.sweepDone_last hb h]
  refine ⟨State.sweepMoves_of_eq (State.liveUnits_of_health hhealth) rfl rfl hmoves, hsteps, ?_,
    (congrArg (fun x : State => { x with ras := s.ras }) honly :)⟩
  refine (congrArg (fun us : NMap UnitRt => NMap.getD us s.ras.sweepUnit .reset) hunits).trans ?_
  exact State.unit_modUnit_self s.ras.sweepUnit (UnitRt.passed (s.view 0)) s.stepOver

end

theorem State.reach_clk (g : Nat) (s : State) : ∃ c, s.reach g = { s with clk := c } := by
  unfold State.reach
  split
  · exact ⟨_, rfl⟩
  · exact ⟨s.clk, rfl⟩

/-- A coverage miss. -/
def Ras.missing (r : Ras) : Ras := { r with misses := sat1 16 r.misses, roundMiss := true, missed := true }

/-- A slot that ends unfinished is a miss, which breaks the bound, before Sweep moves on. -/
theorem State.slotEnd_eq {s : State} (hr : s.sweepRuns = true) :
    ∃ c l, s.slotEnd = State.sweepNext { s with clk := c, ledg := l, ras := { s.ras.missing with bound := false } } := by
  obtain ⟨c, hc⟩ := State.reach_clk (s.ras.slotStart + s.slotNs) s
  obtain ⟨st, l, he⟩ := State.onlyEvents_emit 0 8 4 noTenant 2 [s.ras.sweepUnit] { s with clk := c, ras := s.ras.missing }
  obtain ⟨st', l', hb⟩ := State.checkBound_eq { s with clk := { c with stamps := st }, ledg := l, ras := s.ras.missing }
  rw [State.boundNow_missed (s := { s with clk := { c with stamps := st }, ledg := l, ras := s.ras.missing }) rfl] at hb
  refine ⟨_, l', (if_pos hr).trans (congrArg State.sweepNext (Eq.trans ?_ hb))⟩
  rw [hc]
  exact congrArg State.checkBound he

theorem State.slotEnd_misses {s : State} (hr : s.sweepRuns = true) :
    s.sweepMoves s.slotEnd ∧ s.slotEnd.ras.misses = sat1 16 s.ras.misses ∧ s.slotEnd.ras.missed = true ∧ s.slotEnd.ras.bound = false
      ∧ { s.slotEnd with ras := s.ras, ledg := s.ledg, clk := s.clk } = s := by
  obtain ⟨c, l, he⟩ := State.slotEnd_eq hr
  obtain ⟨hmoves, -, -, hmisses, honly⟩ :=
    State.sweepNext_moves { s with clk := c, ledg := l, ras := { s.ras.missing with bound := false } }
  obtain ⟨hmissed, hbound⟩ :=
    State.sweepNext_missed (s := { s with clk := c, ledg := l, ras := { s.ras.missing with bound := false } }) rfl rfl rfl
  rw [he]
  exact ⟨State.sweepMoves_of_eq (v := { s with clk := c, ledg := l, ras := { s.ras.missing with bound := false } }) rfl rfl rfl hmoves,
    hmisses, hmissed, hbound,
    (congrArg (fun x : State => { x with ras := s.ras, ledg := s.ledg, clk := s.clk }) honly :)⟩

/-! ### Test passes (R395–R398) -/

/-- A unit whose verification has failed. -/
def UnitRt.verifyFailed (no : Nat) (x : UnitRt) : UnitRt := { x with health := .verifying, lastFail := no }

/-- A test pass leaves its time. -/
theorem State.auditResult_passes (u : Nat) (s : State) :
    ∃ i, s.auditResult u none = State.modUnit u (UnitRt.passed (s.view 0))
      { s with isl := i, plat := { s.plat with gated := s.plat.gated.filter (· != u) } } := by
  obtain ⟨⟨i, he⟩, -⟩ := s.readied_spec u
  refine ⟨i, ?_⟩
  rw [← he]
  unfold State.auditResult
  have hview : s.view 0 = (s.readied u).view 0 := by rw [he]; rfl
  rw [hview]
  rfl

/-- A unit readied for a test, and suspect by it. -/
theorem State.readied_suspect {u : Nat} (hu : isUnit u = true) (s : State) :
    ∃ us tk st l i p, (s.readied u).suspect u 3
        = { s with isl := i, plat := p, tasks := tk, ledg := l, clk := { s.clk with stamps := st }, ras := { s.ras with units := us } }
      ∧ NMap.getD us u .reset = (s.unit u).suspected 3 (s.view 0) := by
  obtain ⟨⟨i, he⟩, -⟩ := s.readied_spec u
  obtain ⟨us, tk, st, l, hs, hunit⟩ := State.suspect_eq hu 3 (s.readied u)
  rw [he] at hs hunit
  exact ⟨us, tk, st, l, i, _, (congrArg (State.suspect u 3) he).trans hs, hunit⟩

/-- A failed test makes its unit suspect and counts as a failed verification. -/
theorem State.auditResult_fails {u : Nat} (hu : isUnit u = true) (k : Nat) (s : State) :
    s.marginTaken u (((s.unit u).suspected 3 (s.view 0)).verifyFailed (testNo u k)) (s.auditResult u (some k))
      ∧ s.keepsAudits (s.auditResult u (some k)) := by
  obtain ⟨us, tk, st, l, i, p, hs, hunit⟩ := State.readied_suspect hu s
  have hres : s.auditResult u (some k) = State.marginStep u (State.modUnit u (UnitRt.verifyFailed (testNo u k)) ((s.readied u).suspect u 3)) := rfl
  obtain ⟨htaken, us', d, g, n, r, b, hkeep⟩ :=
    State.marginStep_takes u (State.modUnit u (UnitRt.verifyFailed (testNo u k)) ((s.readied u).suspect u 3))
  rw [← hres] at htaken hkeep
  rw [State.unit_modUnit_self, hs] at htaken
  rw [hs] at hkeep
  rw [← hunit]
  exact ⟨htaken, us', d, g, n, r, b, hkeep⟩

theorem State.keepsAudits_auditResult (u : Nat) (f : Option Nat) (hu : isUnit u = true) (s : State) : s.keepsAudits (s.auditResult u f) := by
  cases f with
  | none =>
    obtain ⟨i, he⟩ := s.auditResult_passes u
    rw [he]
    exact ⟨_, _, _, _, _, _, rfl⟩
  | some k => exact (State.auditResult_fails hu k s).2

/-! ### A room's Audit (R396) -/

theorem State.roomAudit_upd (m : Nat) (f : RoomAudit → RoomAudit) (s : State) :
    (s.modRas (fun x => { x with roomAudits := NMap.upd x.roomAudits m .reset f })).roomAudit m = f (s.roomAudit m) := by
  simp [State.roomAudit]

/-- The room's list without the unit tested, and with its failure. -/
def RoomAudit.tested (v : Nat) (rest : List Nat) (f : Option Nat) (a : RoomAudit) : RoomAudit :=
  { a with todo := rest, failed := match f with
      | some k => a.failed ++ [(v, testNo v k)]
      | none => a.failed }

theorem RoomAudit.tested_failed (v : Nat) (rest : List Nat) (f : Option Nat) (a : RoomAudit) :
    (a.tested v rest f).failed = a.failed ++ (f.map (fun k => (v, testNo v k))).toList := by
  cases f <;> simp [RoomAudit.tested]

/-- The unit under test has left the room's list. -/
def State.tested (m v : Nat) (rest : List Nat) (f : Option Nat) (s : State) : State :=
  s.modRas (fun x => { x with roomAudits := NMap.upd x.roomAudits m .reset (RoomAudit.tested v rest f) })

theorem State.tested_roomAudit (m v : Nat) (rest : List Nat) (f : Option Nat) (s : State) :
    (s.tested m v rest f).roomAudit m = (s.roomAudit m).tested v rest f := State.roomAudit_upd ..

/-- The result of a room's Audit and its number. -/
def RoomAudit.ended (a : RoomAudit) : RoomAudit := { a with result := if a.failed.isEmpty then 1 else 2, doneSeq := a.req }

theorem State.endRoomAudit_ends (m : Nat) (s : State) :
    (∃ a, (s.endRoomAudit m).ras = { s.ras with roomAudits := a }) ∧ (s.endRoomAudit m).roomAudit m = (s.roomAudit m).ended
      ∧ ∀ q, (s.queue q).waiting = [] → ((s.endRoomAudit m).queue q).waiting = [] := by
  have hemit := State.keepsRas_emit 0 8 8 (s.roomTenant m) 1 ((s.roomAudit m).failed.flatMap (fun x => [x.1, x.2]))
    (s.modRas (fun x => { x with roomAudits := NMap.upd x.roomAudits m .reset (fun a =>
      { a with result := if (s.roomAudit m).failed.isEmpty then 1 else 2, doneSeq := (s.roomAudit m).req }) }))
  refine ⟨⟨_, hemit.1⟩, ?_, hemit.2⟩
  exact (congrArg (fun r : Ras => NMap.getD r.roomAudits m .reset) hemit.1).trans (State.roomAudit_upd ..)

theorem State.clearingEnds_waits {s : State} {m v : Nat} {rest : List Nat} (ht : (s.roomAudit m).todo = v :: rest) :
    s.clearingEnds m = s :=
  if_pos (by simp [ht])

section
variable {s : State} {m v : Nat} {rest : List Nat} (ht : (s.roomAudit m).todo = v :: rest)
include ht

theorem State.roomTestDone_waits (ha : s.auditable v = false) (f : Option Nat) : s.roomTestDone m f = s := by
  unfold State.roomTestDone
  rw [ht]
  exact if_neg (by simp [ha])

variable (ha : s.auditable v = true)
include ha

theorem State.roomTestDone_eq (f : Option Nat) :
    s.roomTestDone m f = if rest = [] then ((s.tested m v rest f).auditResult v f).endRoomAudit m else (s.tested m v rest f).auditResult v f := by
  unfold State.roomTestDone
  rw [ht]
  dsimp only
  rw [if_pos ha]
  simp only [List.isEmpty_iff]
  rfl

/-- What the tests of a room leave once the result of one is in: the RAS unit as that result left it, but for the Audit
itself. -/
theorem State.roomTestDone_audit (hu : isUnit v = true) (f : Option Nat) :
    (∃ a, (s.roomTestDone m f).ras = { ((s.tested m v rest f).auditResult v f).ras with roomAudits := a })
      ∧ (s.roomTestDone m f).roomAudit m
          = (if rest = [] then ((s.roomAudit m).tested v rest f).ended else (s.roomAudit m).tested v rest f)
      ∧ ∀ q, (((s.tested m v rest f).auditResult v f).queue q).waiting = [] → ((s.roomTestDone m f).queue q).waiting = [] := by
  obtain ⟨us, d, g, n, l, b, hkeep⟩ := State.keepsAudits_auditResult v f hu (s.tested m v rest f)
  have hroom : ((s.tested m v rest f).auditResult v f).roomAudit m = (s.roomAudit m).tested v rest f :=
    (congrArg (fun r : Ras => NMap.getD r.roomAudits m .reset) hkeep).trans (s.tested_roomAudit m v rest f)
  rw [State.roomTestDone_eq ht ha]
  by_cases hr : rest = []
  · obtain ⟨hras, hended, hq⟩ := ((s.tested m v rest f).auditResult v f).endRoomAudit_ends m
    rw [if_pos hr, if_pos hr, hended, hroom]
    exact ⟨hras, rfl, hq⟩
  · rw [if_neg hr, if_neg hr]
    exact ⟨⟨_, rfl⟩, hroom, fun _ h => h⟩

end

/-- The tests of a room, the unit under test having passed or failed. -/
theorem State.roomTestDone_spec {s : State} {m v : Nat} {rest : List Nat} (ht : (s.roomAudit m).todo = v :: rest)
    (ha : s.auditable v = true) (hu : isUnit v = true) (f : Option Nat) :
    let t := (s.roomTestDone m f).clearingEnds m
    t.roomAudit m = (if rest = [] then ((s.roomAudit m).tested v rest f).ended else (s.roomAudit m).tested v rest f)
      ∧ (f = none → t.unit v = (s.unit v).passed (s.view 0))
      ∧ ∀ k, f = some k → s.marginTaken v (((s.unit v).suspected 3 (s.view 0)).verifyFailed (testNo v k)) t := by
  intro t
  obtain ⟨⟨a, hras⟩, hroom, hq⟩ := State.roomTestDone_audit ht ha hu f
  obtain ⟨hkeep, hkeepq⟩ := State.keepsRas_clearingEnds m (s.roomTestDone m f)
  have hras' : t.ras = { ((s.tested m v rest f).auditResult v f).ras with roomAudits := a } := hkeep.trans hras
  refine ⟨(congrArg (fun r : Ras => NMap.getD r.roomAudits m .reset) hkeep).trans hroom, fun hf => ?_, fun k hf => ?_⟩
  · subst hf
    obtain ⟨i, he⟩ := (s.tested m v rest none).auditResult_passes v
    refine (congrArg (fun r : Ras => NMap.getD r.units v .reset) hras').trans ?_
    exact (congrArg (fun x : State => x.unit v) he).trans (State.unit_modUnit_self ..)
  · subst hf
    exact State.marginTaken_after (State.auditResult_fails hu k (s.tested m v rest (some k))).1 ⟨a, hras'⟩
      (fun q h => hkeepq q (hq q h))

end Sys2Proof.Machine
end

section
/-! PROOFS. The end of a drain: running tasks are stopped, and failed units retire (R403, R405). -/

namespace Sys2Proof.Machine

open Sys2Proof

/-! ### Stops touch islands, tasks and engines only -/

/-- Only the islands, the tasks and the shared engines may differ. -/
def State.onlyStops (s t : State) : Prop := ∃ i k e, t = { s with isl := i, tasks := k, eng := e }

theorem State.onlyStops_refl (s : State) : s.onlyStops s := ⟨s.isl, s.tasks, s.eng, rfl⟩

theorem State.onlyStops_trans {s t u : State} (h : s.onlyStops t) (g : t.onlyStops u) : s.onlyStops u := by
  obtain ⟨i, k, e, rfl⟩ := h
  obtain ⟨i', k', e', rfl⟩ := g
  exact ⟨i', k', e', rfl⟩

theorem State.onlyStops_stopSlot (n k : Nat) (s : State) : s.onlyStops (s.stopSlot n k) := by
  unfold State.stopSlot
  dsimp only
  split
  · exact ⟨_, s.tasks, _, rfl⟩
  · exact s.onlyStops_refl

theorem State.onlyStops_stopSlots (l : List (Nat × Nat)) (s : State) :
    s.onlyStops (l.foldl (fun (s : State) (x : Nat × Nat) => s.stopSlot x.1 x.2) s) := by
  refine foldl_relates (R := State.onlyStops) State.onlyStops_refl State.onlyStops_trans (fun s x => ?_) l s
  exact State.onlyStops_stopSlot x.1 x.2 s

theorem State.onlyStops_setStatus (i a b : Nat) (s : State) : s.onlyStops (s.setStatus i a b) :=
  ⟨s.isl, (s.setStatus i a b).tasks, s.eng, rfl⟩

theorem State.onlyStops_stopTask (i a b : Nat) (s : State) : s.onlyStops (s.stopTask i a b) := by
  unfold State.stopTask
  split
  · exact s.onlyStops_refl
  · split
    · split
      · exact s.onlyStops_refl
      · exact State.onlyStops_trans (State.onlyStops_setStatus i a b s) (State.onlyStops_stopSlots ..)
    · exact s.onlyStops_refl

theorem SlotSt.stop_eq_ending (x : SlotSt) : x.stop = .ending ↔ x = .ending := by cases x <;> simp [SlotSt.stop]

/-- A stop leaves which slots are ENDING. -/
theorem State.stopTask_ending_iff (i a b n k : Nat) (s : State) :
    ((s.stopTask i a b).slot n k).st = .ending ↔ (s.slot n k).st = .ending := by
  unfold State.stopTask
  split
  · rfl
  · split
    · split
      · rfl
      · rw [State.stopSlots_st]
        split
        · exact SlotSt.stop_eq_ending _
        · rfl
    · rfl

/-! ### The drain limit (R403) -/

/-- A task that the drain limit stops: its lead slot is not ENDING, and it has no status yet. -/
def State.drainStops (s : State) (e : Nat × Task) : Bool :=
  match e.2.slots with
  | (n, k) :: _ => (s.slot n k).st != .ending && e.2.status.isNone
  | [] => false

/-- The drain limit at one task. -/
def State.drainTask (s : State) (e : Nat × Task) : State :=
  match e.2.slots with
  | (n, k) :: _ =>
    if (s.slot n k).st == .ending || e.2.status.isSome then s
    else (s.stopTask e.1 0x7F (0xD1 + n * 256)).modRas (fun r => { r with stopped := wrap1 16 r.stopped })
  | [] => s

theorem State.drainLimit_eq {s : State} (h : s.ras.drain = 1) :
    s.drainLimit = (s.reach (s.ras.drainAt + s.drainLimitMs * 1000000)).tasks.live.foldl State.drainTask
      (s.reach (s.ras.drainAt + s.drainLimitMs * 1000000)) := if_pos h

theorem State.drainTask_stops {s : State} {e : Nat × Task} {n k : Nat} {more : List (Nat × Nat)} (hs : e.2.slots = (n, k) :: more)
    (h : s.drainStops e = true) :
    s.drainTask e = (s.stopTask e.1 0x7F (0xD1 + n * 256)).modRas (fun r => { r with stopped := wrap1 16 r.stopped }) := by
  unfold State.drainStops at h
  unfold State.drainTask
  rw [hs] at h ⊢
  simp only [Bool.and_eq_true, bne_iff_ne, ne_eq, Option.isNone_iff_eq_none] at h
  exact if_neg (by simp [h])

theorem State.drainTask_leaves {s : State} {e : Nat × Task} (h : s.drainStops e = false) : s.drainTask e = s := by
  unfold State.drainStops at h
  unfold State.drainTask
  split
  · rename_i n k more hs
    rw [hs] at h
    refine if_pos ?_
    cases hst : e.2.status <;> simp_all
  · rfl

/-- The drain limit changes only what stops change, and its count. -/
def State.onlyDrains (s t : State) : Prop :=
  ∃ i k e n, t = { s with isl := i, tasks := k, eng := e, ras := { s.ras with stopped := n } }

theorem State.onlyDrains_drainTask (s : State) (e : Nat × Task) : s.onlyDrains (s.drainTask e) := by
  cases h : s.drainStops e with
  | false => rw [State.drainTask_leaves h]; exact ⟨s.isl, s.tasks, s.eng, s.ras.stopped, rfl⟩
  | true =>
    cases hs : e.2.slots with
    | nil => simp [State.drainStops, hs] at h
    | cons x more =>
      obtain ⟨i, k, g, he⟩ := State.onlyStops_stopTask e.1 0x7F (0xD1 + x.1 * 256) s
      rw [State.drainTask_stops hs h, he]
      exact ⟨i, k, g, _, rfl⟩

theorem State.onlyDrains_foldl (l : List (Nat × Task)) (s : State) : s.onlyDrains (l.foldl State.drainTask s) := by
  refine foldl_relates (R := State.onlyDrains) (fun s => ⟨s.isl, s.tasks, s.eng, s.ras.stopped, rfl⟩) (fun {s t u} h g => ?_)
    State.onlyDrains_drainTask l s
  obtain ⟨i, k, e, n, rfl⟩ := h
  obtain ⟨i', k', e', n', rfl⟩ := g
  exact ⟨i', k', e', n', rfl⟩

theorem State.drainTask_ending (s : State) (e : Nat × Task) (n k : Nat) :
    ((s.drainTask e).slot n k).st = .ending ↔ (s.slot n k).st = .ending := by
  cases h : s.drainStops e with
  | false => rw [State.drainTask_leaves h]
  | true =>
    cases hs : e.2.slots with
    | nil => simp [State.drainStops, hs] at h
    | cons x more =>
      rw [State.drainTask_stops hs h]
      exact State.stopTask_ending_iff e.1 0x7F (0xD1 + x.1 * 256) n k s

/-- Which tasks the limit stops is a matter of which slots are ENDING. -/
theorem State.drainStops_of_ending {s t : State} (h : ∀ n k, (t.slot n k).st = .ending ↔ (s.slot n k).st = .ending) (e : Nat × Task) :
    t.drainStops e = s.drainStops e := by
  unfold State.drainStops
  split
  · rename_i n k more hs
    have hsame : ((t.slot n k).st == .ending) = ((s.slot n k).st == .ending) := by
      rw [Bool.eq_iff_iff, beq_iff_eq, beq_iff_eq, h n k]
    simp only [bne, hsame]
  · rfl

/-- One more of `n` repeats may come first. -/
theorem repeat_succ_first {α : Type} (f : α → α) (n : Nat) (a : α) : Nat.repeat f n (f a) = Nat.repeat f (n + 1) a := by
  induction n with
  | zero => rfl
  | succ n ih => exact congrArg f ih

/-- The limit counts each task that it stops. -/
theorem State.drainTasks_stopped (l : List (Nat × Task)) (s : State) :
    (l.foldl State.drainTask s).ras.stopped = Nat.repeat (wrap1 16) (l.filter s.drainStops).length s.ras.stopped := by
  induction l generalizing s with
  | nil => rfl
  | cons e l ih =>
    have hp : (s.drainTask e).drainStops = s.drainStops := funext (State.drainStops_of_ending (s.drainTask_ending e))
    rw [List.foldl_cons, ih, hp]
    cases h : s.drainStops e with
    | false => rw [State.drainTask_leaves h, List.filter_cons_of_neg (by simp [h])]
    | true =>
      cases hs : e.2.slots with
      | nil => simp [State.drainStops, hs] at h
      | cons x more =>
        obtain ⟨i, k, g, he⟩ := State.onlyStops_stopTask e.1 0x7F (0xD1 + x.1 * 256) s
        rw [State.drainTask_stops hs h, he, List.filter_cons_of_pos h]
        exact repeat_succ_first ..

/-- A task that the map gives stands first of its key. -/
theorem NMap.split_of_find? {α : Type} {m : NMap α} {k : Nat} {v : α} (h : NMap.find? m k = some v) :
    ∃ a b, m = a ++ (k, v) :: b ∧ ∀ e ∈ a, e.1 ≠ k := by
  induction m with
  | nil => cases h
  | cons e r ih =>
    unfold NMap.find? at h
    split at h
    · rename_i hk
      cases h
      exact ⟨[], r, by rw [← hk]; rfl, fun e he => absurd he List.not_mem_nil⟩
    · rename_i hk
      obtain ⟨a, b, rfl, ha⟩ := ih h
      exact ⟨e :: a, b, rfl, fun x hx => (List.mem_cons.mp hx).elim (fun h => h ▸ hk) (ha x)⟩

section
variable {s : State} {i n k : Nat} {more : List (Nat × Nat)} {rq : Bool} {st : Option (Nat × Nat)}

theorem State.onCourse_stopTask_self (a b : Nat) (h : s.onCourse i n k more rq st) :
    (s.stopTask i a b).onCourse i n k more rq (some (st.getD (a, b))) := by
  obtain ⟨t, ht, hc⟩ := Option.map_eq_some_iff.mp h.1
  simp only [Task.course, Prod.mk.injEq] at hc
  obtain ⟨hs, rfl, rfl⟩ := hc
  refine ⟨?_, State.stopTask_ending h.2 i a b⟩
  rw [State.task?_stopTask ht hs h.2, ← hs]
  rfl

theorem State.onCourse_stopTask_other {j : Nat} (hij : i ≠ j) (a b : Nat) (h : s.onCourse i n k more rq st) :
    (s.stopTask j a b).onCourse i n k more rq st :=
  ⟨by rw [State.task?_stopTask_other hij]; exact h.1, State.stopTask_ending h.2 j a b⟩

/-- The drain limit at another task. -/
theorem State.onCourse_drainTask_other {e : Nat × Task} (hij : e.1 ≠ i) (h : s.onCourse i n k more rq st) :
    (s.drainTask e).onCourse i n k more rq st := by
  cases hp : s.drainStops e with
  | false => rw [State.drainTask_leaves hp]; exact h
  | true =>
    cases hs : e.2.slots with
    | nil => simp [State.drainStops, hs] at hp
    | cons x r => rw [State.drainTask_stops hs hp]; exact State.onCourse_stopTask_other (Ne.symm hij) _ _ h

/-- A status once taken stands. -/
theorem State.onCourse_drainTask_again {v : Nat × Nat} (e : Nat × Task) (h : s.onCourse i n k more rq (some v)) :
    (s.drainTask e).onCourse i n k more rq (some v) := by
  by_cases hij : e.1 = i
  · cases hp : s.drainStops e with
    | false => rw [State.drainTask_leaves hp]; exact h
    | true =>
      cases hs : e.2.slots with
      | nil => simp [State.drainStops, hs] at hp
      | cons x r =>
        subst hij
        rw [State.drainTask_stops hs hp]
        exact State.onCourse_stopTask_self 0x7F (0xD1 + x.1 * 256) h
  · exact State.onCourse_drainTask_other hij h

end

/-- A running task has INTERNAL and the island of its lead slot after the drain limit. -/
theorem State.drainTasks_status {s : State} {i n k : Nat} {tk : Task} {more : List (Nat × Nat)} (ht : s.task? i = some tk)
    (hs : tk.slots = (n, k) :: more) (he : (s.slot n k).st ≠ .ending) (hst : tk.status = none) :
    ((s.tasks.live.foldl State.drainTask s).task? i).map (·.status) = some (some (0x7F, 0xD1 + n * 256)) := by
  obtain ⟨a, b, hl, ha⟩ := NMap.split_of_find? ht
  have h0 : s.onCourse i n k more tk.requeue none := hst ▸ State.onCourse_of_task ht hs he
  have h1 : (a.foldl State.drainTask s).onCourse i n k more tk.requeue none :=
    List.foldlRecOn (motive := fun t : State => t.onCourse i n k more tk.requeue none) a State.drainTask h0
      (fun t h e he => State.onCourse_drainTask_other (ha e he) h)
  have hstops : (a.foldl State.drainTask s).drainStops (i, tk) = true := by
    simp [State.drainStops, hs, hst, h1.2]
  have h2 : ((a.foldl State.drainTask s).drainTask (i, tk)).onCourse i n k more tk.requeue (some (0x7F, 0xD1 + n * 256)) := by
    rw [State.drainTask_stops hs hstops]
    exact State.onCourse_stopTask_self 0x7F (0xD1 + n * 256) h1
  have h3 : (s.tasks.live.foldl State.drainTask s).onCourse i n k more tk.requeue (some (0x7F, 0xD1 + n * 256)) := by
    rw [hl, List.foldl_append, List.foldl_cons]
    exact List.foldlRecOn (motive := fun t : State => t.onCourse i n k more tk.requeue (some (0x7F, 0xD1 + n * 256))) b State.drainTask h2
      (fun t h e _ => State.onCourse_drainTask_again e h)
  obtain ⟨t, htt, hc⟩ := Option.map_eq_some_iff.mp h3.1
  rw [htt]
  exact congrArg (fun c : List (Nat × Nat) × Bool × Option (Nat × Nat) => some c.2.2) hc

end Sys2Proof.Machine
end

section
/-! PROOFS. Failed units retire once no task runs (R405). -/

namespace Sys2Proof.Machine

open Sys2Proof

/-! ### The retirement record -/

/-- The record takes an entry while it holds fewer than eight. -/
def addEntry {α : Type} (rec : List α) (e : α) : List α := if rec.length < 8 then rec ++ [e] else rec

theorem addEntries_eq {α : Type} (es rec : List α) :
    es.foldl addEntry rec = if 8 ≤ rec.length then rec else (rec ++ es).take 8 := by
  induction es generalizing rec with
  | nil =>
    split
    · rfl
    · rw [List.foldl_nil, List.append_nil]
      exact (List.take_of_length_le (by omega)).symm
  | cons e es ih =>
    rw [List.foldl_cons, ih]
    by_cases hlt : rec.length < 8
    · rw [show addEntry rec e = rec ++ [e] from if_pos hlt, if_neg (Nat.not_le.mpr hlt), List.append_assoc, List.singleton_append]
      split
      · rename_i h
        have h7 : (rec ++ [e]).length = 8 := by rw [List.length_append, List.length_singleton] at h ⊢; omega
        rw [List.append_cons rec e es]
        exact (List.take_left' h7).symm
      · rfl
    · rw [show addEntry rec e = rec from if_neg hlt]
      split
      · rfl
      · omega

theorem take_eight_ne_nil {α : Type} {rec es : List α} (h : es ≠ []) :
    (if 8 ≤ rec.length then rec else (rec ++ es).take 8) ≠ [] := by
  split
  · rename_i hle
    exact List.ne_nil_of_length_pos (by omega)
  · simp [List.take_eq_nil_iff, h]

/-! ### Units retire -/

/-- A unit with its entry written. -/
def UnitRt.retired (x : UnitRt) : UnitRt := { x with health := .retired }

/-- One failed unit retires, with its entry. -/
def State.retireOne (s : State) (x : Nat × Nat) : State :=
  (s.modUnit x.1 UnitRt.retired).modRas (fun r => { r with record := addEntry r.record (s.retireEntry x.1 x.2) })

/-- Only the units and the record of the RAS unit may differ. -/
def State.onlyRetires (s t : State) : Prop := ∃ us rec, t = { s with ras := { s.ras with units := us, record := rec } }

theorem State.onlyRetires_foldl (l : List (Nat × Nat)) (s : State) : s.onlyRetires (l.foldl State.retireOne s) := by
  refine foldl_relates (R := State.onlyRetires) (fun s => ⟨s.ras.units, s.ras.record, rfl⟩) (fun {s t u} h g => ?_)
    (fun s x => ⟨_, _, rfl⟩) l s
  obtain ⟨us, rec, rfl⟩ := h
  obtain ⟨us', rec', rfl⟩ := g
  exact ⟨us', rec', rfl⟩

theorem State.retireOne_unit (s : State) (x : Nat × Nat) (u : Nat) :
    (s.retireOne x).unit u = if x.1 = u then (s.unit x.1).retired else s.unit u :=
  State.unit_modUnit ..

/-- A unit's entry does not say whether the unit is retired. -/
theorem State.retireEntry_retireOne (s : State) (x : Nat × Nat) : (s.retireOne x).retireEntry = s.retireEntry := by
  funext u g
  unfold State.retireEntry
  rw [State.retireOne_unit]
  split
  · rename_i h; rw [← h]; rfl
  · rfl

theorem State.retireAll_record (l : List (Nat × Nat)) (s : State) :
    (l.foldl State.retireOne s).ras.record = (l.map (fun x => s.retireEntry x.1 x.2)).foldl addEntry s.ras.record := by
  induction l generalizing s with
  | nil => rfl
  | cons x l ih => rw [List.foldl_cons, ih, State.retireEntry_retireOne]; rfl

theorem State.retireAll_unit (l : List (Nat × Nat)) (s : State) {u : Nat} (h : u ∈ l.map (·.1) ∨ (s.unit u).health = .retired) :
    ((l.foldl State.retireOne s).unit u).health = .retired := by
  induction l generalizing s with
  | nil => exact h.resolve_left List.not_mem_nil
  | cons x l ih =>
    refine ih _ ?_
    rw [State.retireOne_unit]
    by_cases hx : x.1 = u
    · exact .inr (by rw [if_pos hx]; rfl)
    · rw [if_neg hx]
      exact h.imp_left (fun h => (List.mem_cons.mp h).resolve_left (Ne.symm hx))

theorem State.writeRetire_eq (s : State) :
    s.writeRetire = (s.ras.toRetire.foldl State.retireOne s).modRas (fun r => { r with toRetire := [] }) := rfl

/-- The entries of failed units are written: of the RAS unit the units, the record and the list of what waits change. -/
theorem State.writeRetire_spec (s : State) :
    ∃ us, s.writeRetire = { s with ras := { s.ras with
        units := us, toRetire := []
        record := if 8 ≤ s.ras.record.length then s.ras.record
          else (s.ras.record ++ s.ras.toRetire.map (fun x => s.retireEntry x.1 x.2)).take 8 } }
      ∧ ∀ x ∈ s.ras.toRetire, (NMap.getD us x.1 .reset).health = .retired := by
  obtain ⟨us, rec, he⟩ := State.onlyRetires_foldl s.ras.toRetire s
  have hrec := (congrArg (fun t : State => t.ras.record) he).symm.trans (State.retireAll_record s.ras.toRetire s)
  have hunit : ∀ x ∈ s.ras.toRetire, (NMap.getD us x.1 .reset).health = .retired := fun x hx => by
    have h := State.retireAll_unit s.ras.toRetire s (.inl (List.mem_map_of_mem (f := Prod.fst) hx))
    rw [he] at h
    exact h
  rw [addEntries_eq] at hrec
  rw [State.writeRetire_eq, he, ← hrec]
  exact ⟨us, rfl, hunit⟩

/-! ### The end of the drain -/

theorem State.led_lit {s : State} (hr : s.plat.recovery = false) (hf : ¬(s.plat.stage = 4 ∧ s.plat.fail = 5)) (h : s.ras.record ≠ []) :
    s.led = .lit := by
  unfold State.led
  rw [if_neg (by simp [hr]), if_neg hf, if_neg (by simp [h])]

/-- The device is DRAINED: the event that says so. -/
def State.drained (s : State) : State := s.modRas (fun r => { r with drain := 2 })

/-- What the end of a drain leaves, but for events: the failed units have their entries. -/
def State.retires (s t : State) : Prop :=
  t.ras.toRetire = [] ∧ (∀ x ∈ s.ras.toRetire, (t.unit x.1).health = .retired)
    ∧ t.ras.record = (if 8 ≤ s.ras.record.length then s.ras.record
        else (s.ras.record ++ s.ras.toRetire.map (fun x => s.retireEntry x.1 x.2)).take 8)
    ∧ { t with ras := s.ras, ledg := s.ledg, clk := s.clk } = s

section
variable {s : State} (hd : s.ras.drain ≠ 0) (hl : s.tasks.live = []) (hr : s.ras.toRetire ≠ [])
include hd hl hr

theorem State.drainComplete_eq :
    s.drainComplete = if s.ras.drain == 1 then s.writeRetire.drained.emit 0 8 7 noTenant 4 [0] else s.writeRetire :=
  if_pos (by simp [hd, hl, hr])

theorem State.drainComplete_retires :
    s.retires s.drainComplete ∧ s.drainComplete.ras.drain = (if s.ras.drain = 1 then 2 else s.ras.drain)
      ∧ (s.ras.drain = 1 → s.drainComplete.ledg = (s.emit 0 8 7 noTenant 4 [0]).ledg) := by
  obtain ⟨us, hw, hunit⟩ := s.writeRetire_spec
  rw [State.drainComplete_eq hd hl hr]
  by_cases h1 : s.ras.drain = 1
  · obtain ⟨st, l, he⟩ := State.onlyEvents_emit 0 8 7 noTenant 4 [0] s.writeRetire.drained
    have hledg : (s.writeRetire.drained.emit 0 8 7 noTenant 4 [0]).ledg = (s.emit 0 8 7 noTenant 4 [0]).ledg :=
      (State.raises_emit_of_eq (s := s) (u := s.writeRetire.drained) (congrArg State.clk hw :) (congrArg State.ledg hw :) ..).1
    rw [if_pos (beq_iff_eq.mpr h1), if_pos h1]
    refine ⟨?_, ?_, fun _ => hledg⟩
    · rw [he, hw]
      exact ⟨rfl, hunit, rfl, rfl⟩
    · rw [he]; rfl
  · rw [if_neg (by simp [h1]), if_neg h1, hw]
    exact ⟨⟨rfl, hunit, rfl, rfl⟩, rfl, fun h => absurd h h1⟩

theorem State.drainComplete_lit (hp : s.plat.recovery = false) (hf : ¬(s.plat.stage = 4 ∧ s.plat.fail = 5)) :
    s.drainComplete.led = .lit := by
  obtain ⟨⟨-, -, hrec, honly⟩, -, -⟩ := State.drainComplete_retires hd hl hr
  have hplat : s.drainComplete.plat = s.plat := (congrArg State.plat honly :)
  refine State.led_lit (by rw [hplat]; exact hp) (by rw [hplat]; exact hf) ?_
  rw [hrec]
  exact take_eight_ne_nil (by simpa using hr)

end

theorem State.drainComplete_waits {s : State} (h : ¬(s.ras.drain ≠ 0 ∧ s.tasks.live = [] ∧ s.ras.toRetire ≠ [])) : s.drainComplete = s := by
  refine if_neg ?_
  simp only [Bool.and_eq_true, bne_iff_ne, List.isEmpty_iff, Bool.not_eq_true', List.isEmpty_eq_false_iff]
  exact fun hc => h ⟨hc.1.1, hc.1.2, hc.2⟩

end Sys2Proof.Machine
end

section
/-! PROOFS. The commands of silent-error handling, one by one (R389–R405). -/

namespace Sys2Proof.Machine

open Sys2Proof

/-! ### Sweep steps (R389, R391, R392) -/

/-- A Sweep step has begun. -/
def Ras.sweepBegun (r : Ras) : Ras := { r with sweepBusy := true, forced := if r.sweepForced then wrap1 16 r.forced else r.forced }

/-- A Sweep step may start on the unit of its slot (R391). -/
def State.sweepMay (s : State) : Prop :=
  s.sweepRuns = true ∧ s.ras.sweepBusy = false ∧ (s.unit s.ras.sweepUnit).health = .healthy
    ∧ s.testable s.ras.sweepUnit = true ∧ s.levelTBusy s.ras.sweepUnit = false

theorem State.sweepStart_eq {s : State} (h : s.sweepMay) : s.sweepStart = (s.readied s.ras.sweepUnit).modRas Ras.sweepBegun := by
  obtain ⟨hruns, hbusy, hhealth, htest, hlevel⟩ := h
  exact if_pos (by simp [hruns, hbusy, hhealth, htest, hlevel])

theorem State.sweepStart_waits {s : State} (h : ¬s.sweepMay) : s.sweepStart = s := by
  refine if_neg fun hc => h ?_
  simp only [Bool.and_eq_true, Bool.not_eq_true', beq_iff_eq] at hc
  obtain ⟨⟨⟨⟨hruns, hbusy⟩, hhealth⟩, htest⟩, hlevel⟩ := hc
  exact ⟨hruns, hbusy, hhealth, htest, hlevel⟩

/-- A step starts on its unit, awake and with no crates. -/
theorem State.sweepStart_starts {s : State} (h : s.sweepMay) :
    s.sweepStart.ras = s.ras.sweepBegun ∧ s.ras.sweepUnit ∉ s.sweepStart.plat.gated
      ∧ (∀ n, s.ras.sweepUnit = 0x10 + n → n < 64 → (s.sweepStart.island n).crates = [])
      ∧ (∀ n, s.ras.sweepUnit ≠ 0x10 + n → s.sweepStart.island n = s.island n)
      ∧ { s.sweepStart with ras := s.ras, plat := s.plat, isl := s.isl } = s := by
  obtain ⟨⟨i, he⟩, hgated, hcrates, hothers⟩ := s.readied_spec s.ras.sweepUnit
  rw [State.sweepStart_eq h]
  refine ⟨?_, hgated, hcrates, hothers, ?_⟩
  · rw [he]; rfl
  · rw [he]; rfl

theorem State.sweepDone_idle {s : State} (h : s.ras.sweepBusy = false) (p : Bool) : s.sweepDone p = s := if_pos (by simp [h])

/-- An unforced step gives way (R82, R301, R391, R392). -/
def State.sweepYields (s : State) : Prop :=
  s.ras.sweepBusy = true ∧ s.ras.sweepForced = false
    ∧ (s.unitIdle s.ras.sweepUnit = false ∨ s.sweepKeeps s.ras.sweepUnit = true ∨ s.readyInPrepare s.ras.sweepUnit = true)

theorem State.sweepYields_iff (s : State) :
    (s.ras.sweepBusy && !s.ras.sweepForced
      && (!s.unitIdle s.ras.sweepUnit || s.sweepKeeps s.ras.sweepUnit || s.readyInPrepare s.ras.sweepUnit)) = true ↔ s.sweepYields := by
  unfold State.sweepYields
  simp only [Bool.and_eq_true, Bool.or_eq_true, Bool.not_eq_true', and_assoc, or_assoc]

theorem State.sweepYield_yields {s : State} (h : s.sweepYields) :
    s.sweepYield = s.modRas (fun r => { r with sweepBusy := false, yields := wrap1 16 r.yields }) :=
  if_pos (s.sweepYields_iff.mpr h)

theorem State.sweepYield_keeps {s : State} (h : ¬s.sweepYields) : s.sweepYield = s := if_neg (mt s.sweepYields_iff.mp h)

theorem State.sweepForce_forces {s : State} (h : s.sweepRuns = true) :
    s.sweepForce = { s.reach (s.ras.slotStart + s.slotNs * 3 / 4) with ras := { s.ras with sweepForced := true } } := by
  obtain ⟨c, hc⟩ := State.reach_clk (s.ras.slotStart + s.slotNs * 3 / 4) s
  refine (if_pos h).trans ?_
  rw [hc]
  rfl

theorem State.sweepForce_off {s : State} (h : s.sweepRuns = false) : s.sweepForce = s := if_neg (by simp [h])

theorem State.slotEnd_off {s : State} (h : s.sweepRuns = false) : s.slotEnd = s := if_neg (by simp [h])

/-! ### RAS_AUDIT (R395, R397) -/

/-- The unit that RAS_AUDIT names, as its register holds it. -/
theorem packW_fld12 (v : Word) : packW [(0, 12, fld v 0 12)] = BitVec.ofNat 64 (fld v 0 12) := by
  have hlt : fld v 0 12 % 2 ^ 12 * 2 ^ 0 = fld v 0 12 := by unfold fld; omega
  have hpack : packW [(0, 12, fld v 0 12)] = BitVec.ofNat 64 (fld v 0 12 % 2 ^ 12 * 2 ^ 0) ||| 0 := rfl
  rw [hpack, hlt]
  exact BitVec.or_zero

/-- RAS_AUDIT with its unit written. -/
def State.auditNamed (a : Nat) (s : State) : State := { s with regs := NMap.set s.regs offAudit (BitVec.ofNat 64 a) }

/-- RAS_AUDIT asked for a test of a unit. -/
def State.auditAsked (s : State) (a : Nat) : Ras :=
  if s.ras.drain ≠ 0 then { s.ras with auditRes := 5, auditTest := 0 }
  else if isUnit a = false ∨ (s.unit a).health = .retired then { s.ras with auditRes := 4, auditTest := 0 }
  else { s.ras with auditBusy := true, auditUnit := a, auditAt := s.clk.gtc, auditRes := 0, auditTest := 0 }

theorem State.setReg_offAudit (v : Word) (s : State) : s.setReg offAudit (packW [(0, 12, fld v 0 12)]) = s.auditNamed (fld v 0 12) := by
  rw [packW_fld12]; rfl

theorem State.auditGo_named {s : State} {v : Word} (h : bitOf v 16 = false ∨ s.ras.auditBusy = true) :
    s.auditGo v = s.auditNamed (fld v 0 12) :=
  (if_pos (by simpa [State.setReg] using h)).trans (State.setReg_offAudit v s)

theorem State.auditGo_asked {s : State} {v : Word} (hgo : bitOf v 16 = true) (hb : s.ras.auditBusy = false) :
    s.auditGo v = { s.auditNamed (fld v 0 12) with ras := s.auditAsked (fld v 0 12) } := by
  rw [← State.setReg_offAudit]
  unfold State.auditAsked
  refine (if_neg (by simp [State.setReg, hgo, hb])).trans ?_
  by_cases hd : s.ras.drain = 0
  · rw [if_neg (not_not.mpr hd)]
    refine (if_neg (by simp [State.setReg, hd])).trans ?_
    by_cases hu : isUnit (fld v 0 12) = false ∨ (s.unit (fld v 0 12)).health = .retired
    · rw [if_pos hu]
      exact if_pos (by simpa [State.setReg, State.unit] using hu)
    · rw [if_neg hu]
      exact if_neg (by simpa [State.setReg, State.unit] using hu)
  · rw [if_pos hd]
    exact if_pos (by simp [State.setReg, hd])

/-- RAS_AUDIT has a result. -/
def Ras.audited (res test : Nat) (r : Ras) : Ras := { r with auditBusy := false, auditRes := res, auditTest := test }

theorem State.auditDone_waits {s : State} (h : ¬(s.ras.auditBusy = true ∧ s.auditable s.ras.auditUnit = true)) (f : Option Nat) :
    s.auditDone none f = s :=
  if_neg (by simpa using h)

section
variable {s : State} (hb : s.ras.auditBusy = true) (ha : s.auditable s.ras.auditUnit = true)
include hb ha

theorem State.auditDone_passed : s.auditDone none none = (s.modRas (Ras.audited 1 0)).auditResult s.ras.auditUnit none :=
  if_pos (by simp [hb, ha])

theorem State.auditDone_failed (k : Nat) :
    s.auditDone none (some k) = (s.modRas (Ras.audited 2 (testNo s.ras.auditUnit k))).auditResult s.ras.auditUnit (some k) :=
  if_pos (by simp [hb, ha])

theorem State.auditDone_passes :
    (s.auditDone none none).ras.auditBusy = false ∧ (s.auditDone none none).ras.auditRes = 1
      ∧ (s.auditDone none none).ras.auditTest = 0
      ∧ (s.auditDone none none).unit s.ras.auditUnit = (s.unit s.ras.auditUnit).passed (s.view 0)
      ∧ (s.auditDone none none).ras.drain = s.ras.drain := by
  obtain ⟨i, he⟩ := (s.modRas (Ras.audited 1 0)).auditResult_passes s.ras.auditUnit
  rw [State.auditDone_passed hb ha, he]
  exact ⟨rfl, rfl, rfl, State.unit_modUnit_self .., rfl⟩

theorem State.auditDone_fails (hu : isUnit s.ras.auditUnit = true) (k : Nat) :
    (s.auditDone none (some k)).ras.auditBusy = false ∧ (s.auditDone none (some k)).ras.auditRes = 2
      ∧ (s.auditDone none (some k)).ras.auditTest = testNo s.ras.auditUnit k
      ∧ s.marginTaken s.ras.auditUnit (((s.unit s.ras.auditUnit).suspected 3 (s.view 0)).verifyFailed (testNo s.ras.auditUnit k))
          (s.auditDone none (some k)) := by
  obtain ⟨htaken, us, d, g, n, l, b, hkeep⟩ := State.auditResult_fails hu k (s.modRas (Ras.audited 2 (testNo s.ras.auditUnit k)))
  rw [State.auditDone_failed hb ha]
  refine ⟨?_, ?_, ?_, htaken⟩
  · rw [hkeep]; rfl
  · rw [hkeep]; rfl
  · rw [hkeep]; rfl

end

theorem State.auditAbort_aborts {s : State} (hb : s.ras.auditBusy = true) (ha : s.auditable s.ras.auditUnit = false) :
    s.auditAbort = { s.reach (s.ras.auditAt + 100000000) with ras := { s.ras with auditBusy := false, auditRes := 3 } } := by
  obtain ⟨c, hc⟩ := State.reach_clk (s.ras.auditAt + 100000000) s
  refine (if_pos (by simp [hb, ha])).trans ?_
  rw [hc]
  rfl

theorem State.auditAbort_waits {s : State} (h : ¬(s.ras.auditBusy = true ∧ s.auditable s.ras.auditUnit = false)) : s.auditAbort = s :=
  if_neg (by simpa using h)

/-! ### Verification (R398, R401) -/

/-- A unit whose verification has begun. -/
def UnitRt.verifying (x : UnitRt) : UnitRt := { x with health := .verifying }

/-- A verification of the unit may start. -/
def State.verifyMay (s : State) (v : Nat) : Prop :=
  (s.unit v).health = .suspect ∧ s.unitFree v = true ∧ s.auditable v = true

theorem State.verifyMay_iff (s : State) (v : Nat) :
    ((s.unit v).health == .suspect && s.unitFree v && s.auditable v) = true ↔ s.verifyMay v := by
  unfold State.verifyMay
  simp only [Bool.and_eq_true, beq_iff_eq, and_assoc]

theorem State.verifyStart_waits {s : State} {v : Nat} (h : ¬s.verifyMay v) : s.verifyStart v = s := if_neg (mt (s.verifyMay_iff v).mp h)

theorem State.verifyStart_starts {s : State} {v : Nat} (h : s.verifyMay v) :
    (s.verifyStart v).unit v = (s.unit v).verifying ∧ v ∉ (s.verifyStart v).plat.gated
      ∧ (∀ n, v = 0x10 + n → n < 64 → ((s.verifyStart v).island n).crates = [])
      ∧ { s.verifyStart v with ras := s.ras, plat := s.plat, isl := s.isl } = s := by
  obtain ⟨⟨i, he⟩, hgated, hcrates, -⟩ := s.readied_spec v
  rw [show s.verifyStart v = State.modUnit v UnitRt.verifying (s.readied v) from if_pos ((s.verifyMay_iff v).mpr h)]
  refine ⟨?_, hgated, hcrates, ?_⟩
  · rw [State.unit_modUnit_self, he]; rfl
  · rw [he]; rfl

theorem State.verifyDone_off {s : State} {v : Nat} (h : (s.unit v).health ≠ .verifying) (f : Option Nat) : s.verifyDone v f = s :=
  if_neg (by simpa using h)

/-- The passes of the last sixty minutes, with the one of now. -/
def State.passesNow (s : State) (v : Nat) : List Nat :=
  (s.unit v).passes.filter (fun g => decide (s.clk.gtc ≤ g + 3600000000000)) ++ [s.clk.gtc]

/-- A unit that its verification found good. -/
def UnitRt.verified (ps : List Nat) (now : Nat) (x : UnitRt) : UnitRt := { x with health := .healthy, passes := ps, lastPass := now }

/-- A unit verified, before a margin step. -/
def State.verifiedUnit (v : Nat) (s : State) : State := s.modUnit v (UnitRt.verified (s.passesNow v) (s.view 0))

theorem State.marginTaken_modUnit (v : Nat) (f : UnitRt → UnitRt) (s : State) :
    s.marginTaken v (f (s.unit v)) ((s.modUnit v f).marginStep v) := by
  have h := (State.marginStep_takes v (s.modUnit v f)).1
  rw [State.unit_modUnit_self] at h
  exact h

section
variable {s : State} {v : Nat} (hv : (s.unit v).health = .verifying)
include hv

theorem State.verifyDone_passed :
    s.verifyDone v none = if 3 ≤ (s.passesNow v).length then (s.verifiedUnit v).marginStep v else s.verifiedUnit v :=
  if_pos (beq_iff_eq.mpr hv)

theorem State.verifyDone_failed (k : Nat) :
    s.verifyDone v (some k) = (s.modUnit v (UnitRt.verifyFailed (testNo v k))).marginStep v :=
  if_pos (beq_iff_eq.mpr hv)

theorem State.verifyDone_fails (k : Nat) :
    s.marginTaken v { s.unit v with lastFail := testNo v k } (s.verifyDone v (some k)) := by
  have h := State.marginTaken_modUnit v (UnitRt.verifyFailed (testNo v k)) s
  rw [State.verifyDone_failed hv]
  have hx : (s.unit v).verifyFailed (testNo v k) = { s.unit v with lastFail := testNo v k } := by
    unfold UnitRt.verifyFailed
    rw [← hv]
  rw [hx] at h
  exact h

end

theorem State.verifyDone_passes {s : State} {v : Nat} (hv : (s.unit v).health = .verifying) :
    ((s.passesNow v).length < 3 → (s.verifyDone v none).unit v = (s.unit v).verified (s.passesNow v) (s.view 0)
        ∧ { s.verifyDone v none with ras := s.ras } = s)
      ∧ (3 ≤ (s.passesNow v).length → s.marginTaken v ((s.unit v).verified (s.passesNow v) (s.view 0)) (s.verifyDone v none)) := by
  rw [State.verifyDone_passed hv]
  constructor
  · intro h
    rw [if_neg (Nat.not_le.mpr h)]
    exact ⟨State.unit_modUnit_self .., rfl⟩
  · intro h
    rw [if_pos h]
    exact State.marginTaken_modUnit ..

/-! ### The drain limit (R403) -/

theorem State.drainLimit_off {s : State} (h : s.ras.drain ≠ 1) : s.drainLimit = s := if_neg h

/-- The drain limit stops and counts the tasks that run; it touches nothing else but what stops touch, and the clocks. -/
theorem State.drainLimit_limits {s : State} (h : s.ras.drain = 1) :
    (∀ i tk n k more, s.task? i = some tk → tk.slots = (n, k) :: more → (s.slot n k).st ≠ .ending → tk.status = none →
        (s.drainLimit.task? i).map (·.status) = some (some (0x7F, 0xD1 + n * 256)))
      ∧ s.drainLimit.ras = { s.ras with stopped := Nat.repeat (wrap1 16) (s.tasks.live.filter s.drainStops).length s.ras.stopped }
      ∧ { s.drainLimit with ras := s.ras, tasks := s.tasks, isl := s.isl, eng := s.eng, clk := s.clk } = s := by
  obtain ⟨c, hc⟩ := State.reach_clk (s.ras.drainAt + s.drainLimitMs * 1000000) s
  have hlimit : s.drainLimit = s.tasks.live.foldl State.drainTask { s with clk := c } := by
    rw [State.drainLimit_eq h, hc]
  obtain ⟨i, k, e, n, he⟩ := State.onlyDrains_foldl s.tasks.live { s with clk := c }
  have hstopped := State.drainTasks_stopped s.tasks.live { s with clk := c }
  refine ⟨fun j tk m l more ht hs hst hnone => ?_, ?_, ?_⟩
  · rw [hlimit]
    exact State.drainTasks_status (s := { s with clk := c }) ht hs hst hnone
  · rw [he] at hstopped
    rw [hlimit, he]
    exact congrArg (fun n => { s.ras with stopped := n }) hstopped
  · rw [hlimit, he]

end Sys2Proof.Machine
end

section
/-! PROOFS. Units are swept, tested, verified and retired. -/

namespace Sys2Proof.Machine

open Sys2Proof

/-- A room's test that failed, or passed, shows in the room's Audit. -/
theorem State.auditDone_room {s : State} {m : Room} {v : Nat} {rest : List Nat} (ht : (s.roomAudit m).todo = v :: rest)
    (ha : s.auditable v = true) (hu : isUnit v = true) (f : Option Nat) :
    let t := (s.auditDone (some m) f).clearingEnds m
    (t.roomAudit m).todo = rest ∧ (t.roomAudit m).failed = (s.roomAudit m).failed ++ (f.map (fun k => (v, testNo v k))).toList
      ∧ (rest = [] → (t.roomAudit m).doneSeq = (s.roomAudit m).req
          ∧ (t.roomAudit m).result = (if (s.roomAudit m).failed = [] ∧ f = none then 1 else 2)) := by
  intro t
  have hroom := (State.roomTestDone_spec ht ha hu f).1
  rw [show t.roomAudit m = _ from hroom]
  refine ⟨?_, ?_, fun hr => ?_⟩
  · split <;> rfl
  · rw [← RoomAudit.tested_failed v rest]
    split <;> rfl
  · rw [if_pos hr]
    refine ⟨rfl, ?_⟩
    unfold RoomAudit.ended
    dsimp only
    rw [RoomAudit.tested_failed]
    cases f <;> simp

section
variable (s : State)

theorem exec_sweepStepStart : exec .sweepStepStart s = .next s.sweepStart := rfl
theorem exec_sweepStepDone (p : Bool) : exec (.sweepStepDone p) s = .next (s.sweepDone p) := rfl
theorem exec_sweepYield : exec .sweepYield s = .next s.sweepYield := rfl
theorem exec_sweepForce : exec .sweepForce s = .next s.sweepForce := rfl
theorem exec_sweepSlotEnd : exec .sweepSlotEnd s = .next s.slotEnd := rfl
theorem exec_auditGo (v : Word) : exec (.auditGo v) s = .next (s.auditGo v) := rfl
theorem exec_auditTestDone_unit (f : Option Nat) : exec (.auditTestDone none f) s = .next (s.auditDone none f) := rfl
theorem exec_auditTestDone_room (m : Room) (f : Option Nat) :
    exec (.auditTestDone (some m) f) s = .next ((s.auditDone (some m) f).clearingEnds m) := rfl
theorem exec_auditAbort : exec .auditAbort s = .next s.auditAbort := rfl
theorem exec_verifyStart (v : Nat) : exec (.verifyStart v) s = .next (s.verifyStart v) := rfl
theorem exec_verifyDone (v : Nat) (f : Option Nat) : exec (.verifyDone v f) s = .next (s.verifyDone v f) := rfl
theorem exec_drainLimit : exec .drainLimit s = .next s.drainLimit := rfl
theorem exec_drainComplete : exec .drainComplete s = .next s.drainComplete := rfl

end

/-- Settles O57: each command's case is a lemma of its own. -/
theorem unitsAreSweptTestedVerifiedAndRetired : Obligations.UnitsAreSweptTestedVerifiedAndRetired := by
  intro s
  refine ⟨fun h => ⟨_, exec_sweepStepStart s, State.sweepStart_starts h⟩,
    fun h => (exec_sweepStepStart s).trans (congrArg Host.Outcome.next (State.sweepStart_waits h)),
    fun h p => (exec_sweepStepDone s p).trans (congrArg Host.Outcome.next (State.sweepDone_idle h p)),
    fun hb => ⟨?counts, ?passes, ?fails⟩,
    ⟨fun h => (exec_sweepYield s).trans (congrArg Host.Outcome.next (State.sweepYield_yields h)),
      fun h => (exec_sweepYield s).trans (congrArg Host.Outcome.next (State.sweepYield_keeps h))⟩,
    fun h => ⟨(exec_sweepForce s).trans (congrArg Host.Outcome.next (State.sweepForce_forces h)), ?missed⟩,
    fun h => ⟨(exec_sweepForce s).trans (congrArg Host.Outcome.next (State.sweepForce_off h)),
      (exec_sweepSlotEnd s).trans (congrArg Host.Outcome.next (State.slotEnd_off h))⟩,
    fun v => ⟨fun h => (exec_auditGo s v).trans (congrArg Host.Outcome.next (State.auditGo_named h)),
      fun h hb => (exec_auditGo s v).trans (congrArg Host.Outcome.next (State.auditGo_asked h hb))⟩,
    ⟨fun h f => (exec_auditTestDone_unit s f).trans (congrArg Host.Outcome.next (State.auditDone_waits h f)),
      fun h => ⟨⟨_, exec_auditTestDone_unit s none, State.auditDone_passes h.1 h.2⟩,
        fun hu k => ⟨_, exec_auditTestDone_unit s (some k), State.auditDone_fails h.1 h.2 hu k⟩⟩,
      fun hb ha => (exec_auditAbort s).trans (congrArg Host.Outcome.next (State.auditAbort_aborts hb ha)),
      fun h => (exec_auditAbort s).trans (congrArg Host.Outcome.next (State.auditAbort_waits h))⟩,
    fun m v rest ht => ⟨?roomWaits, fun ha hu f => ?roomTested⟩,
    fun v => ⟨fun h => ⟨_, exec_verifyStart s v, State.verifyStart_starts h⟩,
      fun h => (exec_verifyStart s v).trans (congrArg Host.Outcome.next (State.verifyStart_waits h)),
      fun h f => (exec_verifyDone s v f).trans (congrArg Host.Outcome.next (State.verifyDone_off h f)),
      fun hv => ⟨fun h => ⟨_, exec_verifyDone s v none, (State.verifyDone_passes hv).1 h⟩,
        fun h => ⟨_, exec_verifyDone s v none, (State.verifyDone_passes hv).2 h⟩,
        fun k => ⟨_, exec_verifyDone s v (some k), State.verifyDone_fails hv k⟩⟩⟩,
    fun h => (exec_drainLimit s).trans (congrArg Host.Outcome.next (State.drainLimit_off h)),
    fun h => ⟨_, exec_drainLimit s, State.drainLimit_limits h⟩,
    fun h => (exec_drainComplete s).trans (congrArg Host.Outcome.next (State.drainComplete_waits h)), fun h => ?retired⟩
  case counts =>
    intro h
    exact (exec_sweepStepDone s true).trans (congrArg Host.Outcome.next (State.sweepDone_counts hb h))
  case passes =>
    intro h
    obtain ⟨hmoves, hsteps, hunit, honly⟩ := State.sweepDone_passes hb h
    exact ⟨_, exec_sweepStepDone s true, hmoves, hsteps, hunit, honly⟩
  case fails => exact fun hu => ⟨_, exec_sweepStepDone s false, State.sweepDone_fails hb hu⟩
  case missed => exact ⟨_, exec_sweepSlotEnd s, State.slotEnd_misses h⟩
  case roomWaits =>
    intro ha
    rw [exec_auditTestDone_room, show s.auditDone (some m) none = s from State.roomTestDone_waits ht ha none,
      State.clearingEnds_waits ht]
  case roomTested =>
    obtain ⟨htodo, hfailed, hended⟩ := State.auditDone_room ht ha hu f
    obtain ⟨-, hpassed, htaken⟩ := State.roomTestDone_spec ht ha hu f
    refine ⟨_, exec_auditTestDone_room s m f, htodo, fun k hf => ?_, fun hf => ⟨?_, hpassed hf⟩, htaken, hended⟩
    · subst hf; exact hfailed
    · subst hf; exact hfailed.trans (List.append_nil _)
  case retired =>
    obtain ⟨hd, hl, hr⟩ := h
    obtain ⟨⟨hnone, hretired, hrec, honly⟩, hdrain, hledg⟩ := State.drainComplete_retires hd hl hr
    exact ⟨_, exec_drainComplete s, hnone, hretired, hrec, hdrain, hledg, State.drainComplete_lit hd hl hr, honly⟩

end Sys2Proof.Machine
end

section
/-! PROOFS. What BAR4 and the scrubbers reach: reads and writes of host windows, accesses that Table 5-4 refuses, request lines
of Pantry windows, and the lines and words that a scrubber reads (R95, R320, R324, R329, R335, R337). -/

namespace Sys2Proof.Machine

open Sys2Proof

/-! ### Refused accesses (R95, Table 5-4) -/

/-- What an address violation leaves of the rest. -/
theorem State.addrViol_spec (src t addr : Nat) (s : State) :
    s.raises src 2 2 t 2 [addr] (s.addrViol src t addr)
      ∧ ((s.addrViol src t addr).tenant t).violA = sat1 16 (s.tenant t).violA
      ∧ { s.addrViol src t addr with ten := s.ten, qm := s.qm, ledg := s.ledg, clk := s.clk } = s := by
  refine ⟨State.raises_of_emit (s.addrViol_eq src t addr) rfl rfl, ?_, ?_⟩
  · rw [State.addrViol_eq, State.emit_tenant, State.addrViolated_tenant]
  · obtain ⟨st, l, h⟩ := State.onlyEvents_emit src 2 2 t 2 [addr] (s.addrViolated t)
    rw [State.addrViol_eq, h]
    rfl

theorem State.addrViol_cellar (src t addr : Nat) (s : State) : (s.addrViol src t addr).cellar = s.cellar :=
  (congrArg State.cellar (State.addrViol_spec src t addr s).2.2 :)

theorem State.bar4Refused_vf {fn : Fn} (h : fn ≠ 0) (a : Nat) (s : State) : s.bar4Refused fn a = s.addrViol 0xB0 fn a :=
  if_neg (Fn.val_ne_zero h)

/-! ### Reads and writes through BAR4 (R320, R329, R335) -/

section
variable {s : State} {fn a len : Nat} {d : Bytes}

theorem exec_bar4Read (fn : Fn) : exec (.bar4Read fn a len) s = .next (s.bar4Read fn a len) := rfl
theorem exec_bar4Write (fn : Fn) : exec (.bar4Write fn a d) s = .next (s.bar4Write fn a d) := rfl

theorem State.bar4Read_beyond (h : s.inBar4 a len = false) : s.bar4Read fn a len = s := if_pos (by simp [h])

theorem State.bar4Write_beyond (h : s.inBar4 a d.length = false) : s.bar4Write fn a d = s := if_pos (by simp [h])

/-- The answer that a read returns to the host. -/
def State.answers (b : Bytes) (ep : Bool) (s : State) : State := s.modOut (fun o => { o with rdBytes := b, rdEp := ep })

theorem State.bar4Read_allowed (hb : s.inBar4 a len = true) (hw : s.hostWin fn a len false = true) (hs : s.scrubbing fn = false) :
    s.bar4Read fn a len
      = (s.countLines false a len).answers (s.cellarRead a len) (s.cellar.store.poisonIn lineB a len).isSome := by
  simp [State.bar4Read, State.answers, hb, hw, hs]

theorem State.bar4Read_refused (hb : s.inBar4 a len = true) (hw : s.hostWin fn a len false = false) :
    s.bar4Read fn a len = (s.bar4Refused fn a).answers (zeros len) false := by
  simp [State.bar4Read, State.answers, hb, hw]

theorem State.bar4Write_refused (hb : s.inBar4 a d.length = true) (hw : s.hostWin fn a d.length true = false) :
    s.bar4Write fn a d = s.bar4Refused fn a := by
  simp [State.bar4Write, hb, hw]

section
variable (hb : s.inBar4 a d.length = true) (hw : s.hostWin fn a d.length true = true) (hs : s.scrubbing fn = false)
include hb hw hs

/-- A write that touches a protected image is discarded whole (R329). -/
theorem State.bar4Write_guarded (hg : ∃ x ∈ s.guardedExtents, a < x.1 + x.2 ∧ x.1 < a + d.length) :
    s.bar4Write fn a d = s.addrViol 0xB0 fn a := by
  have hany : s.guardedExtents.any (fun x => decide (a < x.1 + x.2) && decide (x.1 < a + d.length)) = true := by
    simpa using hg
  simp only [State.bar4Write, hb, hw, hs, hany, Bool.not_true, Bool.false_eq_true, if_false, if_true]

/-- The Pantry windows whose REQ line a write hands over: it sets their byte 0x3F to 1 (R324). -/
def State.reqLinesSet (s : State) (a : Nat) (d : Bytes) : List (Nat × WindowCfg) :=
  s.living.windows.filter (fun e => e.2.kind == 1 && decide (a ≤ e.2.base + 0x3F) && decide (e.2.base + 0x3F < a + d.length)
    && d[e.2.base + 0x3F - a]? == some 1)

theorem State.bar4Write_stores (hg : ∀ x ∈ s.guardedExtents, x.1 + x.2 ≤ a ∨ a + d.length ≤ x.1) :
    s.bar4Write fn a d = (s.reqLinesSet a d).foldl (fun s e => s.takeReqLine e.1 e.2) (s.cellarWrite a d) := by
  have hany : s.guardedExtents.any (fun x => decide (a < x.1 + x.2) && decide (x.1 < a + d.length)) = false := by
    simp only [List.any_eq_false, Bool.and_eq_true, decide_eq_true_eq]
    intro x hx
    have := hg x hx
    omega
  have hliving : (s.cellarWrite a d).living = s.living := (congrArg State.living (State.cellarWrite_stored a d s).2 :)
  simp only [State.bar4Write, hb, hw, hs, hany, Bool.not_true, Bool.false_eq_true, if_false, hliving, State.reqLinesSet]
  rw [List.foldl_filter, List.foldl_filter]
  congr 1
  funext u e
  by_cases hk : (e.2.kind == 1) = true <;> simp [hk, and_assoc]

end
end

/-! ### The REQ line of a Pantry window (R324) -/

theorem State.pwin_cellarWrite (a : Nat) (d : Bytes) (s : State) (w : Nat) : (s.cellarWrite a d).pwin w = s.pwin w :=
  (congrArg (fun x : State => x.pwin w) (State.cellarWrite_stored a d s).2 :)

theorem State.mem_cellarWrite (a : Nat) (d : Bytes) (s : State) :
    (s.cellarWrite a d).cellar.store.mem = Mem.write s.cellar.store.mem a d :=
  congrArg Store.mem (State.countLines_store true a d.length (s.modStore (fun st => st.write lineB a d))).1

/-- A request taken from the REQ line of a window that has none: it waits, GO falls, and the result shows that it runs. -/
theorem State.takeReqLine_takes {s : State} {w : Nat} {c : WindowCfg} {b : Bytes} (hr : (s.pwin w).req = none)
    (hq : (s.pwin w).queued = none) (hb : s.cellarRead c.base 64 = b) (hop : leAt b 0 1 = 1 ∨ leAt b 0 1 = 2) :
    (s.takeReqLine w c).pwin w = { s.pwin w with queued := some (leAt b 0 1, leAt b 1 1, leAt b 2 2, leAt b 4 4, leAt b 8 8) }
      ∧ Mem.byte (s.takeReqLine w c).cellar.store.mem (c.base + 0x3F) = 0
      ∧ Mem.byte (s.takeReqLine w c).cellar.store.mem (c.base + 0x44) = 0xFF := by
  have hfree : ((s.pwin w).req.isSome || (s.pwin w).queued.isSome) = false := by simp [hr, hq]
  have hops : (leAt b 0 1 = 1 || leAt b 0 1 = 2) = true := by simpa using hop
  simp only [State.takeReqLine, hb, State.pwin_cellarWrite, hfree, hops, Bool.false_eq_true, if_false, if_true]
  refine ⟨?_, ?_, ?_⟩
  · rw [State.pwin_modPwin, if_pos rfl, State.pwin_cellarWrite]
  · simp [State.mem_cellarWrite, State.modPwin, Mem.byte_write]
  · simp [State.mem_cellarWrite, State.modPwin, Mem.byte_write]

/-! ### The Cellar scrubber (R337) -/

/-- What the Cellar stores and how many lines were read and written may differ, but neither the errors that its controllers
count nor where the scrubber stands. -/
def State.onlyLines (s t : State) : Prop :=
  { t with cellar := s.cellar } = s ∧ t.cellar.scrubbed = s.cellar.scrubbed
    ∧ ∀ c, (t.cctl c).uncorr = (s.cctl c).uncorr ∧ (t.cctl c).lastErr = (s.cctl c).lastErr

theorem State.onlyLines_refl (s : State) : s.onlyLines s := ⟨rfl, rfl, fun _ => ⟨rfl, rfl⟩⟩

theorem State.onlyLines_trans {s t u : State} (h : s.onlyLines t) (g : t.onlyLines u) : s.onlyLines u := by
  obtain ⟨h1, h2, h3⟩ := h
  obtain ⟨g1, g2, g3⟩ := g
  exact ⟨(congrArg (fun x : State => { x with cellar := s.cellar }) g1 :).trans h1, g2.trans h2,
    fun c => ⟨(g3 c).1.trans (h3 c).1, (g3 c).2.trans (h3 c).2⟩⟩

theorem State.onlyLines_foldl {α : Type} {f : State → α → State} (hf : ∀ (s : State) x, s.onlyLines (f s x))
    (l : List α) (s : State) :
    s.onlyLines (l.foldl f s) :=
  foldl_relates State.onlyLines_refl State.onlyLines_trans hf l s

theorem State.onlyLines_modCctl {f : CellarCtl → CellarCtl} (hf : ∀ x, (f x).uncorr = x.uncorr ∧ (f x).lastErr = x.lastErr)
    (n : Nat) (s : State) : s.onlyLines (s.modCctl n f) := by
  refine ⟨rfl, rfl, fun c => ?_⟩
  rw [State.cctl_modCctl]
  split
  · rename_i h; subst h; exact hf _
  · exact ⟨rfl, rfl⟩

theorem State.onlyLines_countLines (wr : Bool) (a len : Nat) (s : State) : s.onlyLines (s.countLines wr a len) := by
  unfold State.countLines
  exact State.onlyLines_foldl (fun s u => State.onlyLines_modCctl (fun x => by cases wr <;> exact ⟨rfl, rfl⟩) _ s) _ s

theorem State.onlyLines_cellarWrite (a : Nat) (d : Bytes) (s : State) : s.onlyLines (s.cellarWrite a d) :=
  State.onlyLines_trans (t := s.modStore (fun st => st.write lineB a d)) ⟨rfl, rfl, fun _ => ⟨rfl, rfl⟩⟩
    (State.onlyLines_countLines ..)

theorem State.onlyLines_writeEntry (w i : Nat) (s : State) : s.onlyLines (s.writeEntry w i) := by
  unfold State.writeEntry
  split
  · exact s.onlyLines_refl
  · split <;> exact State.onlyLines_cellarWrite ..

theorem State.onlyLines_notePoison (a : Nat) (s : State) : s.onlyLines (s.notePoison a) := by
  refine State.onlyLines_foldl (fun s w => ?_) _ s
  split
  · exact s.onlyLines_refl
  · refine State.onlyLines_foldl (fun s e => ?_) _ s
    split
    · exact State.onlyLines_writeEntry ..
    · exact s.onlyLines_refl

/-- A line that no image of a directory entry holds is noted nowhere. -/
theorem State.notePoison_outside {a : Nat} {s : State}
    (h : ∀ w ∈ s.pantry, ∀ c, s.pantryWin w.1 = some c → ∀ e ∈ w.2.entries,
      ¬(c.base + e.2.imageOff ≤ a ∧ a < c.base + e.2.imageOff + e.2.length)) : s.notePoison a = s := by
  refine List.foldlRecOn (motive := fun t : State => t = s) _ _ rfl (fun t ht w hw => ?_)
  subst ht
  split
  · rfl
  · rename_i c hc
    refine List.foldlRecOn (motive := fun u : State => u = t) _ _ rfl (fun u hu e he => ?_)
    subst hu
    exact if_neg (by simpa using h w hw c hc e he)

section
variable {s : State} {ctl : Fin 4} {line : Nat}

theorem exec_cellarScrub (e : EccResult) : exec (.cellarScrub ctl line e) s = .next (s.scrubLine ctl line e) := rfl

/-- The scrubber's place, one line on; after the last line a new pass begins. -/
def State.lineScrubbed (s : State) : State :=
  s.modCellar (fun c =>
    if c.scrubbed + 1 = cellarLines then { c with scrubbed := 0, passes := wrap1 32 c.passes }
    else { c with scrubbed := c.scrubbed + 1 })

theorem State.lineScrubbed_spec (s : State) :
    s.lineScrubbed.cellar.scrubbed = (if s.cellar.scrubbed + 1 = cellarLines then 0 else s.cellar.scrubbed + 1)
      ∧ s.lineScrubbed.cellar.store = s.cellar.store ∧ s.lineScrubbed.cellar.ctl = s.cellar.ctl := by
  unfold State.lineScrubbed
  rw [State.modCellar_cellar]
  split <;> exact ⟨rfl, rfl, rfl⟩

theorem State.lineScrubbed_cctl (s : State) (c : Nat) : s.lineScrubbed.cctl c = s.cctl c :=
  congrArg (fun m : NMap CellarCtl => NMap.getD m c .reset) s.lineScrubbed_spec.2.2

/-- A line with an error that cannot be corrected: counted, recorded and poisoned. -/
def State.lineLost (ctl line : Nat) (s : State) : State :=
  (s.lineScrubbed.modCctl ctl (fun c => { c with uncorr := sat1 16 c.uncorr, lastErr := line })).modStore (fun st => st.mark [line * 64])

theorem State.cctl_modStore (f : Store → Store) (s : State) (c : Nat) : (s.modStore f).cctl c = s.cctl c := rfl

theorem State.lineLost_cctl (ctl line : Nat) (s : State) :
    (s.lineLost ctl line).cctl ctl = { s.cctl ctl with uncorr := sat1 16 (s.cctl ctl).uncorr, lastErr := line } := by
  rw [State.lineLost, State.cctl_modStore, State.cctl_modCctl, if_pos rfl, State.lineScrubbed_cctl]

variable (hc : line / 4 % 4 = ctl.val) (hl : line < cellarLines)
include hc hl

theorem State.scrubLine_reads (e : EccResult) : s.scrubLine ctl line e = (match e with
    | .clean => s.lineScrubbed
    | .corrected => s.lineScrubbed.modCctl ctl (fun c => { c with corrected := sat1 32 c.corrected })
    | .uncorrectable => ((s.lineLost ctl line).emit (0x80 + ctl) 4 3 (s.addrTenant (line * 64)) 3 [line * 64]).notePoison (line * 64)) := by
  have h : (line / 4 % 4 != ctl || decide (cellarLines ≤ line)) = false := by simp [hc, hl]
  unfold State.scrubLine
  rw [if_neg (by simp [h])]
  cases e <;> rfl

theorem State.scrubLine_lost :
    (s.scrubLine ctl line .uncorrectable).cellar.scrubbed = s.lineScrubbed.cellar.scrubbed
      ∧ ((s.scrubLine ctl line .uncorrectable).cctl ctl).uncorr = sat1 16 (s.cctl ctl).uncorr
      ∧ ((s.scrubLine ctl line .uncorrectable).cctl ctl).lastErr = line
      ∧ s.raises (0x80 + ctl) 4 3 (s.addrTenant (line * 64)) 3 [line * 64] (s.scrubLine ctl line .uncorrectable) := by
  rw [State.scrubLine_reads hc hl]
  dsimp only
  obtain ⟨st, l, he⟩ := State.onlyEvents_emit (0x80 + ctl) 4 3 (s.addrTenant (line * 64)) 3 [line * 64] (s.lineLost ctl line)
  have hraise : s.raises (0x80 + ctl) 4 3 (s.addrTenant (line * 64)) 3 [line * 64]
      ((s.lineLost ctl line).emit (0x80 + ctl) 4 3 (s.addrTenant (line * 64)) 3 [line * 64]) := State.raises_of_emit rfl rfl rfl
  generalize (s.lineLost ctl line).emit (0x80 + ctl) 4 3 (s.addrTenant (line * 64)) 3 [line * 64] = u at he hraise
  have hu : u.cctl ctl = (s.lineLost ctl line).cctl ctl := by rw [he]; rfl
  obtain ⟨honly, hscr, herr⟩ := State.onlyLines_notePoison (line * 64) u
  refine ⟨hscr.trans (by rw [he]; rfl), ?_, ?_, ?_, ?_⟩
  · rw [(herr ctl).1, hu, State.lineLost_cctl]
  · rw [(herr ctl).2, hu, State.lineLost_cctl]
  · exact (congrArg State.ledg honly :).trans hraise.1
  · exact (congrArg State.clk honly :).trans hraise.2

/-- The line is poisoned, where no image holds it that would be written again. -/
theorem State.scrubLine_poisons
    (h : ∀ w ∈ s.pantry, ∀ c, s.pantryWin w.1 = some c → ∀ e ∈ w.2.entries,
      ¬(c.base + e.2.imageOff ≤ line * 64 ∧ line * 64 < c.base + e.2.imageOff + e.2.length)) :
    (s.scrubLine ctl line .uncorrectable).cellar.store = s.cellar.store.mark [line * 64] := by
  rw [State.scrubLine_reads hc hl]
  dsimp only
  obtain ⟨st, l, he⟩ := State.onlyEvents_emit (0x80 + ctl) 4 3 (s.addrTenant (line * 64)) 3 [line * 64] (s.lineLost ctl line)
  have hstore : (s.lineLost ctl line).cellar.store = s.cellar.store.mark [line * 64] :=
    congrArg (fun st : Store => st.mark [line * 64]) s.lineScrubbed_spec.2.1
  rw [State.notePoison_outside (by rw [he]; exact h), he]
  exact hstore

end

/-! ### Shelf scrubbers (R337) -/

section
variable {s : State} {n : IslN} {word : Nat}

theorem exec_shelfScrub (e : EccResult) : exec (.shelfScrub n word e) s = .next (s.scrubWord n word e) := rfl

/-- The tenant of the room that holds an island. -/
def State.islTenant (s : State) (n : Nat) : Nat := match s.roomOf n with | some m => s.roomTenant m | none => noTenant

/-- A word with an error that cannot be corrected: counted and poisoned. -/
def State.wordLost (n word : Nat) (s : State) : State :=
  (s.modIsl n (fun i => { i with shUncorr := sat1 16 i.shUncorr })).modShelf n (fun st => st.mark [word * 8])

theorem State.wordLost_island (n word : Nat) (s : State) :
    (s.wordLost n word).island n
      = { s.island n with shUncorr := sat1 16 (s.island n).shUncorr, shelf := (s.island n).shelf.mark [word * 8] } := by
  simp [State.wordLost, State.modShelf]

variable (hw : word < 2 ^ 18)
include hw

theorem State.scrubWord_reads (e : EccResult) : s.scrubWord n word e = (match e with
    | .clean => s
    | .corrected => s.modIsl n (fun i => { i with shCorr := sat1 32 i.shCorr })
    | .uncorrectable => (s.wordLost n word).emit (0x10 + n) 4 1 (s.islTenant n) 3 [word * 8]) := by
  unfold State.scrubWord
  rw [if_neg (by simpa using hw)]
  cases e <;> rfl

theorem State.scrubWord_corrects :
    (s.scrubWord n word .corrected).island n = { s.island n with shCorr := sat1 32 (s.island n).shCorr }
      ∧ s.onlyIsl n (s.scrubWord n word .corrected) := by
  rw [State.scrubWord_reads hw]
  refine ⟨?_, rfl, fun m hm => ?_⟩
  · rw [State.island_modIsl, if_pos rfl]
  · rw [State.island_modIsl, if_neg (Ne.symm hm)]

theorem State.scrubWord_loses :
    (s.scrubWord n word .uncorrectable).island n
        = { s.island n with shUncorr := sat1 16 (s.island n).shUncorr, shelf := (s.island n).shelf.mark [word * 8] }
      ∧ s.raises (0x10 + n) 4 1 (s.islTenant n) 3 [word * 8] (s.scrubWord n word .uncorrectable)
      ∧ { s.scrubWord n word .uncorrectable with isl := s.isl, ledg := s.ledg, clk := s.clk } = s := by
  rw [State.scrubWord_reads hw]
  obtain ⟨st, l, he⟩ := State.onlyEvents_emit (0x10 + n) 4 1 (s.islTenant n) 3 [word * 8] (s.wordLost n word)
  refine ⟨?_, State.raises_of_emit rfl rfl rfl, ?_⟩
  · rw [← State.wordLost_island, he]; rfl
  · rw [he]; rfl

end

/-- Settles O52: accesses beyond BAR4, reads and writes of a host window or outside any, and the scrubbers by what they find. -/
theorem hostWindowsAndScrubbers : Obligations.HostWindowsAndScrubbers := by
  unfold Obligations.HostWindowsAndScrubbers
  refine ⟨fun s fn a => ⟨?readBeyond, ?writeBeyond⟩, ?read, ?readRefused,
    fun s fn a d hb => ⟨?writeRefused, fun hw hs => ⟨?guarded, fun hg => ?stored⟩⟩,
    fun s ctl line hc hl => ⟨?clean, ?corrected, ?lost⟩,
    fun s n word hw => ⟨congrArg Host.Outcome.next (State.scrubWord_reads hw .clean),
      ⟨_, exec_shelfScrub .corrected, State.scrubWord_corrects hw⟩,
      ⟨_, exec_shelfScrub .uncorrectable, State.scrubWord_loses hw⟩⟩⟩
  case readBeyond => exact fun len h => congrArg Host.Outcome.next (State.bar4Read_beyond h)
  case writeBeyond => exact fun d h => congrArg Host.Outcome.next (State.bar4Write_beyond h)
  case read =>
    intro s fn a len hb hw hs
    obtain ⟨hstore, honly⟩ := State.countLines_store false a len s
    exact ⟨_, (exec_bar4Read fn).trans (congrArg Host.Outcome.next (State.bar4Read_allowed hb hw hs)), rfl, rfl, hstore,
      (congrArg (fun x : State => { x with out := s.out }) honly :)⟩
  case readRefused =>
    intro s fn a len hb hw hfn
    obtain ⟨hraise, hviol, honly⟩ := State.addrViol_spec 0xB0 fn a s
    exact ⟨_, (exec_bar4Read fn).trans (congrArg Host.Outcome.next
      ((State.bar4Read_refused hb hw).trans (congrArg (State.answers (zeros len) false) (State.bar4Refused_vf hfn a s)))),
      rfl, rfl, hviol, hraise, State.addrViol_cellar ..⟩
  case writeRefused =>
    intro hw hfn
    obtain ⟨hraise, -, honly⟩ := State.addrViol_spec 0xB0 fn a s
    exact ⟨_, (exec_bar4Write fn).trans (congrArg Host.Outcome.next
      ((State.bar4Write_refused hb hw).trans (State.bar4Refused_vf hfn a s))), State.addrViol_cellar .., hraise, honly⟩
  case guarded =>
    intro hg
    exact ⟨_, (exec_bar4Write fn).trans (congrArg Host.Outcome.next (State.bar4Write_guarded hb hw hs hg)), State.addrViol_cellar ..,
      (State.addrViol_spec 0xB0 fn a s).1⟩
  case stored =>
    have hexec : ∀ hits, s.reqLinesSet a d = hits →
        exec (.bar4Write fn a d) s = .next (hits.foldl (fun s e => s.takeReqLine e.1 e.2) (s.cellarWrite a d)) := fun hits h =>
      (exec_bar4Write fn).trans (congrArg Host.Outcome.next (h ▸ State.bar4Write_stores hb hw hs hg))
    obtain ⟨hstored, honly⟩ := State.cellarWrite_stored a d s
    refine ⟨fun h => ⟨_, hexec [] h, hstored, honly⟩, fun w c h _ hr hq hop => ⟨_, hexec [(w, c)] h, ?_⟩⟩
    have hread : (s.cellarWrite a d).cellarRead c.base 64 = (s.cellar.store.write lineB a d).read c.base 64 :=
      congrArg (fun st : Store => st.read c.base 64) (State.countLines_store true a d.length (s.modStore (fun st => st.write lineB a d))).1
    have hpwin := State.pwin_cellarWrite a d s w
    rw [← hpwin] at hr hq ⊢
    exact State.takeReqLine_takes hr hq hread hop
  case clean =>
    obtain ⟨hcounts, hstore, hctl⟩ := s.lineScrubbed_spec
    exact ⟨_, congrArg Host.Outcome.next (State.scrubLine_reads hc hl .clean), hcounts, hstore, hctl, rfl⟩
  case corrected =>
    obtain ⟨hcounts, hstore, -⟩ := s.lineScrubbed_spec
    refine ⟨_, congrArg Host.Outcome.next (State.scrubLine_reads hc hl .corrected), hcounts, hstore, ?_, rfl⟩
    rw [State.cctl_modCctl, if_pos rfl, State.lineScrubbed_cctl]
  case lost =>
    obtain ⟨hscr, huncorr, hlast, hraise⟩ := State.scrubLine_lost (s := s) hc hl
    refine ⟨_, exec_cellarScrub .uncorrectable, hscr.trans s.lineScrubbed_spec.1, huncorr, hlast, hraise, fun h => ?_⟩
    rw [State.scrubLine_poisons hc hl h]
    exact ⟨rfl, fun x => (mem_insAll [line * 64] s.cellar.store.poison x).trans (by rw [List.mem_singleton])⟩

end Sys2Proof.Machine
end

section
/-! PROOFS. The loss of the main domain (R101, R406, R431, R445, R449): cold reset, power-on, loss of the input and trips. -/

namespace Sys2Proof.Machine

open Sys2Proof

section
variable {s : State}

theorem exec_perst (ns hotC : Nat) : exec (.perst ns hotC) s = .next (s.perst ns hotC) := rfl
theorem exec_powerOn : exec .powerOn s = .next s.powerOn := rfl
theorem exec_mainInputRemoved : exec .mainInputRemoved s = .next s.inputRemoved := rfl
theorem exec_thermalTrip (c : TripCause) : exec (.thermalTrip c) s = .next (s.trip c) := rfl

/-- What a cold reset leaves. -/
theorem State.cold_spec (w : Power) (s : State) :
    s.mainLost (s.cold w) ∧ (s.cold w).plat.power = w ∧ (s.cold w).plat.nonce = Config.freeValue s.free ∧ (s.cold w).free = s.free + 1
      ∧ (s.cold w).plat.thermtrip = false ∧ (s.cold w).plat.lastTrip = s.plat.lastTrip :=
  ⟨⟨rfl, rfl, rfl, rfl, rfl, rfl, rfl, rfl, rfl, rfl, rfl, rfl, rfl, rfl, rfl, rfl⟩, rfl, rfl, rfl, rfl, rfl⟩

/-- What the auxiliary domain says of a trip is no part of the main domain. -/
theorem State.mainLost_tripped {t : State} (h : s.mainLost t) (last : Nat) (therm : Bool) :
    s.mainLost (t.modPlat (fun p => { p with lastTrip := last, thermtrip := therm })) := h

theorem State.powerOn_mainLost (s : State) : s.mainLost s.powerOn :=
  State.mainLost_tripped (State.cold_spec .d3cold s).1 0 false

theorem State.perst_filtered {ns : Nat} (h : ns ≤ s.perstFilter) (hotC : Nat) : s.perst ns hotC = s := if_pos (by simp [h])

theorem State.perst_colds {ns : Nat} (hp : s.plat.power ≠ .off) (h : s.perstFilter < ns) (hotC : Nat) :
    s.perst ns hotC = s.cold (if 85 < hotC then .held else .d0) :=
  if_neg (by simp [hp, h])

/-- What the loss of the main input leaves. -/
theorem State.lost_spec (w : Power) (s : State) : s.mainLost (s.lost w) :=
  ⟨rfl, rfl, rfl, rfl, rfl, rfl, rfl, rfl, rfl, rfl, rfl, rfl, rfl, rfl, rfl, rfl⟩

section
variable (ho : s.plat.power ≠ .off) (hc : s.plat.power ≠ .d3cold)
include ho hc

theorem State.inputRemoved_loses : s.inputRemoved = s.lost .d3cold := if_neg (by simp [ho, hc])

theorem State.trip_loses (c : TripCause) :
    s.trip c = (s.lost .d3cold).modPlat (fun p => { p with lastTrip := tripNum c, thermtrip := true }) :=
  if_neg (by simp [ho, hc])

end
end

end Sys2Proof.Machine
end

section
/-! PROOFS. The warm chip reset (R101, R423, Tables 5-6 and 5-7). -/

namespace Sys2Proof.Machine

open Sys2Proof

/-! ### The Ledger is sealed (R423) -/

/-- Only what writing the Ledger out touches may differ: its records in the Cellar, its copies for the tenants, the time stamps. -/
def State.onlySeals (s t : State) : Prop :=
  ∃ st c l o, t = { s with clk := { s.clk with stamps := st }, cellar := c, ledg := l, out := o }

theorem State.onlySeals_refl (s : State) : s.onlySeals s := ⟨s.clk.stamps, s.cellar, s.ledg, s.out, rfl⟩

theorem State.onlySeals_trans {s t u : State} (h : s.onlySeals t) (g : t.onlySeals u) : s.onlySeals u := by
  obtain ⟨st, c, l, o, rfl⟩ := h
  obtain ⟨st', c', l', o', rfl⟩ := g
  exact ⟨st', c', l', o', rfl⟩

theorem State.onlySeals_foldl {α : Type} {f : State → α → State} (hf : ∀ (s : State) x, s.onlySeals (f s x))
    (l : List α) (s : State) :
    s.onlySeals (l.foldl f s) :=
  foldl_relates State.onlySeals_refl State.onlySeals_trans hf l s

theorem State.onlySeals_modLedg (f : Ledger → Ledger) (s : State) : s.onlySeals (s.modLedg f) :=
  ⟨s.clk.stamps, s.cellar, _, s.out, rfl⟩

theorem State.onlySeals_writeView (e : Event) (s : State) (t : Nat) : s.onlySeals (s.writeView e t) := by
  unfold State.writeView
  dsimp only
  split
  · exact ⟨s.clk.stamps, s.cellar, _, _, rfl⟩
  · exact s.onlySeals_refl

theorem State.onlySeals_writeRecord (e : Event) (s : State) : s.onlySeals (s.writeRecord e) :=
  State.onlySeals_trans ⟨s.clk.stamps, _, _, s.out, rfl⟩ (State.onlySeals_foldl (State.onlySeals_writeView e) _ _)

theorem State.onlySeals_seal (s : State) : s.onlySeals s.seal := by
  unfold State.seal
  split
  · exact State.onlySeals_trans (State.onlySeals_trans ⟨_, s.cellar, s.ledg, s.out, rfl⟩ (State.onlySeals_writeRecord ..))
      (State.onlySeals_modLedg ..)
  · split
    · exact s.onlySeals_refl
    · dsimp only
      split
      · exact State.onlySeals_modLedg ..
      · exact State.onlySeals_trans (State.onlySeals_modLedg ..) (State.onlySeals_writeRecord ..)

theorem State.onlySeals_sealAll (s : State) : s.onlySeals s.sealAll := State.onlySeals_foldl (fun s _ => s.onlySeals_seal) _ s

/-! ### A pending burn (R443) -/

/-- A burn changes fuses and their status only. -/
theorem State.burn_spec (ok : Bool) (s : State) :
    ∃ p n, s.burn ok = { s with plat := p, free := n } ∧ p.ready = s.plat.ready ∧ p.lastTrip = s.plat.lastTrip := by
  unfold State.burn
  split
  · exact ⟨s.plat, s.free, rfl, rfl, rfl⟩
  · rename_i op arg hash hp
    refine ⟨_, s.free + 1, rfl, ?_, ?_⟩ <;> simp only [State.modPlat_plat] <;> split_ifs <;> rfl

/-! ### Ceilings and bound afterwards -/

theorem State.clockChanged_noRooms {s : State} (h : s.living.rooms = []) (src : Nat) (fresh : Option Nat) :
    s.clockChanged src fresh = s := by
  simp [State.clockChanged, State.roomsOn, h]

/-- With no room, a change of a ceiling begins retunes and nothing else. -/
theorem State.syncCeil_noRooms {s : State} (h : s.living.rooms = []) : ∃ i, s.syncCeil = { s with clk := { s.clk with isl := i } } := by
  refine List.foldlRecOn (motive := fun t : State => ∃ i, t = { s with clk := { s.clk with isl := i } }) _ _ ⟨s.clk.isl, rfl⟩
    (fun t ht src _ => ?_)
  obtain ⟨i, rfl⟩ := ht
  dsimp only
  split
  · exact ⟨i, rfl⟩
  · refine ⟨_, (State.clockChanged_noRooms ?_ src none).trans rfl⟩
    exact h

/-- Only the islands' clocks, the time stamps, the Ledger and the bound as last logged may differ. -/
def State.onlyCeil (s t : State) : Prop :=
  ∃ i st l b, t = { s with clk := { s.clk with isl := i, stamps := st }, ledg := l, ras := { s.ras with bound := b } }

theorem State.onlyCeil_settles {s : State} (h : s.living.rooms = []) : s.onlyCeil s.syncCeil.checkBound := by
  obtain ⟨i, hi⟩ := State.syncCeil_noRooms h
  obtain ⟨st, l, he⟩ := s.syncCeil.checkBound_eq
  exact ⟨i, st, l, s.syncCeil.boundNow, by rw [he, hi]⟩

/-! ### What the reset keeps (Table 5-6) -/

section
variable {s : State}

theorem exec_warmChipReset (c : WarmCause) (burnOk : Bool) : exec (.warmChipReset c burnOk) s = .next (s.warmReset c burnOk) := rfl

theorem State.warmReset_goes {c : WarmCause} (hm : s.mainOn = true)
    (h : ∀ v, c = .register v → fld v 0 8 = 0xA5 ∧ bitOf v 16 = true) (burnOk : Bool) : s.warmReset c burnOk = s.warm burnOk := by
  unfold State.warmReset
  cases c with
  | register v => exact if_pos (by simp [hm, h v rfl])
  | hotReset | busReset | linkDisable => exact if_pos (by simp [hm])

theorem State.warmReset_noKey {v : Word} (h : fld v 0 8 ≠ 0xA5) (burnOk : Bool) : s.warmReset (.register v) burnOk = s :=
  if_neg (by simp [h])

theorem State.warm_keeps (burnOk : Bool) (s : State) :
    let t := s.warm burnOk
    t.living = s.living.clocksOnly ∧ t.attic = s.attic.clocksOnly ∧ t.tasks = State.reset.tasks ∧ t.qm = State.reset.qm
      ∧ t.ten = State.reset.ten ∧ t.eng = State.reset.eng ∧ t.pantry = [] ∧ t.bar2 = [] ∧ t.txn.chip = .reset ∧ t.txn.rooms = []
      ∧ t.repro = State.reset.repro
      ∧ (∀ n, t.island n = { Isl.reset with frame := (s.island n).frame, frames := (s.island n).frames })
      ∧ t.pending = s.pending ∧ t.ident = s.ident ∧ t.clk.gtc = s.clk.gtc ∧ t.clk.valid = s.clk.valid
      ∧ t.plat.ready = s.plat.ready ∧ t.plat.k = 32 ∧ t.plat.lastTrip = s.plat.lastTrip ∧ t.plat.fusePending = none
      ∧ t.ras.drain = (if s.ras.drain = 2 then 2 else 0) ∧ t.ras.record = s.ras.record := by
  obtain ⟨st, c, l, o, hseal⟩ := s.onlySeals_sealAll
  obtain ⟨p, n, hburn, hready, htrip⟩ := s.sealAll.burn_spec burnOk
  rw [hseal] at hburn hready htrip
  intro t
  have h : State.onlyCeil _ t := State.onlyCeil_settles rfl
  rw [hseal, hburn] at h
  obtain ⟨i, st', l', b, h⟩ := h
  rw [h]
  refine ⟨rfl, rfl, rfl, rfl, rfl, rfl, rfl, rfl, rfl, rfl, rfl, fun n => ?_, rfl, rfl, rfl, rfl, hready, rfl, htrip, rfl, rfl, rfl⟩
  show NMap.getD (NMap.mapV s.isl (fun _ i => { Isl.reset with frame := i.frame, frames := i.frames })) n .reset = _
  unfold State.island NMap.getD
  rw [NMap.find?_mapV]
  cases NMap.find? s.isl n <;> rfl

end

end Sys2Proof.Machine
end

section
/-! PROOFS. Boot (R432–R435). -/

namespace Sys2Proof.Machine

open Sys2Proof

/-! ### The GTC starts, and the Cellar is trained (R33, R35, R433) -/

theorem State.measureTree_only (s : State) : ∃ i n, s.measureTree = { s with clk := { s.clk with isl := i }, free := n } := by
  refine List.foldlRecOn (motive := fun t : State => ∃ i n, t = { s with clk := { s.clk with isl := i }, free := n }) _ _
    ⟨s.clk.isl, s.free, rfl⟩ (fun t ht src _ => ?_)
  obtain ⟨i, n, rfl⟩ := ht
  exact ⟨_, n + 2, rfl⟩

/-- The GTC is valid, and has run for no longer than boot has. -/
theorem State.startGtc_spec (ms : Nat) (s : State) :
    ∃ g i n, s.startGtc ms = { s with clk := { s.clk with valid := true, gtc := g, isl := i }, free := n } ∧ g ≤ ms * 1000000 := by
  obtain ⟨i, n, h⟩ := State.measureTree_only (s.draw.2.modClk (fun c =>
    { c with valid := true, gtc := (Config.freeValue s.free).toNat % (ms * 1000000 + 1) }))
  exact ⟨_, i, n, h, Nat.le_of_lt_succ (Nat.mod_lt _ (Nat.succ_pos _))⟩

/-- Cellar controllers trained. -/
def State.trained (l : List Nat) (s : State) : State := l.foldl (fun s c => s.modCctl c (fun x => { x with trained := true })) s

theorem State.trained_only (l : List Nat) (s : State) : { s.trained l with cellar := s.cellar } = s :=
  List.foldlRecOn (motive := fun t : State => { t with cellar := s.cellar } = s) l _ rfl (fun _ h _ _ => h)

theorem State.trained_cctl (l : List Nat) (s : State) (c : Nat) :
    (s.trained l).cctl c = if c ∈ l then { s.cctl c with trained := true } else s.cctl c := by
  induction l generalizing s with
  | nil => rfl
  | cons x r ih =>
    refine (ih (s.modCctl x _)).trans ?_
    rw [State.cctl_modCctl]
    by_cases h : x = c
    · subst h; simp
    · simp [h, Ne.symm h]

/-! ### BOOT_READY -/

section
variable {s : State} {b : BootIn}

theorem exec_bootReady (b : BootIn) : exec (.bootReady b) s = .next (s.bootReady b) := rfl

/-- The device is at STAGE 0, powered, and neither READY nor in recovery. -/
def State.boots (s : State) : Prop :=
  (s.plat.power = .d0 ∨ s.plat.power = .held) ∧ s.plat.ready = false ∧ s.plat.recovery = false ∧ s.plat.stage = 0

/-- The link as boot has trained it. -/
def State.bootBegins (b : BootIn) (s : State) : State :=
  s.modPlat (fun p => { p with power := .d0, speed := b.speed, width := b.width
                               degraded := decide (b.speed < 4) || decide (b.width < 4) })

/-- Recovery, with what failed (R435). -/
def State.recovers (fail : Nat) (s : State) : State := s.modPlat (fun p => { p with recovery := true, fail := fail })

/-- The image to run: the one to try next where the ROM accepts it, else the other (R433). -/
def State.bootImage (s : State) : Nat := if s.plat.imageOk s.plat.next then s.plat.next else 1 - s.plat.next

/-- The image runs. -/
def State.runsImage (i : Nat) (s : State) : State :=
  s.modPlat (fun p => { p with image := i, next := i, svnFw := p.imageSvn i, fail := if i = p.next then 0 else 1 })

/-- An image runs, and the GTC has started. -/
def State.bootStarts (b : BootIn) (s : State) : State := ((s.bootBegins b).runsImage s.bootImage).startGtc b.bootMs

/-- Training has failed (R434). -/
def State.bootStops (s : State) : State := s.modPlat (fun p => { p with stage := 4, fail := 5 })

/-- The device is READY. -/
def State.bootEnds (ms : Nat) (s : State) : State := s.modPlat (fun p => { p with stage := 7, ready := true, bootMs := ms % 65536 })

variable (h : s.boots)
include h

theorem State.boots_goes :
    ((s.plat.power != .d0 && s.plat.power != .held) || s.plat.ready || s.plat.recovery || s.plat.stage != 0) = false := by
  obtain ⟨hp, hr, hc, hs⟩ := h
  rcases hp with hp | hp <;> simp [hp, hr, hc, hs]

theorem State.bootReady_noFuses (hf : b.fuseOk = false) : s.bootReady b = (s.bootBegins b).recovers 4 := by
  simp only [State.bootReady, State.boots_goes h, hf, Bool.false_eq_true, if_false, Bool.not_false, if_true]
  rfl

theorem State.bootReady_noImage (hf : b.fuseOk = true) (h0 : s.plat.imageOk s.plat.next = false)
    (h1 : s.plat.imageOk (1 - s.plat.next) = false) : ∃ f, (f = 2 ∨ f = 3) ∧ s.bootReady b = (s.bootBegins b).recovers f := by
  have hnone : (!(s.bootBegins b).plat.imageOk (s.bootBegins b).plat.next
      && !(s.bootBegins b).plat.imageOk (1 - (s.bootBegins b).plat.next)) = true := by
    rw [show (s.bootBegins b).plat.imageOk (s.bootBegins b).plat.next = false from h0,
      show (s.bootBegins b).plat.imageOk (1 - (s.bootBegins b).plat.next) = false from h1]
    rfl
  unfold State.bootReady
  rw [if_neg (by simp [State.boots_goes h])]
  dsimp only
  rw [if_neg (by simp [hf])]
  refine ⟨_, ?_, if_pos hnone⟩
  split
  · exact .inr rfl
  · exact .inl rfl

/-- With an image to run, the GTC starts, and training decides how boot ends. -/
theorem State.bootReady_runs (hf : b.fuseOk = true) (hi : s.plat.imageOk s.bootImage = true) :
    s.bootReady b = if !b.trainOk then (s.bootStarts b).bootStops else ((s.bootStarts b).bootEnds b.bootMs).trained (List.range 4) := by
  have hsome : ¬(!(s.bootBegins b).plat.imageOk (s.bootBegins b).plat.next
      && !(s.bootBegins b).plat.imageOk (1 - (s.bootBegins b).plat.next)) = true := by
    show ¬(!s.plat.imageOk s.plat.next && !s.plat.imageOk (1 - s.plat.next)) = true
    unfold State.bootImage at hi
    split at hi <;> simp [hi]
  unfold State.bootReady
  rw [if_neg (by simp [State.boots_goes h])]
  dsimp only
  rw [if_neg (by simp [hf])]
  exact if_neg hsome

end

theorem State.recovers_led (f : Nat) (s : State) : (s.recovers f).led = .slow := if_pos rfl

/-- What boot leaves of the rest where an image runs. -/
theorem State.bootStarts_spec (b : BootIn) (s : State) :
    ∃ g j n, s.bootStarts b
        = { s with clk := { s.clk with valid := true, gtc := g, isl := j }, free := n
                   plat := ((s.bootBegins b).runsImage s.bootImage).plat }
      ∧ g ≤ b.bootMs * 1000000 :=
  State.startGtc_spec b.bootMs ((s.bootBegins b).runsImage s.bootImage)

end Sys2Proof.Machine
end

section
/-! PROOFS. What each reset of the device keeps, and boot. -/

namespace Sys2Proof.Machine

open Sys2Proof

/-- Settles O44: cold resets, losses of the main domain and the warm reset by what they keep; boot by the fuses, the images and
the training. -/
theorem resetsOfTheDeviceKeepTheirState : Obligations.ResetsOfTheDeviceKeepTheirState := by
  unfold Obligations.ResetsOfTheDeviceKeepTheirState
  intro s
  refine ⟨?cold, ?filtered, ⟨_, exec_powerOn, s.powerOn_mainLost, rfl, rfl, rfl⟩, fun ho hc => ⟨?removed, ?trip⟩,
    fun c burnOk hm => ⟨?warm, ?noKey⟩, fun b hp hr hrec hs => ⟨?recovery, ?runs⟩⟩
  case cold =>
    intro ns hotC hp hns
    obtain ⟨hlost, hpower, hnonce, hfree, htherm, htrip⟩ := s.cold_spec (if 85 < hotC then .held else .d0)
    exact ⟨_, (exec_perst ns hotC).trans (congrArg Host.Outcome.next (State.perst_colds hp hns hotC)), hlost, hpower, hnonce, hfree,
      htherm, htrip⟩
  case filtered => exact fun ns hotC h => congrArg Host.Outcome.next (State.perst_filtered h hotC)
  case removed =>
    exact ⟨_, exec_mainInputRemoved.trans (congrArg Host.Outcome.next (State.inputRemoved_loses ho hc)), s.lost_spec .d3cold, rfl, rfl,
      rfl, rfl⟩
  case trip =>
    intro c
    refine ⟨_, (exec_thermalTrip c).trans (congrArg Host.Outcome.next (State.trip_loses ho hc c)),
      State.mainLost_tripped (s.lost_spec .d3cold) _ _, rfl, rfl, ?_⟩
    cases c <;> rfl
  case warm =>
    intro hkey
    exact ⟨_, (exec_warmChipReset c burnOk).trans (congrArg Host.Outcome.next (State.warmReset_goes hm hkey burnOk)),
      s.warm_keeps burnOk⟩
  case noKey =>
    intro v hv hkey
    subst hv
    exact congrArg Host.Outcome.next (State.warmReset_noKey hkey burnOk)
  case recovery =>
    have hboots : s.boots := ⟨hp, hr, hrec, hs⟩
    intro hbad
    cases hf : b.fuseOk with
    | false =>
      exact ⟨_, (exec_bootReady b).trans (congrArg Host.Outcome.next (State.bootReady_noFuses hboots hf)), rfl, hr, rfl, fun _ => rfl,
        nofun, State.recovers_led .., rfl⟩
    | true =>
      obtain ⟨h0, h1⟩ := hbad.resolve_left (by simp [hf])
      obtain ⟨f, hfail, he⟩ := State.bootReady_noImage hboots hf h0 h1
      exact ⟨_, (exec_bootReady b).trans (congrArg Host.Outcome.next he), rfl, hr, rfl, nofun, fun _ => hfail,
        State.recovers_led .., rfl⟩
  case runs =>
    intro hf hi
    have hrun := State.bootReady_runs (b := b) ⟨hp, hr, hrec, hs⟩ hf hi
    obtain ⟨g, j, n, hstart, hg⟩ := s.bootStarts_spec b
    rw [hstart] at hrun
    cases ht : b.trainOk with
    | true =>
      rw [if_neg (by simp [ht])] at hrun
      refine ⟨_, (exec_bootReady b).trans (congrArg Host.Outcome.next hrun), rfl, rfl, rfl, rfl, hg, rfl,
        fun _ => ⟨rfl, rfl, rfl, fun c hc => ?_⟩, nofun⟩
      exact (State.trained_cctl ..).trans (if_pos (List.mem_range.mpr hc))
    | false =>
      rw [if_pos (by simp [ht])] at hrun
      refine ⟨_, (exec_bootReady b).trans (congrArg Host.Outcome.next hrun), rfl, rfl, rfl, rfl, hg, rfl, nofun,
        fun _ => ⟨hr, rfl, rfl, ?_, rfl⟩⟩
      exact (if_neg (Bool.eq_false_iff.mp hrec)).trans (if_pos ⟨rfl, rfl⟩)

end Sys2Proof.Machine
end

section
/-! PROOFS. Reads of the owner's memory, and the ring entries that a queue asks for (R111, R117, R120). -/

namespace Sys2Proof.Machine

open Sys2Proof

/-! ### Reads of host memory (R120, R463) -/

/-- The requests of a read, of at most 512 bytes each. -/
def readRequests (fn addr len : Nat) : List OutMsg :=
  (List.range (cdiv len 512)).map (fun i => .hostRead fn (addr + 512 * i) (min 512 (len - 512 * i)))

theorem mem_readRequests {fn addr len : Nat} {m : OutMsg} (h : m ∈ readRequests fn addr len) :
    ∃ a l, m = .hostRead fn a l ∧ l ≤ 512 := by
  obtain ⟨i, -, rfl⟩ := List.mem_map.mp h
  exact ⟨_, _, rfl, Nat.min_le_left ..⟩

/-- Messages leave the device. -/
def State.sendAll (ms : List OutMsg) (s : State) : State := { s with out := { s.out with msgs := s.out.msgs ++ ms } }

theorem State.sendAll_sendAll (l r : List OutMsg) (s : State) : (s.sendAll l).sendAll r = s.sendAll (l ++ r) := by
  simp [State.sendAll]

theorem State.sends_foldl {α : Type} (f : α → OutMsg) (l : List α) (s : State) :
    l.foldl (fun s x => s.send (f x)) s = s.sendAll (l.map f) := by
  induction l generalizing s with
  | nil => simp [State.sendAll]
  | cons x r ih => exact (ih _).trans (State.sendAll_sendAll [f x] (r.map f) s)

theorem State.hostReads_eq (fn addr len : Nat) (s : State) : s.hostReads fn addr len = s.sendAll (readRequests fn addr len) :=
  State.sends_foldl (fun i => .hostRead fn (addr + 512 * i) (min 512 (len - 512 * i))) _ s

/-! ### Ring entries asked for (R111, R117) -/

/-- Queue `k` and the reads of its owner's memory may differ, nothing else. -/
def State.onlyReads (k : Nat) (s t : State) : Prop :=
  { t with qm := s.qm, out := s.out } = s ∧ (∀ j, j ≠ k → t.queue j = s.queue j)
    ∧ ∃ ms, t.out = { s.out with msgs := s.out.msgs ++ ms }
        ∧ ∀ m ∈ ms, ∃ a l, m = .hostRead ((s.queueOwner k).getD 0) a l ∧ l ≤ 512

/-- What asking for ring entries does: reads leave, and the queue knows what it has asked for. -/
theorem State.ringAsk_asks (k : Nat) (s : State) :
    ∃ qs ms, s.ringAsk k = ({ s with qm := { s.qm with queues := qs } } : State).sendAll ms
      ∧ (∀ j, j ≠ k → NMap.getD qs j .reset = s.queue j)
      ∧ (∃ n, NMap.getD qs k .reset = { s.queue k with asked := n }
          ∧ ((s.queue k).active = true → ((s.queue k).mode = 1 ∨ (s.queue k).mode = 2) → s.ownerActive k = true →
              n = max (s.queue k).asked (s.queue k).fetchable))
      ∧ ∀ m ∈ ms, ∃ a l, m = .hostRead ((s.queueOwner k).getD 0) a l ∧ l ≤ 512 := by
  unfold State.ringAsk
  dsimp only
  split
  · rw [State.hostReads_eq, State.hostReads_eq, State.sendAll_sendAll]
    have hn : (s.queue k).asked + ((s.queue k).fetchable - (s.queue k).asked) = max (s.queue k).asked (s.queue k).fetchable := by omega
    refine ⟨_, _, rfl, fun j hj => ?_, ⟨_, ?_, fun _ _ _ => hn⟩, fun m hm => ?_⟩
    · exact (NMap.getD_upd ..).trans (if_neg (Ne.symm hj))
    · exact (NMap.getD_upd ..).trans (if_pos rfl)
    · rcases List.mem_append.mp hm with hm | hm <;> exact mem_readRequests hm
  · rename_i h
    refine ⟨s.qm.queues, [], by simp [State.sendAll], fun _ _ => rfl, ⟨(s.queue k).asked, rfl, fun ha hm ho => ?_⟩, nofun⟩
    have hn : (s.queue k).fetchable - (s.queue k).asked = 0 := by
      rcases hm with hm | hm <;> simpa [ha, hm, ho] using h
    omega

theorem State.ringAsk_queue (k : Nat) (s : State) :
    (s.ringAsk k).queue k = { s.queue k with asked := ((s.ringAsk k).queue k).asked } := by
  obtain ⟨qs, ms, h, -, ⟨n, hk, -⟩, -⟩ := s.ringAsk_asks k
  have hq : (s.ringAsk k).queue k = { s.queue k with asked := n } := by rw [h]; exact hk
  rw [hq]

theorem State.ringAsk_asked {k : Nat} {s : State} (ha : (s.queue k).active = true)
    (hm : (s.queue k).mode = 1 ∨ (s.queue k).mode = 2) (ho : s.ownerActive k = true) :
    ((s.ringAsk k).queue k).asked = max (s.queue k).asked (s.queue k).fetchable := by
  obtain ⟨qs, ms, h, -, ⟨n, hk, hn⟩, -⟩ := s.ringAsk_asks k
  have hq : (s.ringAsk k).queue k = { s.queue k with asked := n } := by rw [h]; exact hk
  rw [hq]
  exact hn ha hm ho

theorem State.ringAsk_queue_other {k j : Nat} (hj : j ≠ k) (s : State) : (s.ringAsk k).queue j = s.queue j := by
  obtain ⟨qs, ms, h, ho, -, -⟩ := s.ringAsk_asks k
  rw [h]
  exact ho j hj

theorem State.ringAsk_fnq (k fn : Nat) (s : State) : (s.ringAsk k).fnq fn = s.fnq fn ∧ (s.ringAsk k).living = s.living := by
  obtain ⟨qs, ms, h, -, -, -⟩ := s.ringAsk_asks k
  rw [h]
  exact ⟨rfl, rfl⟩

/-- Entries asked for once only queue `k` has changed. -/
theorem State.onlyReads_ringAsk {k : Nat} {s u : State} (h : { u with qm := s.qm } = s) (hj : ∀ j, j ≠ k → u.queue j = s.queue j) :
    s.onlyReads k (u.ringAsk k) := by
  obtain ⟨qs, ms, he, ho, -, hms⟩ := u.ringAsk_asks k
  have hout : u.out = s.out := (congrArg State.out h :)
  have howner : u.queueOwner k = s.queueOwner k := (congrArg (fun x : State => x.queueOwner k) h :)
  rw [he]
  refine ⟨(congrArg (fun x : State => { x with out := s.out }) h :), fun j hne => (ho j hne).trans (hj j hne), ms, ?_, ?_⟩
  · rw [← hout]; rfl
  · rw [← howner]; exact hms

end Sys2Proof.Machine
end

section
/-! PROOFS. QCFG, doorbells and scan control (R96, R110, R117, R120, Table 6-1). -/

namespace Sys2Proof.Machine

open Sys2Proof

@[simp] theorem State.fnq_modQueue (q fn : Nat) (f : Queue → Queue) (s : State) : (s.modQueue q f).fnq fn = s.fnq fn := rfl

/-! ### QCFG posts its result (R110) -/

/-- The function's last OP named queue `q`, which is now `x`; beside the page's registers nothing else differs. -/
def State.posts (fn q : Nat) (x : Queue) (s t : State) : Prop :=
  (t.fnq fn).lastOpQ = some q ∧ t.queue q = x ∧ (∀ k, k ≠ q → t.queue k = s.queue k) ∧ { t with qm := s.qm, bar2 := s.bar2 } = s

section
variable {s u : State} {fn q : Nat} (hu : { u with qm := s.qm, bar2 := s.bar2 } = s) (hq : ∀ k, k ≠ q → u.queue k = s.queue k)
include hu hq

theorem State.postQcfg_owned (ho : s.ownsQueue fn q = true) (r : Nat) :
    s.posts fn q { u.queue q with lastRes := r } (u.postQcfg fn q r) := by
  have ho' : u.ownsQueue fn q = true := (congrArg (fun x : State => x.ownsQueue fn q) hu :).trans ho
  have he : u.postQcfg fn q r = (u.modFnq fn (fun f => { f with lastOpQ := some q })).modQueue q (fun x => { x with lastRes := r }) :=
    if_pos ho'
  rw [he]
  refine ⟨?_, ?_, fun k hk => ?_, hu⟩
  · rw [State.fnq_modQueue, State.fnq_modFnq, if_pos rfl]
  · exact (State.queue_modQueue ..).trans (if_pos rfl)
  · exact ((State.queue_modQueue ..).trans (if_neg (Ne.symm hk))).trans (hq k hk)

theorem State.postQcfg_foreign (ho : s.ownsQueue fn q = false) (r : Nat) : s.posts fn q (u.queue q) (u.postQcfg fn q r) := by
  have ho' : u.ownsQueue fn q = false := (congrArg (fun x : State => x.ownsQueue fn q) hu :).trans ho
  have he : u.postQcfg fn q r = u.modFnq fn (fun f => { f with lastOpQ := some q }) := if_neg (Bool.eq_false_iff.mp ho')
  rw [he]
  refine ⟨?_, rfl, hq, hu⟩
  rw [State.fnq_modFnq, if_pos rfl]

end

/-! ### QUEUE_ACTIVATE and QUEUE_DEACTIVATE (R110) -/

section
variable {s : State} {fn : Fn} {mode log2 : Nat}

theorem exec_queueActivate (fn : Fn) (mode log2 : Nat) : exec (.queueActivate fn mode log2) s = .next (s.queueCtrl fn 1 mode log2) := rfl
theorem exec_queueDeactivate (fn : Fn) : exec (.queueDeactivate fn) s = .next (s.deactivate fn) := rfl

/-- The queue that QCFG_SEL names, and the ring address that QCFG_RING holds. -/
def State.cfgQueue (s : State) (fn : Nat) : Nat := fld (s.b2 fn 0x3000) 0 17
def State.cfgRing (s : State) (fn : Nat) : Nat := (s.b2 fn 0x3008).toNat / 4096 * 4096

/-- MODE as taken: 3 stands for 0. -/
def cfgMode (mode : Nat) : Nat := if mode = 3 then 0 else mode

/-- A ring that modes 1 and 2 do not take. -/
def State.badRing (s : State) (fn mode log2 : Nat) : Prop := cfgMode mode ≠ 0 ∧ (s.cfgRing fn = 0 ∨ log2 < 4 ∨ 16 < log2)

/-- MODE and RING_LOG2 have landed in the page. -/
def State.ctrlLanded (fn mode log2 : Nat) (s : State) : State := s.setB2 fn 0x3010 (packW [(0, 2, mode), (4, 5, log2)])

/-- The queue with its new settings. -/
def Queue.configured (mode ring log2 : Nat) (r : Queue) : Queue :=
  { r with active := true, mode := mode, ring := ring, log2 := log2, head := 0, tail := 0, asked := 0 }

/-- An OP on a queue leaves it but for its result, or gives it the settings. -/
def State.activated (s : State) (fn mode log2 : Nat) : State :=
  (s.modQueue (s.cfgQueue fn) (Queue.configured (cfgMode mode) (s.cfgRing fn) log2)).postQcfg fn (s.cfgQueue fn) 0

theorem State.ctrlLanded_cfg (fn mode log2 : Nat) (s : State) :
    (s.ctrlLanded fn mode log2).cfgQueue fn = s.cfgQueue fn ∧ (s.ctrlLanded fn mode log2).cfgRing fn = s.cfgRing fn := by
  simp [State.cfgQueue, State.cfgRing, State.ctrlLanded]

variable (ha : s.tenActive fn = true)
include ha

theorem State.queueCtrl_activates : s.queueCtrl fn 1 mode log2 = (s.ctrlLanded fn mode log2).activate fn mode log2 :=
  if_neg (by simp [ha])

theorem State.activate_foreign (ho : s.ownsQueue fn (s.cfgQueue fn) = false) :
    s.activate fn mode log2 = s.postQcfg fn (s.cfgQueue fn) 1 := by
  unfold State.cfgQueue at ho
  simp [State.activate, State.cfgQueue, ha, ho]

theorem State.deactivate_holding (ho : s.ownsQueue fn (s.cfgQueue fn) = true) (hh : (s.queue (s.cfgQueue fn)).holds ≠ 0) :
    s.deactivate fn = s.postQcfg fn (s.cfgQueue fn) 3 := by
  unfold State.cfgQueue at ho hh
  simp [State.deactivate, State.cfgQueue, ha, ho, hh]

theorem State.deactivate_goes (ho : s.ownsQueue fn (s.cfgQueue fn) = true) (hh : (s.queue (s.cfgQueue fn)).holds = 0) :
    s.deactivate fn
      = (s.modQueue (s.cfgQueue fn) (fun r => { r with active := false, asked := 0 })).postQcfg fn (s.cfgQueue fn) 0 := by
  unfold State.cfgQueue at ho hh
  simp [State.deactivate, State.cfgQueue, ha, ho, hh]

variable (ho : s.ownsQueue fn (s.cfgQueue fn) = true)
include ho

theorem State.activate_unmapped (hr : s.queueRing (s.cfgQueue fn) = none) :
    s.activate fn mode log2 = s.postQcfg fn (s.cfgQueue fn) 2 := by
  unfold State.cfgQueue at ho hr
  simp [State.activate, State.cfgQueue, ha, ho, hr]

variable {cr : Nat} (hr : s.queueRing (s.cfgQueue fn) = some cr)
include hr

theorem State.activate_mapped :
    s.activate fn mode log2
      = if cfgMode mode != 0 && (s.cfgRing fn == 0 || decide (log2 < 4) || decide (16 < log2)) then s.postQcfg fn (s.cfgQueue fn) 4
        else if !(s.ring cr).enabled then s.postQcfg fn (s.cfgQueue fn) 5 else s.activated fn mode log2 := by
  unfold State.cfgQueue at ho hr
  simp only [State.activate, ha, ho, hr, Bool.not_true, Bool.false_eq_true, if_false]
  rfl

theorem State.activate_badRing (hb : s.badRing fn mode log2) : s.activate fn mode log2 = s.postQcfg fn (s.cfgQueue fn) 4 := by
  obtain ⟨hm, hb⟩ := hb
  rw [State.activate_mapped ha ho hr, if_pos (by simpa [hm, or_assoc] using hb)]

variable (hb : ¬s.badRing fn mode log2)
include hb

theorem State.activate_goodRing :
    s.activate fn mode log2
      = if !(s.ring cr).enabled then s.postQcfg fn (s.cfgQueue fn) 5 else s.activated fn mode log2 := by
  rw [State.activate_mapped ha ho hr, if_neg]
  simpa [State.badRing, or_assoc] using hb

end

/-! ### A new TAIL (R96, R117, R120) -/

section
variable {s : State} {m fn q tail : Nat}

theorem exec_doorbell {fn : Fn} (ha : s.tenActive fn = true) (v : Word) :
    exec (.doorbell fn v) s = .next (s.newTail 1 fn (fld v 0 17) (fld v 32 32)) :=
  congrArg Host.Outcome.next (if_pos ha)

/-- A queue of the mode takes a TAIL that runs ahead of the known one by at most the ring's size. -/
def State.takesTail (s : State) (m q tail : Nat) : Prop :=
  (s.queue q).active = true ∧ (s.queue q).mode = m ∧ (tail + 2 ^ 32 - (s.queue q).tail) % 2 ^ 32 ≤ 2 ^ (s.queue q).log2

/-- The queue with its new TAIL. -/
def State.tailed (q tail : Nat) (s : State) : State := s.modQueue q (fun r => { r with tail := tail })

theorem State.tailed_queue (q tail : Nat) (s : State) : (s.tailed q tail).queue q = { s.queue q with tail := tail } :=
  (State.queue_modQueue ..).trans (if_pos rfl)

theorem State.tailed_queue_other {j : Nat} (hj : j ≠ q) (s : State) : (s.tailed q tail).queue j = s.queue j :=
  (State.queue_modQueue ..).trans (if_neg (Ne.symm hj))

theorem State.newTail_foreign (ho : s.ownsQueue fn q = false) : s.newTail m fn q tail = s.queueViol fn q := if_pos (by simp [ho])

theorem State.newTail_takes (ho : s.ownsQueue fn q = true) (h : s.takesTail m q tail) :
    s.newTail m fn q tail = (s.tailed q tail).ringAsk q := by
  obtain ⟨hact, hmode, hfits⟩ := h
  unfold State.newTail
  rw [if_neg (by simp [ho])]
  exact if_pos (by simp [hact, hmode, Queue.ringSize, hfits, -Nat.reducePow])

theorem State.newTail_stale (ho : s.ownsQueue fn q = true) (h : ¬s.takesTail m q tail) :
    s.newTail m fn q tail = s.modQm (fun k => { k with staleDb := wrap1 16 k.staleDb }) := by
  unfold State.newTail
  rw [if_neg (by simp [ho])]
  refine if_neg (fun hc => h ?_)
  simp only [Bool.and_eq_true, beq_iff_eq, decide_eq_true_eq] at hc
  exact ⟨hc.1.1, hc.1.2, hc.2⟩

/-- A TAIL taken: the queue has it, and asks for what may now be read. -/
theorem State.newTail_spec (ho : s.ownsQueue fn q = true) (h : s.takesTail m q tail) (hm : m = 1 ∨ m = 2) :
    s.onlyReads q (s.newTail m fn q tail)
      ∧ (s.newTail m fn q tail).queue q = { s.queue q with tail := tail, asked := ((s.newTail m fn q tail).queue q).asked }
      ∧ (s.ownerActive q = true → ((s.newTail m fn q tail).queue q).asked
          = max (s.queue q).asked ({ s.queue q with tail := tail } : Queue).fetchable) := by
  rw [State.newTail_takes ho h]
  obtain ⟨hact, hmode, -⟩ := h
  refine ⟨State.onlyReads_ringAsk rfl (fun j hj => State.tailed_queue_other hj s), ?_, fun hown => ?_⟩
  · have hq := State.ringAsk_queue q (s.tailed q tail)
    rw [State.tailed_queue] at hq
    exact hq
  · have hq := State.ringAsk_asked (k := q) (s := s.tailed q tail) (by rw [State.tailed_queue]; exact hact)
      (by rw [State.tailed_queue]; exact hmode ▸ hm) hown
    rw [State.tailed_queue] at hq
    exact hq

/-- What a queue violation leaves of the queue manager and the tenant. -/
theorem State.queueViol_counts (s : State) (fn q : Nat) :
    (s.queueViol fn q).tenant fn
        = { s.tenant fn with violQ := sat1 16 (s.tenant fn).violQ, lastQ := q, fault := setBit (s.tenant fn).fault 2 }
      ∧ (s.queueViol fn q).qm.queues = s.qm.queues ∧ (s.queueViol fn q).qm.viol = wrap1 16 s.qm.viol
      ∧ (∀ j, ((s.queueViol fn q).fnq j).scanned = (s.fnq j).scanned) := by
  obtain ⟨st, l, h⟩ := State.onlyEvents_emit 0x90 2 1 fn 2 [q] (s.queueViolated fn q)
  rw [State.queueViol_eq, h]
  refine ⟨s.queueViolated_tenant fn q, rfl, rfl, fun j => ?_⟩
  refine (congrArg FnQ.scanned (State.fnq_modFnq (s.modQm (fun m => { m with viol := wrap1 16 m.viol })) fn j
    (fun f => { f with dirty := true }))).trans ?_
  split
  · rename_i hj; rw [hj]; rfl
  · rfl

end

/-! ### SCAN_CTRL and the scan (R120) -/

section
variable {s : State} {fn : Fn}

theorem exec_scanCtrlWrite (fn : Fn) (v : Word) : exec (.scanCtrlWrite fn v) s = .next (s.scanCtrl fn v) := rfl

/-- Fields of SCAN_CTRL that enable scanning. -/
def TenantCfg.scanOk (tc : TenantCfg) (v : Word) : Prop :=
  bitOf v 48 = true ∧ tc.qbase ≤ fld v 0 17 ∧ fld v 0 17 + fld v 17 13 ≤ tc.qbase + tc.qcount
    ∧ 1 ≤ fld v 17 13 ∧ fld v 17 13 ≤ 4096 ∧ 1 ≤ fld v 32 10 ∧ fld v 32 10 ≤ 1000

/-- The bits of SCAN_CTRL that land. -/
def scanKept (v : Word) : Word := v &&& maskW [(0, 30), (32, 10), (48, 1)]

/-- SCAN_CTRL as it lands, with scanning on or off. -/
def State.scanSet (fn : Nat) (v : Word) (ok : Bool) (s : State) : State :=
  (s.setB2 fn 0x3058 (if ok then scanKept v else clrBit (scanKept v) 48)).modFnq fn (fun f =>
    { f with scanOn := ok, scanned := if ok && !f.scanOn then [] else f.scanned })

theorem State.scanSet_spec (fn : Nat) (v : Word) (ok : Bool) (s : State) :
    ((s.scanSet fn v ok).fnq fn).scanOn = ok
      ∧ (s.scanSet fn v ok).b2 fn 0x3058 = (if ok then scanKept v else clrBit (scanKept v) 48)
      ∧ { s.scanSet fn v ok with qm := s.qm, bar2 := s.bar2 } = s := by
  refine ⟨?_, ?_, rfl⟩
  · rw [State.scanSet, State.fnq_modFnq, if_pos rfl]
  · exact (State.b2_setB2 ..).trans (if_pos ⟨rfl, rfl⟩)

theorem State.scanCtrl_sets {tc : TenantCfg} (ha : s.tenActive fn = true) (htc : s.tenantCfg? fn = some tc) (v : Word) :
    ∃ ok, s.scanCtrl fn v = s.scanSet fn v ok ∧ (ok = true ↔ tc.scanOk v) := by
  unfold State.scanCtrl
  rw [htc]
  dsimp only
  rw [if_neg (by simp [ha])]
  refine ⟨_, rfl, ?_⟩
  simp [TenantCfg.scanOk, and_assoc]

theorem exec_ringScan (fn : Fn) (data : Bytes) (err : Bool) :
    exec (.ringScan fn data err) s = .next (if err then s.scanRead fn else (s.scanRead fn).scanned fn data) := rfl

theorem State.scan_off (h : (s.fnq fn).scanOn = false) (data : Bytes) :
    s.scanRead fn = s ∧ s.scanned fn data = s :=
  ⟨if_neg (by simp [h]), if_pos (by simp [h])⟩

/-- The requests that read the scan block. -/
def State.scanBlock (s : State) (fn : Nat) : List OutMsg :=
  readRequests fn ((s.b2 fn 0x3050).toNat / 4096 * 4096) (4 * fld (s.b2 fn 0x3058) 17 13)

theorem State.scanRead_reads (ha : s.tenActive fn = true) (h : (s.fnq fn).scanOn = true) :
    s.scanRead fn = s.sendAll (s.scanBlock fn) := by
  unfold State.scanRead
  rw [if_pos (by simp [h, ha])]
  exact State.hostReads_eq ..

/-- Word `k` of the scan block, as read. -/
def scanWord (data : Bytes) (k : Nat) : Nat := leAt data (4 * k) 4

/-- The first queue that the scan block speaks of. -/
def scanFirst (c : Word) : Nat := fld c 0 17

/-- The last scan read `w` as word `k`. -/
def State.scanNoted (fn k w : Nat) (s : State) : State := s.modFnq fn (fun f => { f with scanned := NMap.set f.scanned k w })

/-- One word of the scan block taken up. -/
def State.scanTakes (fn : Nat) (c : Word) (data : Bytes) (s : State) (k : Nat) : State :=
  if NMap.getD (s.fnq fn).scanned k 0 == scanWord data k then s
  else
    let s := s.scanNoted fn k (scanWord data k)
    if !s.ownsQueue fn (scanFirst c + k) then s.queueViol fn (scanFirst c + k)
    else if (s.queue (scanFirst c + k)).mode == 2 then s.newTail 2 fn (scanFirst c + k) (scanWord data k) else s

theorem State.scanned_eq (ha : s.tenActive fn = true) (h : (s.fnq fn).scanOn = true) (data : Bytes) :
    s.scanned fn data
      = (List.range (min (fld (s.b2 fn 0x3058) 17 13) (data.length / 4))).foldl (State.scanTakes fn (s.b2 fn 0x3058) data) s :=
  if_neg (by simp [h, ha])

end

/-- The Living set, a queue, and word `k` of the last scan stay. -/
def State.keepsScan (fn x k : Nat) (s t : State) : Prop :=
  t.living = s.living ∧ t.queue x = s.queue x ∧ NMap.getD (t.fnq fn).scanned k 0 = NMap.getD (s.fnq fn).scanned k 0

section
variable {fn x k : Nat}

theorem State.keepsScan_refl (s : State) : s.keepsScan fn x k s := ⟨rfl, rfl, rfl⟩

theorem State.keepsScan_trans {s t u : State} (h : s.keepsScan fn x k t) (g : t.keepsScan fn x k u) : s.keepsScan fn x k u :=
  ⟨g.1.trans h.1, g.2.1.trans h.2.1, g.2.2.trans h.2.2⟩

theorem State.keepsScan_queueViol (q : Nat) (s : State) : s.keepsScan fn x k (s.queueViol fn q) := by
  obtain ⟨-, hq, honly⟩ := s.queueViol_spec fn q
  exact ⟨(congrArg State.living honly :), hq x, by rw [(s.queueViol_counts fn q).2.2.2]⟩

theorem State.keepsScan_newTail {m q : Nat} (h : q ≠ x) (tail : Nat) (s : State) : s.keepsScan fn x k (s.newTail m fn q tail) := by
  cases ho : s.ownsQueue fn q with
  | false => rw [State.newTail_foreign ho]; exact State.keepsScan_queueViol q s
  | true =>
    by_cases ht : s.takesTail m q tail
    · obtain ⟨hfnq, hliving⟩ := State.ringAsk_fnq q fn (s.tailed q tail)
      rw [State.newTail_takes ho ht]
      refine ⟨hliving, (State.ringAsk_queue_other (Ne.symm h) _).trans (State.tailed_queue_other (Ne.symm h) s), ?_⟩
      rw [hfnq]; rfl
    · rw [State.newTail_stale ho ht]; exact s.keepsScan_refl

/-- Another word leaves the queue of word `k`. -/
theorem State.keepsScan_scanTakes {c : Word} {i : Nat} (hi : i ≠ k) (data : Bytes) (s : State) :
    s.keepsScan fn (scanFirst c + k) k (s.scanTakes fn c data i) := by
  have hmod : s.keepsScan fn (scanFirst c + k) k (s.scanNoted fn i (scanWord data i)) := by
    refine ⟨rfl, rfl, ?_⟩
    rw [State.scanNoted, State.fnq_modFnq, if_pos rfl]
    exact (NMap.getD_set ..).trans (if_neg hi)
  unfold State.scanTakes
  split
  · exact s.keepsScan_refl
  · dsimp only
    split
    · exact State.keepsScan_trans hmod (State.keepsScan_queueViol ..)
    · split
      · exact State.keepsScan_trans hmod (State.keepsScan_newTail (by omega) ..)
      · exact hmod

theorem State.keepsScan_words {c : Word} {l : List Nat} (hk : k ∉ l) (data : Bytes) (s : State) :
    s.keepsScan fn (scanFirst c + k) k (l.foldl (State.scanTakes fn c data) s) :=
  List.foldlRecOn (motive := s.keepsScan fn (scanFirst c + k) k) l _ s.keepsScan_refl (fun t ht _ hi =>
    State.keepsScan_trans ht (State.keepsScan_scanTakes (ne_of_mem_of_not_mem hi hk) data t))

/-- A word that changed, of a queue that takes it, is the queue's TAIL. -/
theorem State.scanTakes_tail {c : Word} {data : Bytes} {s : State} (hw : NMap.getD (s.fnq fn).scanned k 0 ≠ scanWord data k)
    (ho : s.ownsQueue fn (scanFirst c + k) = true) (ht : s.takesTail 2 (scanFirst c + k) (scanWord data k)) :
    ((s.scanTakes fn c data k).queue (scanFirst c + k)).tail = scanWord data k := by
  have ho' : ¬(!(s.scanNoted fn k (scanWord data k)).ownsQueue fn (scanFirst c + k)) = true := by
    rw [show (s.scanNoted fn k (scanWord data k)).ownsQueue fn (scanFirst c + k) = true from ho]; decide
  have hmode : (((s.scanNoted fn k (scanWord data k)).queue (scanFirst c + k)).mode == 2) = true := by
    rw [show ((s.scanNoted fn k (scanWord data k)).queue (scanFirst c + k)).mode = 2 from ht.2.1]; decide
  unfold State.scanTakes
  rw [if_neg (by simpa using hw)]
  dsimp only
  rw [if_neg ho', if_pos hmode, State.newTail_takes (s := s.scanNoted fn k (scanWord data k)) ho ht, State.ringAsk_queue,
    State.tailed_queue]

/-- Of all the words of a scan, word `k` is the TAIL of its queue at the end. -/
theorem State.scanWords_tail {c : Word} {n : Nat} (hk : k < n) {data : Bytes} {s : State}
    (hw : NMap.getD (s.fnq fn).scanned k 0 ≠ scanWord data k)
    (ho : s.ownsQueue fn (scanFirst c + k) = true) (ht : s.takesTail 2 (scanFirst c + k) (scanWord data k)) :
    (((List.range n).foldl (State.scanTakes fn c data) s).queue (scanFirst c + k)).tail = scanWord data k := by
  obtain ⟨l, r, hlr⟩ := List.append_of_mem (List.mem_range.mpr hk)
  have hnd : (l ++ k :: r).Nodup := hlr ▸ List.nodup_range
  obtain ⟨hnot, -⟩ := List.nodup_cons.mp (List.nodup_middle.mp hnd)
  rw [List.mem_append, not_or] at hnot
  obtain ⟨hl, hr⟩ := hnot
  rw [hlr, List.foldl_append, List.foldl_cons]
  obtain ⟨hliving, hqueue, hscanned⟩ := State.keepsScan_words (fn := fn) (c := c) hl data s
  generalize l.foldl (State.scanTakes fn c data) s = u at hliving hqueue hscanned
  rw [(State.keepsScan_words (fn := fn) (c := c) hr data _).2.1]
  refine State.scanTakes_tail (hscanned ▸ hw) ?_ ?_
  · unfold State.ownsQueue State.tenantCfg? at ho ⊢
    rw [hliving]; exact ho
  · unfold State.takesTail at ht ⊢
    rw [hqueue]; exact ht

end

end Sys2Proof.Machine
end

section
/-! PROOFS. Descriptors that a queue accepts (R112, R115, R117), and O47. -/

namespace Sys2Proof.Machine

open Sys2Proof

/-! ### Descriptors placed in a queue (R115) -/

/-- Queue `k` holds `ds` beside what it held, as the last of those that wait; of the rest only the queue manager's
counters and contexts differ. -/
def State.takes (k : Nat) (ds : List Bytes) (s t : State) : Prop :=
  { t with qm := s.qm } = s ∧ t.qm.rings = s.qm.rings ∧ (∀ j, j ≠ k → t.queue j = s.queue j)
    ∧ ∃ ws n m, t.queue k = { s.queue k with waiting := ws, accepted := n, twinNo := m }
        ∧ ws.map (·.raw) = (s.queue k).waiting.map (·.raw) ++ ds

/-- A descriptor passes the checks of queue `k`, on a device that does not drain. -/
def State.checks (k : Nat) (d : Bytes) (s : State) : Prop :=
  s.ras.drain = 0 ∧ descCheck (s.ring ((s.queueRing k).getD 0)).entry64 d = none

section
variable {k : Nat} {d : Bytes} {ds es : List Bytes} {s t u : State}

theorem State.takes_refl (k : Nat) (s : State) : s.takes k [] s :=
  ⟨rfl, rfl, fun _ _ => rfl, (s.queue k).waiting, _, _, rfl, (List.append_nil _).symm⟩

theorem State.takes_trans (h : s.takes k ds t) (g : t.takes k es u) : s.takes k (ds ++ es) u := by
  obtain ⟨hrest, hrings, hother, ws, n, m, hq, hws⟩ := h
  obtain ⟨grest, grings, gother, vs, i, l, gq, gvs⟩ := g
  refine ⟨(congrArg (fun x : State => { x with qm := s.qm }) grest).trans hrest, grings.trans hrings,
    fun j hj => (gother j hj).trans (hother j hj), vs, i, l, ?_, ?_⟩
  · rw [gq, hq]
  · rw [gvs, hq, hws, List.append_assoc]

/-- A change of the queue manager that leaves its rings and queues. -/
theorem State.takes_modQm {f : QMgr → QMgr} (hr : (f s.qm).rings = s.qm.rings) (hq : (f s.qm).queues = s.qm.queues) :
    s.takes k [] (s.modQm f) := by
  have hqueue (j : Nat) : (s.modQm f).queue j = s.queue j := congrArg (fun x => NMap.getD x j Queue.reset) hq
  exact ⟨rfl, hr, fun j _ => hqueue j, (s.queue k).waiting, _, _, hqueue k, (List.append_nil _).symm⟩

theorem State.takes_modQueue {f : Queue → Queue} {ws : List QEntry} {n m : Nat}
    (hf : f (s.queue k) = { s.queue k with waiting := ws, accepted := n, twinNo := m })
    (hw : ws.map (·.raw) = (s.queue k).waiting.map (·.raw) ++ ds) : s.takes k ds (s.modQueue k f) :=
  ⟨rfl, rfl, fun _ hj => (State.queue_modQueue ..).trans (if_neg (Ne.symm hj)), ws, n, m,
    ((State.queue_modQueue ..).trans (if_pos rfl)).trans hf, hw⟩

theorem State.checks_of_takes (h : s.takes k ds t) (hc : s.checks k d) : t.checks k d := by
  obtain ⟨hrest, hrings, -, -⟩ := h
  have hring : t.queueRing k = s.queueRing k := (congrArg (fun x : State => x.queueRing k) hrest :)
  obtain ⟨hdrain, hd⟩ := hc
  refine ⟨(congrArg (fun x : State => x.ras.drain) hrest).trans hdrain, ?_⟩
  rw [State.ring, hring, hrings]
  exact hd

theorem State.takes_ownerActive (h : s.takes k ds t) : t.ownerActive k = s.ownerActive k :=
  (congrArg (fun x : State => x.ownerActive k) h.1 :)

/-- The counters of a descriptor that is accepted (R115). -/
def State.acceptCounted (k : Nat) (s : State) : State :=
  let t := (s.modQm (fun m => { m with accepts := (m.accepts + 1) % 2 ^ 64, order := m.order + 1 })).modQueue k
    (fun r => { r with accepted := wrap1 32 r.accepted })
  if (s.queue k).mode == 0 then
    t.modFnq ((s.queueOwner k).getD 0) (fun f => { f with accept := wrap1 32 f.accept, dirty := true })
  else t

/-- The next number of a paired room's descriptor (R305). -/
def State.twinCounted (k : Nat) (s : State) : State :=
  if s.repro.st == .paired && s.twinned ((s.queueRoom k).getD 0) then
    s.modQueue k (fun r => { r with twinNo := (s.queue k).twinNo + 1 })
  else s

theorem State.takes_acceptCounted (k : Nat) (s : State) :
    s.takes k [] (s.acceptCounted k) ∧ (s.acceptCounted k).qm.hot = s.qm.hot := by
  have hcount : s.takes k [] ((s.modQm (fun m => { m with accepts := (m.accepts + 1) % 2 ^ 64, order := m.order + 1 })).modQueue k
      (fun r => { r with accepted := wrap1 32 r.accepted })) :=
    State.takes_trans (State.takes_modQm rfl rfl) (State.takes_modQueue rfl (List.append_nil _).symm)
  unfold State.acceptCounted
  dsimp only
  split
  · exact ⟨State.takes_trans hcount (State.takes_modQm rfl rfl), rfl⟩
  · exact ⟨hcount, rfl⟩

theorem State.takes_twinCounted (k : Nat) (s : State) :
    s.takes k [] (s.twinCounted k) ∧ (s.twinCounted k).qm.hot = s.qm.hot := by
  unfold State.twinCounted
  split
  · exact ⟨State.takes_modQueue rfl (List.append_nil _).symm, rfl⟩
  · exact ⟨State.takes_refl k s, rfl⟩

/-- The entry of a descriptor, in the state in which its acceptance has been counted. -/
def State.newEntry (k : Nat) (d : Bytes) (s : State) : QEntry :=
  { raw := d, accGtc := (s.twinCounted k).view 0x90, ord := (s.twinCounted k).qm.order,
    twin := if s.repro.st == .paired && s.twinned ((s.queueRoom k).getD 0) then some (s.queue k).twinNo else none }

/-- A descriptor that passes the checks waits at the end of its queue. -/
theorem State.place_eq (h : s.checks k d) :
    s.place k d = ((s.acceptCounted k).twinCounted k).modQueue k (fun r =>
      { r with waiting := r.waiting ++ [(s.acceptCounted k).newEntry k d] }) := by
  have hall := State.takes_trans (s.takes_acceptCounted k).1 ((s.acceptCounted k).takes_twinCounted k).1
  have hring : ((s.acceptCounted k).twinCounted k).queueRing k = s.queueRing k := (congrArg (fun x : State => x.queueRing k) hall.1 :)
  obtain ⟨hdrain, hd⟩ := State.checks_of_takes hall h
  rw [hring] at hd
  have hbody : s.place k d = match descCheck (((s.acceptCounted k).twinCounted k).ring ((s.queueRing k).getD 0)).entry64 d with
      | some x => ((s.acceptCounted k).twinCounted k).postRec ((s.queueRing k).getD 0)
          (((s.acceptCounted k).twinCounted k).descRec k d 0x10 x 0)
      | none =>
        if ((s.acceptCounted k).twinCounted k).ras.drain != 0 then
          ((s.acceptCounted k).twinCounted k).postRec ((s.queueRing k).getD 0)
            (((s.acceptCounted k).twinCounted k).descRec k d 0x7F 0xD0 0)
        else ((s.acceptCounted k).twinCounted k).modQueue k (fun r =>
          { r with waiting := r.waiting ++ [(s.acceptCounted k).newEntry k d] }) := rfl
  rw [hbody, hd]
  exact if_neg (by simp [hdrain])

/-- A descriptor that passes the checks is the last that waits. -/
theorem State.takes_place (h : s.checks k d) : s.takes k [d] (s.place k d) ∧ (s.place k d).qm.hot = s.qm.hot := by
  obtain ⟨hcount, hhot⟩ := s.takes_acceptCounted k
  obtain ⟨htwin, hhot'⟩ := (s.acceptCounted k).takes_twinCounted k
  rw [State.place_eq h]
  refine ⟨State.takes_trans (State.takes_trans hcount htwin) (State.takes_modQueue rfl ?_), hhot'.trans hhot⟩
  rw [List.map_append]; rfl

/-- Descriptors that all pass the checks, placed one after another. -/
theorem State.takes_places (h : ∀ d ∈ ds, s.checks k d) : s.takes k ds (ds.foldl (fun s d => s.place k d) s) := by
  induction ds generalizing s with
  | nil => exact State.takes_refl k s
  | cons d ds ih =>
    obtain ⟨hd, hds⟩ := List.forall_mem_cons.mp h
    have hplace := (State.takes_place hd).1
    exact State.takes_trans hplace (ih (fun x hx => State.checks_of_takes hplace (hds x hx)))

/-! ### Hot contexts (R112) -/

/-- Making a context hot changes the list of hot contexts and the count of overflows alone. -/
theorem State.makeHot_eq (k : Nat) (s : State) :
    ∃ h o, s.makeHot k = s.modQm (fun m => { m with hot := h, overflow := o })
      ∧ (k ∈ s.qm.hot → s.qm.hot.length ≤ 4096 → k ∈ h ∧ h.length ≤ 4096) := by
  unfold State.makeHot
  dsimp only
  split
  · rename_i hlt
    refine ⟨_, _, rfl, fun _ _ => ⟨by simp, ?_⟩⟩
    rw [List.length_append]; exact hlt
  · rename_i hfull
    have hroom (hk : k ∈ s.qm.hot) (hlen : s.qm.hot.length ≤ 4096) : False := by
      have := List.length_filter_lt_length_iff_exists (p := (· != k)).mpr ⟨k, hk, by simp⟩
      exact hfull (Nat.lt_of_lt_of_le this hlen)
    split
    · exact ⟨_, _, rfl, fun hk hlen => (hroom hk hlen).elim⟩
    · exact ⟨_, _, rfl, fun hk hlen => (hroom hk hlen).elim⟩

theorem State.takes_makeHot (k : Nat) (s : State) : s.takes k [] (s.makeHot k) := by
  obtain ⟨h, o, he, -⟩ := s.makeHot_eq k
  rw [he]
  exact State.takes_modQm rfl rfl

/-! ### Descriptors of a ring, with the context hot and cold (R112, R117) -/

/-- A queue whose context is hot, and that waits for none. -/
def State.hotIdle (k : Nat) (s : State) : Prop := (s.queue k).fetching = [] ∧ k ∈ s.qm.hot ∧ s.qm.hot.length ≤ 4096

theorem State.takes_acceptDesc (hr : s.hotIdle k) (h : s.checks k d) :
    s.takes k [d] (s.acceptDesc k d) ∧ (s.acceptDesc k d).hotIdle k := by
  obtain ⟨hnone, hhot, hlen⟩ := hr
  have he : s.acceptDesc k d = ((s.modQm (fun m => { m with hits := sat1 32 m.hits })).makeHot k).place k d := by
    unfold State.acceptDesc
    rw [if_neg (by simp [hnone]), if_pos (by simpa using hhot)]
  have hmade : s.takes k [] ((s.modQm (fun m => { m with hits := sat1 32 m.hits })).makeHot k) :=
    State.takes_trans (State.takes_modQm rfl rfl) (State.takes_makeHot k _)
  obtain ⟨hplace, hsame⟩ := State.takes_place (State.checks_of_takes hmade h)
  obtain ⟨l, o, hl, hkeep⟩ := (s.modQm (fun m => { m with hits := sat1 32 m.hits })).makeHot_eq k
  obtain ⟨hkl, hlen'⟩ := hkeep hhot hlen
  have hall := State.takes_trans hmade hplace
  rw [he]
  refine ⟨hall, ?_, ?_⟩
  · obtain ⟨-, -, -, ws, n, m, hq, -⟩ := hall
    rw [hq]; exact hnone
  · rw [hsame, hl]; exact ⟨hkl, hlen'⟩

theorem State.takes_acceptDescs (hr : s.hotIdle k) (h : ∀ d ∈ ds, s.checks k d) :
    s.takes k ds (ds.foldl (fun s d => s.acceptDesc k d) s) := by
  induction ds generalizing s with
  | nil => exact State.takes_refl k s
  | cons d ds ih =>
    obtain ⟨hd, hds⟩ := List.forall_mem_cons.mp h
    obtain ⟨htake, hidle⟩ := State.takes_acceptDesc hr hd
    exact State.takes_trans htake (ih hidle (fun x hx => State.checks_of_takes htake (hds x hx)))

/-- Queue `k` has `ds` waiting for its context, beside those that did; its context is cold. -/
def State.defers (k : Nat) (ds : List Bytes) (s t : State) : Prop :=
  { t with qm := s.qm } = s ∧ t.qm.hot = s.qm.hot ∧ (∀ j, j ≠ k → t.queue j = s.queue j)
    ∧ t.queue k = { s.queue k with fetching := (s.queue k).fetching ++ ds }

/-- One descriptor more waits for the context; the queue manager's counters may differ. -/
theorem State.defers_modQueue {f : QMgr → QMgr} {g : Queue → Queue} (hq : (f s.qm).queues = s.qm.queues)
    (hh : (f s.qm).hot = s.qm.hot) (hg : g (s.queue k) = { s.queue k with fetching := (s.queue k).fetching ++ ds }) :
    s.defers k ds ((s.modQm f).modQueue k g) := by
  have hqueue (j : Nat) : (s.modQm f).queue j = s.queue j := congrArg (fun x => NMap.getD x j Queue.reset) hq
  refine ⟨rfl, hh, fun j hj => ?_, ?_⟩
  · exact ((State.queue_modQueue ..).trans (if_neg (Ne.symm hj))).trans (hqueue j)
  · rw [State.queue_modQueue, if_pos rfl, hqueue, hg]

theorem State.defers_refl (k : Nat) (s : State) : s.defers k [] s := by
  refine ⟨rfl, rfl, fun _ _ => rfl, ?_⟩
  rw [List.append_nil]

theorem State.defers_trans (h : s.defers k ds t) (g : t.defers k es u) : s.defers k (ds ++ es) u := by
  obtain ⟨hrest, hhot, hother, hq⟩ := h
  obtain ⟨grest, ghot, gother, gq⟩ := g
  refine ⟨(congrArg (fun x : State => { x with qm := s.qm }) grest).trans hrest, ghot.trans hhot,
    fun j hj => (gother j hj).trans (hother j hj), ?_⟩
  rw [gq, hq, List.append_assoc]

theorem State.defers_acceptDesc (hc : k ∉ s.qm.hot) (d : Bytes) : s.defers k [d] (s.acceptDesc k d) := by
  unfold State.acceptDesc
  split
  · exact State.defers_modQueue (f := id) rfl rfl rfl
  · rename_i hnone
    have hnone : (s.queue k).fetching = [] := by simpa using hnone
    rw [if_neg (by simpa using hc)]
    exact State.defers_modQueue rfl rfl (by rw [hnone]; rfl)

theorem State.defers_acceptDescs (hc : k ∉ s.qm.hot) (ds : List Bytes) :
    s.defers k ds (ds.foldl (fun s d => s.acceptDesc k d) s) := by
  induction ds generalizing s with
  | nil => exact State.defers_refl k s
  | cons d ds ih =>
    have hone := State.defers_acceptDesc hc d
    have hhot : k ∉ (s.acceptDesc k d).qm.hot := by rw [hone.2.1]; exact hc
    exact State.defers_trans hone (ih hhot)

/-! ### Ring entries come (R117) -/

theorem exec_ringEntryFetch_failed (k : Nat) (data : Bytes) :
    exec (.ringEntryFetch k data true) s = .next (s.ringFailed k) := rfl

theorem exec_ringEntryFetch (k : Nat) (data : Bytes) : exec (.ringEntryFetch k data false) s = .next (s.ringFetched k data) := rfl

/-- What a failed read leaves: what is asked for again. -/
theorem State.ringFailed_reads (k : Nat) (s : State) :
    s.onlyReads k (s.ringFailed k) ∧ (s.ringFailed k).queue k = { s.queue k with asked := ((s.ringFailed k).queue k).asked } := by
  have hother (j : Nat) (hj : j ≠ k) : (s.modQueue k (fun r => { r with asked := 0 })).queue j = s.queue j :=
    (State.queue_modQueue ..).trans (if_neg (Ne.symm hj))
  have hq := State.ringAsk_queue k (s.modQueue k (fun r => { r with asked := 0 }))
  rw [State.queue_modQueue, if_pos rfl] at hq
  exact ⟨State.onlyReads_ringAsk rfl hother, hq⟩

/-- The entries that came of those asked for. -/
def State.ringCame (s : State) (k : Nat) (data : Bytes) : List Bytes :=
  (List.range (min (s.queue k).asked (data.length / 64))).map (fun i => slice data (i * 64) 64)

/-- The head of queue `k` past `n` entries. -/
def State.headPast (k n : Nat) (s : State) : State :=
  s.modQueue k (fun r => { r with head := (r.head + n) % 2 ^ 32, asked := r.asked - n })

theorem State.headPast_queue (k n : Nat) (s : State) :
    (s.headPast k n).queue k = { s.queue k with head := ((s.queue k).head + n) % 2 ^ 32, asked := (s.queue k).asked - n } :=
  (State.queue_modQueue ..).trans (if_pos rfl)

/-- Past its entries, with other queues untouched, the queue asks for the next. -/
theorem State.headPast_asks {n : Nat} (hrest : { t with qm := (s.headPast k n).qm } = s.headPast k n)
    (hother : ∀ j, j ≠ k → t.queue j = (s.headPast k n).queue j) : s.onlyReads k (t.ringAsk k) :=
  State.onlyReads_ringAsk (congrArg (fun x : State => { x with qm := s.qm }) hrest)
    (fun j hj => (hother j hj).trans ((State.queue_modQueue ..).trans (if_neg (Ne.symm hj))))

section
variable (ha : (s.queue k).active = true) (hm : (s.queue k).mode = 1 ∨ (s.queue k).mode = 2) (ho : s.ownerActive k = true)
include ha hm ho

theorem State.ringFetched_eq (data : Bytes) :
    s.ringFetched k data
      = ((s.ringCame k data).foldl (fun s d => s.acceptDesc k d)
          (s.headPast k (min (s.queue k).asked (data.length / 64)))).ringAsk k := by
  have hmode : ((s.queue k).mode == 1 || (s.queue k).mode == 2) = true := by simpa using hm
  unfold State.ringFetched State.ringCame
  dsimp only
  rw [if_pos (by simp only [ha, hmode, ho, Bool.and_self]), List.foldl_map]
  rfl

theorem State.ringFetched_hot {data : Bytes} (hr : s.hotIdle k) (hc : ∀ d ∈ s.ringCame k data, s.checks k d) :
    s.onlyReads k (s.ringFetched k data)
      ∧ ((s.ringFetched k data).queue k).head = ((s.queue k).head + min (s.queue k).asked (data.length / 64)) % 2 ^ 32
      ∧ ((s.ringFetched k data).queue k).waiting.map (·.raw) = (s.queue k).waiting.map (·.raw) ++ s.ringCame k data
      ∧ ((s.ringFetched k data).queue k).tail = (s.queue k).tail := by
  have hidle : (s.headPast k (min (s.queue k).asked (data.length / 64))).hotIdle k := by
    obtain ⟨hf, hhot⟩ := hr
    refine ⟨?_, hhot⟩
    rw [State.headPast_queue]; exact hf
  obtain ⟨hrest, -, hother, ws, n, m, hq, hws⟩ := State.takes_acceptDescs hidle hc
  rw [State.ringFetched_eq ha hm ho]
  refine ⟨State.headPast_asks hrest hother, ?_⟩
  rw [State.headPast_queue] at hq hws
  rw [State.ringAsk_queue, hq]
  exact ⟨rfl, hws, rfl⟩

theorem State.ringFetched_cold {data : Bytes} (hf : (s.queue k).fetching = []) (hc : k ∉ s.qm.hot) :
    s.onlyReads k (s.ringFetched k data)
      ∧ (s.ringFetched k data).queue k =
          { s.queue k with head := ((s.queue k).head + min (s.queue k).asked (data.length / 64)) % 2 ^ 32,
                           fetching := s.ringCame k data, asked := ((s.ringFetched k data).queue k).asked } := by
  obtain ⟨hrest, -, hother, hq⟩ := State.defers_acceptDescs (k := k)
    (s := s.headPast k (min (s.queue k).asked (data.length / 64))) hc (s.ringCame k data)
  rw [State.ringFetched_eq ha hm ho]
  refine ⟨State.headPast_asks hrest hother, ?_⟩
  rw [State.headPast_queue, hf] at hq
  have hask := State.ringAsk_queue k ((s.ringCame k data).foldl (fun s d => State.acceptDesc k d s)
    (s.headPast k (min (s.queue k).asked (data.length / 64))))
  rw [hq] at hask
  exact hask

end
end

section
variable {k : Nat} {d : Bytes} {ds : List Bytes} {s : State}

/-! ### The context has come (R112) -/

theorem exec_contextFetchDone (k : Nat) : exec (.contextFetchDone k) s = .next (s.contextFetched k) := rfl

/-- No descriptor but `ds` waits for the context of queue `k`. -/
def State.leaves (k : Nat) (ds : List Bytes) (s : State) : State := s.modQueue k (fun r => { r with fetching := ds })

theorem State.checks_leaves {es : List Bytes} (h : s.checks k d) : ((s.makeHot k).leaves k es).checks k d := by
  have hmade : (s.makeHot k).checks k d := State.checks_of_takes (State.takes_makeHot k s) h
  exact hmade

/-- Queue `k` holds `ds` beside what it held, and `es` wait for the context. -/
def State.takesUp (k : Nat) (ds es : List Bytes) (s t : State) : Prop :=
  (t.queue k).fetching = es ∧ (t.queue k).waiting.map (·.raw) = (s.queue k).waiting.map (·.raw) ++ ds
    ∧ (∀ j, j ≠ k → t.queue j = s.queue j) ∧ { t with qm := s.qm } = s

/-- Descriptors taken once the context has been made hot, or not. -/
theorem State.takesUp_of_takes {es : List Bytes} {t : State} (h : ((s.makeHot k).leaves k es).takes k ds t) :
    s.takesUp k ds es t := by
  obtain ⟨mrest, -, mother, ws, n, m, mq, mws⟩ := State.takes_makeHot k s
  obtain ⟨hrest, -, hother, vs, i, l, hq, hvs⟩ := h
  have hleft : ((s.makeHot k).leaves k es).queue k = { (s.makeHot k).queue k with fetching := es } :=
    (State.queue_modQueue ..).trans (if_pos rfl)
  rw [hleft, mq] at hq hvs
  refine ⟨?_, ?_, fun j hj => ?_, ?_⟩
  · rw [hq]
  · rw [hq]
    refine hvs.trans ?_
    rw [mws, List.append_nil]
  · exact ((hother j hj).trans ((State.queue_modQueue ..).trans (if_neg (Ne.symm hj)))).trans (mother j hj)
  · exact (congrArg (fun x : State => { x with qm := s.qm }) hrest).trans mrest

section
variable (hf : (s.queue k).fetching = d :: ds) (ho : s.ownerActive k = true) (hc : ∀ x ∈ d :: ds, s.checks k x)
include hf ho hc

theorem State.contextFetched_hot (hh : (s.makeHot k).qm.hot.contains k = true) :
    s.takesUp k (d :: ds) [] (s.contextFetched k) := by
  have he : s.contextFetched k = (d :: ds).foldl (fun s d => s.place k d) ((s.makeHot k).leaves k []) := by
    unfold State.contextFetched
    rw [hf]
    dsimp only
    rw [if_neg (by simp [ho]), if_pos hh]
    rfl
  rw [he]
  exact State.takesUp_of_takes (State.takes_places (fun x hx => State.checks_leaves (hc x hx)))

theorem State.contextFetched_full (hh : ¬(s.makeHot k).qm.hot.contains k = true) :
    s.takesUp k [d] ds (s.contextFetched k) := by
  have he : s.contextFetched k
      = if ds.isEmpty then ((s.makeHot k).leaves k ds).place k d
        else (((s.makeHot k).leaves k ds).place k d).modQm (fun m => { m with misses := sat1 24 m.misses }) := by
    unfold State.contextFetched
    rw [hf]
    dsimp only
    rw [if_neg (by simp [ho]), if_neg hh]
    rfl
  obtain ⟨htake, -⟩ := State.takes_place (State.checks_leaves (es := ds) (hc d List.mem_cons_self))
  rw [he]
  split
  · exact State.takesUp_of_takes htake
  · exact State.takesUp_of_takes (State.takes_trans htake (State.takes_modQm rfl rfl))

end
end

/-! ### QCFG_CTRL written with the OP that activates (R110) -/

section
variable {s : State} {fn : Fn} {mode log2 : Nat}

/-- The fields of QCFG_CTRL that land leave what the OP looks at. -/
theorem State.ctrlLanded_keeps :
    (s.ctrlLanded fn mode log2).ownsQueue fn ((s.ctrlLanded fn mode log2).cfgQueue fn) = s.ownsQueue fn (s.cfgQueue fn)
      ∧ (s.ctrlLanded fn mode log2).queueRing ((s.ctrlLanded fn mode log2).cfgQueue fn) = s.queueRing (s.cfgQueue fn)
      ∧ ((s.ctrlLanded fn mode log2).badRing fn mode log2 ↔ s.badRing fn mode log2) := by
  obtain ⟨hsel, hring⟩ := s.ctrlLanded_cfg fn mode log2
  unfold State.badRing
  rw [hsel, hring]
  exact ⟨rfl, rfl, Iff.rfl⟩

variable (ha : s.tenActive fn = true)
include ha

theorem State.queueCtrl_foreign (ho : s.ownsQueue fn (s.cfgQueue fn) = false) :
    s.posts fn (s.cfgQueue fn) (s.queue (s.cfgQueue fn)) (s.queueCtrl fn 1 mode log2) := by
  obtain ⟨howns, -, -⟩ := State.ctrlLanded_keeps (s := s) (fn := fn) (mode := mode) (log2 := log2)
  rw [State.queueCtrl_activates ha, State.activate_foreign (s := s.ctrlLanded fn mode log2) ha (howns.trans ho),
    (s.ctrlLanded_cfg fn mode log2).1]
  exact State.postQcfg_foreign (s := s) (u := s.ctrlLanded fn mode log2) rfl (fun _ _ => rfl) ho 1

variable (ho : s.ownsQueue fn (s.cfgQueue fn) = true)
include ho

/-- A result alone is posted. -/
theorem State.queueCtrl_shows {r : Nat} (h : (s.ctrlLanded fn mode log2).activate fn mode log2
      = (s.ctrlLanded fn mode log2).postQcfg fn ((s.ctrlLanded fn mode log2).cfgQueue fn) r) :
    s.posts fn (s.cfgQueue fn) { s.queue (s.cfgQueue fn) with lastRes := r } (s.queueCtrl fn 1 mode log2) := by
  rw [State.queueCtrl_activates ha, h, (s.ctrlLanded_cfg fn mode log2).1]
  exact State.postQcfg_owned (s := s) (u := s.ctrlLanded fn mode log2) rfl (fun _ _ => rfl) ho r

/-- The queue takes the settings, and 0 is posted. -/
theorem State.queueCtrl_takes (h : (s.ctrlLanded fn mode log2).activate fn mode log2 = (s.ctrlLanded fn mode log2).activated fn mode log2) :
    s.posts fn (s.cfgQueue fn)
      { (s.queue (s.cfgQueue fn)).configured (cfgMode mode) (s.cfgRing fn) log2 with lastRes := 0 } (s.queueCtrl fn 1 mode log2) := by
  obtain ⟨hsel, hring⟩ := s.ctrlLanded_cfg fn mode log2
  rw [State.queueCtrl_activates ha, h, State.activated, hsel, hring]
  have hpost := State.postQcfg_owned (s := s) (fn := fn) (q := s.cfgQueue fn)
    (u := (s.ctrlLanded fn mode log2).modQueue (s.cfgQueue fn) (Queue.configured (cfgMode mode) (s.cfgRing fn) log2)) rfl
    (fun k hk => (State.queue_modQueue ..).trans (if_neg (Ne.symm hk))) ho 0
  rw [State.queue_modQueue, if_pos rfl] at hpost
  exact hpost

end

/-- Settles O47: QCFG, doorbells, the scan, ring entries and contexts, each by its own rule. -/
theorem queuesTakeDescriptors : Obligations.QueuesTakeDescriptors := by
  unfold Obligations.QueuesTakeDescriptors
  intro s fn ha
  dsimp only
  refine ⟨fun mode log2 => ?activate, fun ho => ?deactivate, fun v => ?doorbell, fun k data => ?entries,
    fun k d ds hf ho hdrain hchecks => ?context, fun tc htc => ⟨fun v => ?scanCtrl, fun data => ?scan⟩⟩
  case activate =>
    obtain ⟨howns, hring, hbad⟩ := State.ctrlLanded_keeps (s := s) (fn := fn) (mode := mode) (log2 := log2)
    refine ⟨fun ho => ⟨_, exec_queueActivate fn mode log2, State.queueCtrl_foreign ha ho⟩,
      fun ho => ⟨fun hr => ?unmapped, fun cr hr =>
      ⟨fun hb => ?badRing, fun hb hoff => ?disabled, fun hb hon => ?active⟩⟩⟩
    case unmapped =>
      exact ⟨_, exec_queueActivate fn mode log2, State.queueCtrl_shows ha ho
        (State.activate_unmapped (s := s.ctrlLanded fn mode log2) ha (howns.trans ho) (hring.trans hr))⟩
    case badRing =>
      exact ⟨_, exec_queueActivate fn mode log2, State.queueCtrl_shows ha ho
        (State.activate_badRing (s := s.ctrlLanded fn mode log2) ha (howns.trans ho) (hring.trans hr) (hbad.mpr hb))⟩
    all_goals
      have hgood := State.activate_goodRing (s := s.ctrlLanded fn mode log2) ha (howns.trans ho) (hring.trans hr) (mt hbad.mp hb)
    case disabled =>
      rw [if_pos (by simpa using (show ((s.ctrlLanded fn mode log2).ring cr).enabled = false from hoff))] at hgood
      exact ⟨_, exec_queueActivate fn mode log2, State.queueCtrl_shows ha ho hgood⟩
    case active =>
      rw [if_neg (by simpa using (show ((s.ctrlLanded fn mode log2).ring cr).enabled = true from hon))] at hgood
      exact ⟨_, exec_queueActivate fn mode log2, State.queueCtrl_takes ha ho hgood⟩
  case deactivate =>
    refine ⟨fun hh => ⟨_, exec_queueDeactivate fn, ?_⟩, fun hh => ⟨_, exec_queueDeactivate fn, ?_⟩⟩
    · rw [State.deactivate_goes ha ho hh]
      have hq := State.postQcfg_owned (s := s) (fn := fn) (q := s.cfgQueue fn)
        (u := s.modQueue (s.cfgQueue fn) (fun r => { r with active := false, asked := 0 })) rfl
        (fun k hk => (State.queue_modQueue ..).trans (if_neg (Ne.symm hk))) ho 0
      rw [State.queue_modQueue, if_pos rfl] at hq
      exact hq
    · rw [State.deactivate_holding ha ho hh]
      exact State.postQcfg_owned rfl (fun _ _ => rfl) ho 3
  case doorbell =>
    refine ⟨fun ho => ⟨fun hfits => ⟨_, exec_doorbell ha v, State.newTail_spec ho hfits (.inl rfl)⟩, fun hstale => ?_⟩,
      fun ho => ⟨_, exec_doorbell ha v, ?_⟩⟩
    · rw [exec_doorbell ha, State.newTail_stale ho hstale]; rfl
    · rw [State.newTail_foreign ho]
      obtain ⟨hten, hqueues, hviol, -⟩ := s.queueViol_counts fn (fld v 0 17)
      exact ⟨hten, (s.queueViol_spec fn (fld v 0 17)).1, hqueues, hviol⟩
  case entries =>
    refine ⟨⟨_, exec_ringEntryFetch_failed k data, s.ringFailed_reads k⟩,
      fun hact hm ho hf => ⟨fun hhot hlen hgood => ?_, fun hcold => ?_⟩⟩
    · obtain ⟨hdrain, hchecks⟩ := hgood
      obtain ⟨hreads, hhead, hwait, htail⟩ := State.ringFetched_hot (data := data) hact hm ho ⟨hf, hhot, hlen⟩
        (fun d hd => ⟨hdrain, hchecks d hd⟩)
      exact ⟨_, exec_ringEntryFetch k data, hhead, hwait, htail, hreads⟩
    · obtain ⟨hreads, hq⟩ := State.ringFetched_cold (data := data) hact hm ho hf hcold
      exact ⟨_, exec_ringEntryFetch k data, hq, hreads⟩
  case context =>
    have hc : ∀ x ∈ d :: ds, s.checks k x := fun x hx => ⟨hdrain, hchecks x hx⟩
    by_cases hh : (s.makeHot k).qm.hot.contains k = true
    · obtain ⟨hfetch, hwait, hrest⟩ := State.contextFetched_hot hf ho hc hh
      exact ⟨_, exec_contextFetchDone k, fun _ => hfetch, absurd hh, fun _ => hwait, absurd hh, hrest⟩
    · obtain ⟨hfetch, hwait, hrest⟩ := State.contextFetched_full hf ho hc hh
      exact ⟨_, exec_contextFetchDone k, (absurd · hh), fun _ => hfetch, (absurd · hh), fun _ => hwait, hrest⟩
  case scanCtrl =>
    obtain ⟨ok, hset, hok⟩ := State.scanCtrl_sets ha htc v
    have hspec := s.scanSet_spec fn v ok
    rw [← hset] at hspec
    cases ok with
    | true => exact ⟨fun _ => ⟨_, exec_scanCtrlWrite fn v, hspec⟩, fun h => absurd (hok.mp rfl) h⟩
    | false => exact ⟨fun h => Bool.noConfusion (hok.mpr h), fun _ => ⟨_, exec_scanCtrlWrite fn v, hspec⟩⟩
  case scan =>
    refine ⟨fun hoff err => ?_, fun hon => ?_, fun hon => ⟨_, exec_ringScan fn data false, fun k hk hw ho hact hmode hfits => ?_⟩⟩
    · obtain ⟨hread, hscan⟩ := State.scan_off hoff data
      rw [exec_ringScan, hread, hscan, ite_self]
    · exact congrArg Host.Outcome.next (State.scanRead_reads ha hon)
    · rw [State.scanRead_reads ha hon, if_neg Bool.false_ne_true, State.scanned_eq (s := s.sendAll (s.scanBlock fn)) ha hon]
      exact State.scanWords_tail (s := s.sendAll (s.scanBlock fn)) hk hw ho ⟨hact, hmode, hfits⟩

end Sys2Proof.Machine
end

section
/-! PROOFS. Rooms that complete their reset (R41, R102): a set that lists the key of a passage twice. -/

namespace Sys2Proof.Machine

open Sys2Proof

/-- Room 0 of tenant 1 on island 0. -/
def islandZeroRoom : RoomCfg :=
  { tenant := 1, level := 0, dispatcher := 0, restart := false, islands := 1, rces := 0, eles := 0, slots := 4, numericKey := 0,
    rasKey := 0 }

/-- Key 0 of the passages is listed twice: on island 1, which no room holds, and then on island 0. -/
def passageTwiceSet : ConfigSet :=
  { ConfigSet.empty with
    rooms := [(0, islandZeroRoom)]
    passages := [(0, { src := 4, sink := 5, hops := 1, width := 1, route := 0 }),
                 (0, { src := 0, sink := 1, hops := 1, width := 1, route := 0 })] }

/-- A write to stream endpoint 0 of its island, under way. -/
def streamWrite : Dma :=
  { write := true, blk := 0, shelf := 0, len := 64, chip := 0, far := 0, cls := 3, issued := 0, done := false, err := false,
    drop := false, held := none, moved := 0, buf := [], bufBad := [], epc := 0, retried := false, ord := 0, waits := false,
    meshBad := [], lost := false }

/-- Room 0 is under reset, and on island 1 a stream write is under way. -/
def passageTwice : State :=
  { State.reset with
    living := passageTwiceSet
    ten := { State.reset.ten with rooms := [(0, { RoomRt.reset with st := .resetting })] }
    isl := [(1, { Isl.reset with slots := [(0, { Slot.reset with tags := [(0, streamWrite)] })] })] }

/-- The lanes of room 0 are those that its passage's key finds: the write on island 1 is over. -/
theorem passageTwice_ends : (NMap.find? ((passageTwice.roomDone 0).slot 1 0).tags 0).map (·.done) = some true := by decide +kernel

/-- The reset is of the statement's kind, and island 1, with its write under way, is not of the room. -/
theorem passageTwice_meets :
    (passageTwice.room 0).st = .resetting ∧ passageTwice.roomTasks 0 = [] ∧ (passageTwice.tenant (passageTwice.roomTenant 0)).st ≠ .resetting
      ∧ (passageTwice.spanRt 0).waits = [] ∧ (∀ e ∈ passageTwice.living.rooms, e.1 = 0 → passageTwice.roomCfg? 0 = some e.2)
      ∧ 1 ∉ passageTwice.roomIsls 0 ∧ (NMap.find? (passageTwice.slot 1 0).tags 0).map (·.done) = some false := by
  decide +kernel

/-- Refutes O43: the room clause asks of the Living set that it lists the room's key once, and not of the passages' keys. Where
it lists one twice, the lanes freed are those of the passage that the key finds (R41), and the stream request that ends with
them is of an island outside the room, which does not stay as it was. -/
theorem not_resetsCompleteAndTenantsChange : ¬ Obligations.ResetsCompleteAndTenantsChange := by
  intro h
  obtain ⟨hst, htasks, hten, hwaits, hkeys, hout, hopen⟩ := passageTwice_meets
  obtain ⟨-, -, hroom, -⟩ := h passageTwice
  obtain ⟨t, he, -, -, -, hother, -⟩ := hroom 0 hst htasks hten hwaits hkeys
  obtain rfl : passageTwice.roomDone 0 = t := Host.Outcome.next.inj he
  have hsame : ((passageTwice.roomDone 0).slot 1 0).tags = (passageTwice.slot 1 0).tags :=
    congrArg (fun i : Isl => (NMap.getD i.slots 0 .reset).tags) (hother 1 hout)
  have hends := passageTwice_ends
  rw [hsame, hopen] at hends
  exact Bool.noConfusion (Option.some.inj hends)

end Sys2Proof.Machine
end

section
/-! PROOFS. The push window (R118, R119). -/

namespace Sys2Proof.Machine

open Sys2Proof

/-! ### Bytes gathered in a map -/

/-- A key beyond all others comes last. -/
theorem NMap.set_of_last {α : Type} {m : NMap α} {k : Nat} (h : ∀ e ∈ m, e.1 < k) (v : α) : NMap.set m k v = m ++ [(k, v)] := by
  induction m with
  | nil => rfl
  | cons e r ih =>
    obtain ⟨he, hr⟩ := List.forall_mem_cons.mp h
    rw [NMap.set, if_neg (Nat.not_lt_of_gt he), if_neg (Nat.ne_of_gt he), ih hr, List.cons_append]

/-- Bytes at successive keys from `off`. -/
def bytesAt (off : Nat) (d : Bytes) : NMap Byte := (List.range' off d.length).zip d

@[simp] theorem bytesAt_cons (off : Nat) (x : Byte) (d : Bytes) : bytesAt off (x :: d) = (off, x) :: bytesAt (off + 1) d := rfl

theorem bytesAt_length (off : Nat) (d : Bytes) : (bytesAt off d).length = d.length := by simp [bytesAt]

theorem bytesAt_values (off : Nat) (d : Bytes) : (bytesAt off d).map (·.2) = d := List.map_snd_zip (by simp)

theorem find?_bytesAt (off : Nat) (d : Bytes) (i : Nat) :
    NMap.find? (bytesAt off d) i = if off ≤ i ∧ i < off + d.length then some (d.getD (i - off) 0) else none := by
  induction d generalizing off with
  | nil => exact (if_neg (fun h => by simp only [List.length_nil] at h; omega)).symm
  | cons x d ih =>
    rw [bytesAt_cons, NMap.find?, ih, List.length_cons]
    rcases Nat.lt_trichotomy i off with h | rfl | h
    · rw [if_neg (by omega), if_neg (by omega), if_neg (by omega)]
    · rw [if_pos rfl, if_pos (by omega), Nat.sub_self, List.getD_cons_zero]
    · rw [if_neg (by omega)]
      have hi : i - off = i - (off + 1) + 1 := by omega
      rw [hi, List.getD_cons_succ]
      exact if_congr (by omega) rfl rfl

theorem NMap.foldl_set_bytesAt {m : NMap Byte} {off : Nat} (h : ∀ e ∈ m, e.1 < off) (d : Bytes) :
    (bytesAt off d).foldl (fun m e => NMap.set m e.1 e.2) m = m ++ bytesAt off d := by
  induction d generalizing off m with
  | nil => exact (List.append_nil m).symm
  | cons x d ih =>
    have hm : ∀ e ∈ m ++ [(off, x)], e.1 < off + 1 := fun e he => by
      rcases List.mem_append.mp he with he | he
      · exact Nat.lt_succ_of_lt (h e he)
      · rw [List.mem_singleton.mp he]; exact Nat.lt_succ_self off
    rw [bytesAt_cons, List.foldl_cons, NMap.set_of_last h, ih hm, List.append_assoc, List.singleton_append]

/-! ### Counters and push slots -/

/-- Only the queue manager may differ, and not its queues. -/
def State.keepsQueues (s t : State) : Prop := t.qm.queues = s.qm.queues ∧ { t with qm := s.qm } = s

theorem State.keepsQueues_trans {s t u : State} (h : s.keepsQueues t) (g : t.keepsQueues u) : s.keepsQueues u :=
  ⟨g.1.trans h.1, (congrArg (fun x : State => { x with qm := s.qm }) g.2).trans h.2⟩

theorem State.keepsQueues_modQm {f : QMgr → QMgr} {s : State} (hf : (f s.qm).queues = s.qm.queues) : s.keepsQueues (s.modQm f) :=
  ⟨hf, rfl⟩

theorem State.keepsQueues_modFnq (fn : Nat) (f : FnQ → FnQ) (s : State) : s.keepsQueues (s.modFnq fn f) := State.keepsQueues_modQm rfl

theorem State.keepsQueues_torn (fn : Nat) (s : State) : s.keepsQueues (s.torn fn) :=
  State.keepsQueues_trans (State.keepsQueues_modQm rfl) (State.keepsQueues_modFnq ..)

/-! ### A write that falls in one slot (R118) -/

/-- A fold of effects, all but one of which do nothing. -/
theorem foldl_only {σ : Type} {f : σ → Nat → σ} {l : List Nat} {k : Nat} (hl : l.Nodup) (hk : k ∈ l)
    (h : ∀ j ∈ l, j ≠ k → ∀ s, f s j = s) (s : σ) : l.foldl f s = f s k := by
  induction l generalizing s with
  | nil => cases hk
  | cons j l ih =>
    obtain ⟨hj, hl⟩ := List.nodup_cons.mp hl
    obtain ⟨hfj, hfl⟩ := List.forall_mem_cons.mp h
    rw [List.foldl_cons]
    rcases List.mem_cons.mp hk with rfl | hk
    · exact List.foldlRecOn (motive := fun t => t = f s k) l f rfl
        (fun t ht i hi => (hfl i hi (ne_of_mem_of_not_mem hi hj) t).trans ht)
    · rw [hfj (ne_of_mem_of_not_mem hk hj).symm]; exact ih hl hk hfl s

section
variable {s : State} {fn : Fn} {k off : Nat} {d : Bytes}

theorem exec_pushWrite (fn : Fn) (off : Nat) (d : Bytes) : exec (.pushWrite fn off d) s = .next (s.pushWrite fn off d) := rfl

theorem exec_pushTimeout (fn : Fn) (k : Nat) : exec (.pushTimeout fn k) s = .next (s.pushTimeout fn k) := rfl

theorem State.pushWrite_slot (ha : s.tenActive fn = true) (hk : k < 64) (hd : d ≠ []) (hoff : off + d.length ≤ 64) :
    s.pushWrite fn (64 * k + off) d = s.pushPart fn k off d := by
  have hpos := List.length_pos_iff.mpr hd
  unfold State.pushWrite
  rw [if_neg (by simp [ha]), foldl_only (k := k) List.nodup_range (List.mem_range.mpr hk)]
  · dsimp only
    have hlo : max (64 * k + off) (k * 64) = 64 * k + off := by omega
    have hhi : min (64 * k + off + d.length) (k * 64 + 64) = 64 * k + off + d.length := by omega
    rw [hlo, hhi, if_pos (by omega)]
    have h1 : 64 * k + off - k * 64 = off := by omega
    have h2 : 64 * k + off + d.length - (64 * k + off) = d.length := by omega
    rw [h1, h2, Nat.sub_self, slice, List.drop_zero, List.take_length]
  · intro j _ hj s
    exact if_neg (by omega)

/-- Push slot `k` of the function, with the bytes that it then holds. -/
def State.pushSet (fn k : Nat) (h : NMap Byte) (s : State) : State :=
  s.modFnq fn (fun f => { f with push := NMap.set f.push k { held := h, since := s.clk.gtc } })

/-- Push slot `k` of the function holds nothing. -/
def State.pushClear (fn k : Nat) (s : State) : State := s.modFnq fn (fun f => { f with push := NMap.del f.push k })

theorem State.pushKeys_eq (off : Nat) (d : Bytes) : (List.range d.length).map (· + off) = List.range' off d.length := by
  rw [List.range'_eq_map_range]
  exact List.map_congr_left (fun i _ => Nat.add_comm i off)

/-- Bytes for a slot that held nothing complete it or are held. -/
theorem State.pushPart_fresh (h : NMap.find? (s.fnq fn).push k = none) :
    s.pushPart fn k off d
      = if d.length = 64 then (s.pushClear fn k).pushDone fn d else s.pushSet fn k (bytesAt off d) := by
  have hfold := NMap.foldl_set_bytesAt (m := []) (off := off) nofun d
  have hany : ¬(List.range' off d.length).any (fun i => (NMap.find? ([] : NMap Byte) i).isSome) = true := by simp [NMap.find?]
  unfold State.pushPart
  rw [State.pushKeys_eq, NMap.getD, h]
  dsimp only [Option.getD_none]
  rw [if_neg hany]
  dsimp only
  rw [show (List.range' off d.length).zip d = bytesAt off d from rfl, hfold, List.nil_append, bytesAt_length, bytesAt_values]
  rfl

/-- Bytes over a byte already held count torn, and are all that the slot then holds. -/
theorem State.pushPart_torn {h : PushSlot} (hs : NMap.find? (s.fnq fn).push k = some h) (hd : d.length < 64)
    (hover : ∃ i, off ≤ i ∧ i < off + d.length ∧ (NMap.find? h.held i).isSome) :
    s.pushPart fn k off d = (s.torn fn).pushSet fn k (bytesAt off d) := by
  have hfold := NMap.foldl_set_bytesAt (m := []) (off := off) nofun d
  have hany : (List.range' off d.length).any (fun i => (NMap.find? h.held i).isSome) = true := by
    obtain ⟨i, hlo, hhi, hi⟩ := hover
    exact List.any_eq_true.mpr ⟨i, List.mem_range'_1.mpr ⟨hlo, hhi⟩, hi⟩
  unfold State.pushPart
  rw [State.pushKeys_eq, NMap.getD, hs]
  dsimp only [Option.getD_some]
  rw [if_pos hany]
  dsimp only
  rw [show (List.range' off d.length).zip d = bytesAt off d from rfl, hfold, List.nil_append, bytesAt_length,
    if_neg (Nat.ne_of_lt hd)]
  rfl

/-- A slot holds bytes from `off`, and no other. -/
theorem State.pushSet_holds (fn k off : Nat) (d : Bytes) (s : State) (i : Nat) :
    (NMap.find? ((s.pushSet fn k (bytesAt off d)).fnq fn).push k).map (fun h => NMap.find? h.held i)
      = some (if off ≤ i ∧ i < off + d.length then some (d.getD (i - off) 0) else none) := by
  rw [State.pushSet, State.fnq_modFnq, if_pos rfl, NMap.find?_set_self, Option.map_some, find?_bytesAt]

/-- One torn event, in the counts of the queue manager and of the function. -/
theorem State.torn_counts (fn : Nat) (s : State) :
    (s.torn fn).qm.torn = wrap1 16 s.qm.torn ∧ ((s.torn fn).fnq fn).torn = wrap1 16 (s.fnq fn).torn := by
  refine ⟨rfl, ?_⟩
  rw [State.torn, State.fnq_modFnq, if_pos rfl]
  rfl

theorem State.pushTimeout_drops {h : PushSlot} (hs : NMap.find? (s.fnq fn).push k = some h) :
    s.pushTimeout fn k = (s.pushClear fn k).torn fn := by
  unfold State.pushTimeout
  rw [hs]
  rfl

theorem State.keepsQueues_pushSet (fn k : Nat) (h : NMap Byte) (s : State) : s.keepsQueues (s.pushSet fn k h) :=
  State.keepsQueues_modFnq ..

theorem State.keepsQueues_pushClear (fn k : Nat) (s : State) : s.keepsQueues (s.pushClear fn k) := State.keepsQueues_modFnq ..

/-- Emptying a push slot leaves the counts of the function. -/
theorem State.pushClear_fnq (fn k : Nat) (s : State) :
    (s.pushClear fn k).fnq fn = { s.fnq fn with push := NMap.del (s.fnq fn).push k } :=
  (State.fnq_modFnq s fn fn (fun f => { f with push := NMap.del f.push k })).trans (if_pos rfl)

theorem State.pushClear_none (fn k : Nat) (s : State) : NMap.find? ((s.pushClear fn k).fnq fn).push k = none := by
  rw [State.pushClear_fnq]
  exact (NMap.find?_del ..).trans (if_pos rfl)

/-! ### A completed slot (R118) -/

/-- One descriptor refused. -/
def State.pushRefused (fn : Nat) (s : State) : State :=
  (s.modQm (fun m => { m with refused := wrap1 16 m.refused })).modFnq fn
    (fun f => { f with refused := wrap1 16 f.refused, dirty := true })

theorem State.pushRefused_counts (fn : Nat) (s : State) :
    (s.pushRefused fn).qm.refused = wrap1 16 s.qm.refused ∧ ((s.pushRefused fn).fnq fn).refused = wrap1 16 (s.fnq fn).refused := by
  refine ⟨rfl, ?_⟩
  rw [State.pushRefused, State.fnq_modFnq, if_pos rfl]
  rfl

theorem State.keepsQueues_pushRefused (fn : Nat) (s : State) : s.keepsQueues (s.pushRefused fn) :=
  State.keepsQueues_trans (State.keepsQueues_modQm rfl) (State.keepsQueues_modFnq ..)

/-- A descriptor for a queue that does not take it is refused and counted. -/
theorem State.pushDone_refuses (ho : s.ownsQueue fn (dQueue d) = true)
    (h : (s.queue (dQueue d)).active = false ∨ (s.queue (dQueue d)).mode ≠ 0) : s.pushDone fn d = s.pushRefused fn := by
  unfold State.pushDone
  dsimp only
  rw [if_neg (by simp [ho])]
  exact if_neg (by rcases h with h | h <;> simp [h])

theorem State.pushDone_accepts (ho : s.ownsQueue fn (dQueue d) = true) (hact : (s.queue (dQueue d)).active = true)
    (hmode : (s.queue (dQueue d)).mode = 0) (hroom : (s.queue (dQueue d)).holds < 32) :
    s.pushDone fn d = s.acceptDesc (dQueue d) d := by
  unfold State.pushDone
  dsimp only
  rw [if_neg (by simp [ho])]
  exact if_pos (by simp [hact, hmode, hroom])

/-- The push slots of every function stay. -/
def State.keepsPush (s t : State) : Prop := ∀ fn, (t.fnq fn).push = (s.fnq fn).push

theorem State.keepsPush_trans {s t u : State} (h : s.keepsPush t) (g : t.keepsPush u) : s.keepsPush u :=
  fun fn => (g fn).trans (h fn)

theorem State.keepsPush_modFnq {f : FnQ → FnQ} (hf : ∀ x, (f x).push = x.push) (fn : Nat) (s : State) : s.keepsPush (s.modFnq fn f) := by
  intro j
  rw [State.fnq_modFnq]
  split
  · rename_i h; rw [hf, h]
  · rfl

theorem State.keepsPush_modQueue (k : Nat) (f : Queue → Queue) (s : State) : s.keepsPush (s.modQueue k f) := fun _ => rfl

theorem State.keepsPush_twinCounted (k : Nat) (s : State) : s.keepsPush (s.twinCounted k) := by
  unfold State.twinCounted
  split <;> exact fun _ => rfl

theorem State.keepsPush_acceptCounted (k : Nat) (s : State) : s.keepsPush (s.acceptCounted k) := by
  have hcount : s.keepsPush ((s.modQm (fun m => { m with accepts := (m.accepts + 1) % 2 ^ 64, order := m.order + 1 })).modQueue k
      (fun r => { r with accepted := wrap1 32 r.accepted })) := fun _ => rfl
  unfold State.acceptCounted
  dsimp only
  split
  · exact State.keepsPush_trans hcount (State.keepsPush_modFnq (by intro; rfl) _ _)
  · exact hcount

/-- A descriptor accepted with the context hot is placed once the hit has been counted. -/
theorem State.acceptDesc_hot {k : Nat} (hr : s.hotIdle k) (d : Bytes) :
    ∃ u, s.acceptDesc k d = u.place k d ∧ s.takes k [] u ∧ s.keepsPush u := by
  obtain ⟨hnone, hhot, -⟩ := hr
  obtain ⟨l, o, hl, -⟩ := (s.modQm (fun m => { m with hits := sat1 32 m.hits })).makeHot_eq k
  refine ⟨(s.modQm (fun m => { m with hits := sat1 32 m.hits })).makeHot k, ?_,
    State.takes_trans (State.takes_modQm rfl rfl) (State.takes_makeHot k _), ?_⟩
  · unfold State.acceptDesc
    rw [if_neg (by simp [hnone]), if_pos (by simpa using hhot)]
  · rw [hl]; exact fun _ => rfl

theorem State.keepsPush_acceptDesc {k : Nat} (hr : s.hotIdle k) (h : s.checks k d) : s.keepsPush (s.acceptDesc k d) := by
  obtain ⟨u, he, htakes, hkeep⟩ := State.acceptDesc_hot hr d
  rw [he, State.place_eq (State.checks_of_takes htakes h)]
  exact State.keepsPush_trans (State.keepsPush_trans (State.keepsPush_trans hkeep (State.keepsPush_acceptCounted k u))
    (State.keepsPush_twinCounted k _)) (State.keepsPush_modQueue k _ _)

end

end Sys2Proof.Machine
end

section
/-! PROOFS. Completion rings: records written as slots are free, CRCFG and CR_HEAD (R122, R123, Table 6-6). -/

namespace Sys2Proof.Machine

open Sys2Proof

/-! ### Records that a ring takes (R115, R122) -/

/-- Records have been written to completion ring `r`, or wait there: its tail and its backlog alone may differ, and what has
left the device before stands. -/
def State.flushes (r : Nat) (s t : State) : Prop :=
  s.onlyRecs t ∧ (∀ j, j ≠ r → t.ring j = s.ring j) ∧ (∃ n b, t.ring r = { s.ring r with tail := n, backlog := b })
    ∧ s.out.msgs <+: t.out.msgs

section
variable {r : Nat} {s t u : State}

theorem State.flushes_refl (r : Nat) (s : State) : s.flushes r s :=
  ⟨s.onlyRecs_refl, fun _ _ => rfl, ⟨_, _, rfl⟩, List.prefix_rfl⟩

theorem State.flushes_trans (h : s.flushes r t) (g : t.flushes r u) : s.flushes r u := by
  obtain ⟨honly, hother, ⟨n, b, hr⟩, hout⟩ := h
  obtain ⟨gonly, gother, ⟨i, c, gr⟩, gout⟩ := g
  refine ⟨State.onlyRecs_trans honly gonly, fun j hj => (gother j hj).trans (hother j hj), ⟨i, c, ?_⟩, hout.trans gout⟩
  rw [gr, hr]

theorem State.flushes_modRing {f : CRing → CRing} (hf : ∃ n b, f (s.ring r) = { s.ring r with tail := n, backlog := b }) :
    s.flushes r (s.modRing r f) := by
  obtain ⟨n, b, hf⟩ := hf
  exact ⟨State.onlyRecs_modRing r f s, fun _ hj => (State.ring_modRing ..).trans (if_neg (Ne.symm hj)),
    ⟨n, b, ((State.ring_modRing ..).trans (if_pos rfl)).trans hf⟩, List.prefix_rfl⟩

/-- The message of one record at the tail of a ring (Table 6-4). -/
def State.recMsg (s : State) (r : Nat) (rc : Rec) : OutMsg :=
  .hostWrite ((s.ringOwner r).getD 0) ((s.ring r).base + (s.ring r).tail % (s.ring r).size * (if (s.ring r).entry64 then 64 else 32))
    (rc.bytes (s.ring r).phase (s.view 0x90) (s.ring r).entry64)

theorem State.writeRec_ring (r : Nat) (rc : Rec) (s : State) (j : Nat) :
    (s.writeRec r rc).ring j = if r = j then { s.ring r with tail := wrap1 32 (s.ring r).tail } else s.ring j :=
  State.ring_modRing (s.send (s.recMsg r rc)) r j (fun x => { x with tail := wrap1 32 x.tail })

theorem State.writeRec_out (r : Nat) (rc : Rec) (s : State) :
    (s.writeRec r rc).out = { s.out with msgs := s.out.msgs ++ [s.recMsg r rc] } := rfl

theorem State.flushes_writeRec (r : Nat) (rc : Rec) (s : State) : s.flushes r (s.writeRec r rc) :=
  ⟨State.onlyRecs_writeRec r rc s, fun _ hj => (State.writeRec_ring ..).trans (if_neg (Ne.symm hj)),
    ⟨_, (s.ring r).backlog, (State.writeRec_ring ..).trans (if_pos rfl)⟩, List.prefix_append ..⟩

theorem State.flushes_flushRing (r n : Nat) (s : State) : s.flushes r (s.flushRing r n) := by
  induction n generalizing s with
  | zero => exact State.flushes_refl r s
  | succ n ih =>
    unfold State.flushRing
    dsimp only
    split
    · exact State.flushes_refl r s
    · rename_i b rest _
      split
      · exact State.flushes_trans (State.flushes_trans (State.flushes_modRing ⟨_, rest, rfl⟩) (State.flushes_writeRec ..)) (ih _)
      · exact State.flushes_refl r s

theorem State.flushes_postRec (r : Nat) (rc : Rec) (s : State) : s.flushes r (s.postRec r rc) :=
  State.flushes_trans (State.flushes_modRing ⟨_, _, rfl⟩) (State.flushes_flushRing ..)

/-- A ring with a free slot, for which no record waits, takes a record at once. -/
theorem State.postRec_written {rc : Rec} (hfree : (s.ring r).free = true) (hb : (s.ring r).backlog = []) :
    (s.postRec r rc).out = { s.out with msgs := s.out.msgs ++ [s.recMsg r (unpackRec rc.pack)] }
      ∧ ((s.postRec r rc).ring r).tail = wrap1 32 (s.ring r).tail := by
  have hq : (s.modRing r (fun x => { x with backlog := x.backlog ++ [rc.pack] })).ring r = { s.ring r with backlog := [rc.pack] } := by
    rw [State.ring_modRing, if_pos rfl, hb]; rfl
  have hempty : ∀ u : State, (u.modRing r (fun x => { x with backlog := [] })).ring r = { u.ring r with backlog := [] } :=
    fun u => (State.ring_modRing ..).trans (if_pos rfl)
  have he : s.postRec r rc = (((s.modRing r (fun x => { x with backlog := x.backlog ++ [rc.pack] })).modRing r
      (fun x => { x with backlog := [] })).writeRec r (unpackRec rc.pack)) := by
    unfold State.postRec
    dsimp only
    rw [hq]
    dsimp only [List.length_singleton]
    unfold State.flushRing
    dsimp only
    rw [hq]
    dsimp only
    rw [if_pos (show ({ s.ring r with backlog := [rc.pack] } : CRing).free = true from hfree)]
    rfl
  rw [he, State.writeRec_out, State.writeRec_ring, if_pos rfl, State.recMsg, State.recMsg, hempty, hq]
  exact ⟨rfl, rfl⟩

end

/-! ### CRCFG_CTRL and CR_HEAD (R122) -/

section
variable {s : State} {fn : Fn} {v : Word} {i r : Nat}

theorem exec_crcfgCtrlWrite (fn : Fn) (v : Word) : exec (.crcfgCtrlWrite fn v) s = .next (s.crcfgCtrl fn v) := rfl

theorem exec_crHeadWrite (fn : Fn) (i : Nat) (v : Word) : exec (.crHeadWrite fn i v) s = .next (s.crHead fn i v) := rfl

/-- A ring with other settings, on which records that waited may be written. -/
theorem State.flushRing_modRing (f : CRing → CRing) (n : Nat) (s : State) :
    (∃ k b, ((s.modRing r f).flushRing r n).ring r = { f (s.ring r) with tail := k, backlog := b })
      ∧ ∀ j, j ≠ r → ((s.modRing r f).flushRing r n).ring j = s.ring j := by
  obtain ⟨-, hother, ⟨k, b, hr⟩, -⟩ := State.flushes_flushRing r n (s.modRing r f)
  rw [State.ring_modRing, if_pos rfl] at hr
  exact ⟨⟨k, b, hr⟩, fun j hj => (hother j hj).trans ((State.ring_modRing ..).trans (if_neg (Ne.symm hj)))⟩

theorem State.crHead_unmapped (ha : s.tenActive fn = true) (hr : s.ringOf fn i = none) :
    s.crHead fn i v = s.setB2 fn (0x2000 + 8 * i) (v &&& maskW [(0, 32)]) := by
  unfold State.crHead
  rw [hr]
  exact if_pos ha

/-- The ring with its new head. -/
def State.headed (r : Nat) (v : Word) (s : State) : State := s.modRing r (fun x => { x with head := fld v 0 32 })

theorem State.headed_ring (r : Nat) (v : Word) (s : State) : (s.headed r v).ring r = { s.ring r with head := fld v 0 32 } :=
  (State.ring_modRing ..).trans (if_pos rfl)

theorem State.crHead_sets (ha : s.tenActive fn = true) (hr : s.ringOf fn i = some r) :
    s.crHead fn i v = (s.headed r v).flushRing r (s.ring r).backlog.length := by
  unfold State.crHead
  rw [hr]
  dsimp only
  rw [if_neg (by simp [ha])]
  show (s.headed r v).flushRing r ((s.headed r v).ring r).backlog.length = _
  rw [State.headed_ring]

variable (ha : s.tenActive fn = true) (hr : s.ringOf fn (s.crSel fn) = some r)
include ha hr

theorem State.crcfgCtrl_mapped :
    s.crcfgCtrl fn v
      = if (s.ring r).enabled then
          if bitOf v 16 || s.ringInUse r then s else s.modRing r (fun r => { r with enabled := false })
        else if bitOf v 16 && (decide (fld v 0 5 < 6) || decide (16 < fld v 0 5)) then s
        else
          let s := s.modRing r (fun r => { r with enabled := bitOf v 16, log2 := fld v 0 5, entry64 := bitOf v 8 })
          s.flushRing r (s.ring r).backlog.length := by
  unfold State.crcfgCtrl
  rw [hr]
  dsimp only
  rw [if_neg (by simp [ha])]

/-- A disabled ring takes its settings with ENABLE. -/
theorem State.crcfgCtrl_enables (hoff : (s.ring r).enabled = false) (hlo : 6 ≤ fld v 0 5) (hhi : fld v 0 5 ≤ 16) :
    (∃ k b, (s.crcfgCtrl fn v).ring r
        = { s.ring r with enabled := bitOf v 16, log2 := fld v 0 5, entry64 := bitOf v 8, tail := k, backlog := b })
      ∧ ∀ j, j ≠ r → (s.crcfgCtrl fn v).ring j = s.ring j := by
  rw [State.crcfgCtrl_mapped ha hr, if_neg (by simp [hoff]), if_neg (by simp [Nat.not_lt.mpr hlo, Nat.not_lt.mpr hhi])]
  exact State.flushRing_modRing _ _ s

theorem State.crcfgCtrl_badSize (hoff : (s.ring r).enabled = false) (hon : bitOf v 16 = true) (hsize : fld v 0 5 < 6 ∨ 16 < fld v 0 5) :
    s.crcfgCtrl fn v = s := by
  rw [State.crcfgCtrl_mapped ha hr, if_neg (by simp [hoff]), if_pos (by simpa [hon] using hsize)]

theorem State.crcfgCtrl_disables (hen : (s.ring r).enabled = true) (hoff : bitOf v 16 = false) (huse : s.ringInUse r = false) :
    s.crcfgCtrl fn v = s.modRing r (fun r => { r with enabled := false }) := by
  rw [State.crcfgCtrl_mapped ha hr, if_pos hen, if_neg (by simp [hoff, huse])]

theorem State.crcfgCtrl_stays (hen : (s.ring r).enabled = true) (h : bitOf v 16 = true ∨ s.ringInUse r = true) : s.crcfgCtrl fn v = s := by
  rw [State.crcfgCtrl_mapped ha hr, if_pos hen, if_pos (by simpa using h)]

end

end Sys2Proof.Machine
end

section
/-! PROOFS. The poll page (R129, R130, R131, Table 6-10), and O48. -/

namespace Sys2Proof.Machine

open Sys2Proof

/-! ### The page as written (R129, R130) -/

section
variable {s t u : State} {fn : Fn} {v : Word}

theorem exec_ppEnable (fn : Fn) (v : Word) : exec (.ppEnable fn v) s = .next (s.ppCtrl fn v) := rfl

theorem exec_pollUpdate (fn : Fn) : exec (.pollUpdate fn) s = .next (s.pollUpdate fn) := rfl

theorem exec_backlogUpdate (fn : Fn) : exec (.backlogUpdate fn) s = .next (s.backlogUpdate fn) := rfl

/-- Host address of the poll page. -/
def State.pollBase (s : State) (fn : Nat) : Nat := (s.b2 fn 0x3040).toNat / 4096 * 4096

/-- The page has GEN `gen`: the fields have left the device after `ms`, and then GTC and GEN. -/
def State.pollPage (s : State) (fn gen : Nat) (ms : List OutMsg) (t : State) : Prop :=
  (t.fnq fn).gen = gen ∧ (t.fnq fn).dirty = false
    ∧ t.out.msgs = s.out.msgs ++ ms ++ [.hostWrite fn (s.pollBase fn + 0x10) (s.pollFields fn),
        .hostWrite fn (s.pollBase fn) (le 8 gen ++ le 8 (s.view 0x90))]

/-- GEN and the note of a change are no field of the page. -/
theorem State.pollFields_marked (fn gen : Nat) (s : State) :
    (s.modFnq fn (fun f => { f with gen := gen, dirty := false })).pollFields fn = s.pollFields fn := by
  unfold State.pollFields
  rw [State.fnq_modFnq, if_pos rfl]
  rfl

theorem State.onlyQm_frame (h : s.onlyQm t) : { t with qm := s.qm, out := s.out } = s := by
  obtain ⟨q, o, rfl⟩ := h
  rfl

theorem State.onlyQm_send (m : OutMsg) (s : State) : s.onlyQm (s.send m) := ⟨s.qm, _, rfl⟩

theorem State.onlyQm_pollWrite (fn gen : Nat) (s : State) : s.onlyQm (s.pollWrite fn gen) := by
  have hmark : s.onlyQm (s.modFnq fn (fun f => { f with gen := gen, dirty := false })) := ⟨_, s.out, rfl⟩
  unfold State.pollWrite State.hostWrite
  exact State.onlyQm_trans (State.onlyQm_trans hmark (State.onlyQm_send ..)) (State.onlyQm_send ..)

/-- An update writes the page, and changes GEN and the note of a change alone. -/
theorem State.pollWrite_page (fn gen : Nat) (s : State) :
    s.pollPage fn gen [] (s.pollWrite fn gen) ∧ { s.pollWrite fn gen with qm := s.qm, out := s.out } = s := by
  have hmarked : (s.pollWrite fn gen).fnq fn = { s.fnq fn with gen := gen, dirty := false } :=
    (State.fnq_modFnq s fn fn (fun f => { f with gen := gen, dirty := false })).trans (if_pos rfl)
  refine ⟨⟨by rw [hmarked], by rw [hmarked], ?_⟩, State.onlyQm_frame (s.onlyQm_pollWrite fn gen)⟩
  rw [← State.pollFields_marked fn gen s, List.append_nil]
  exact List.append_assoc s.out.msgs [_] [_]

/-- PP_CTRL has landed in the page's register. -/
def State.ppLanded (fn : Nat) (v : Word) (s : State) : State := s.setB2 fn 0x3048 (v &&& maskW [(0, 1), (8, 14)])

/-- The rest of the page as zeros. -/
def State.pollRest (s : State) (fn : Nat) : OutMsg := .hostWrite fn (s.pollBase fn + 0x440) (zeros 3008)

theorem State.ppLanded_base (fn : Nat) (v : Word) (s : State) : (s.ppLanded fn v).pollBase fn = s.pollBase fn := by
  simp [State.pollBase, State.ppLanded]

theorem State.ppCtrl_enables (ha : s.tenActive fn = true) (hv : bitOf v 0 = true) (hoff : s.pollOn fn = false) :
    s.ppCtrl fn v = ((s.ppLanded fn v).send (s.pollRest fn)).pollWrite fn 1 := by
  unfold State.ppCtrl
  rw [if_neg (by simp [ha])]
  dsimp only
  rw [if_pos (by simp [hv, hoff]), State.pollRest, ← s.ppLanded_base fn v]
  rfl

/-- ENABLE going to 1 writes the whole page, GEN 1. -/
theorem State.ppCtrl_page (ha : s.tenActive fn = true) (hv : bitOf v 0 = true) (hoff : s.pollOn fn = false) :
    s.pollPage fn 1 [s.pollRest fn] (s.ppCtrl fn v) ∧ (s.ppCtrl fn v).b2 fn 0x3048 = v &&& maskW [(0, 1), (8, 14)]
      ∧ { s.ppCtrl fn v with qm := s.qm, bar2 := s.bar2, out := s.out } = s := by
  obtain ⟨⟨hgen, hdirty, hmsgs⟩, hrest⟩ := State.pollWrite_page fn 1 ((s.ppLanded fn v).send (s.pollRest fn))
  have hbase : ((s.ppLanded fn v).send (s.pollRest fn)).pollBase fn = s.pollBase fn := s.ppLanded_base fn v
  have hfields : ((s.ppLanded fn v).send (s.pollRest fn)).pollFields fn = s.pollFields fn := rfl
  have hview : ((s.ppLanded fn v).send (s.pollRest fn)).view 0x90 = s.view 0x90 := rfl
  rw [hbase, hfields, hview, List.append_nil] at hmsgs
  rw [State.ppCtrl_enables ha hv hoff]
  have hkept := congrArg (fun x : State => { x with qm := s.qm, bar2 := s.bar2, out := s.out }) hrest
  dsimp only at hkept
  exact ⟨⟨hgen, hdirty, hmsgs⟩, (State.b2_setB2 s fn 0x3048 fn 0x3048 _).trans (if_pos ⟨rfl, rfl⟩), hkept⟩

theorem State.pollUpdate_writes (hon : s.pollOn fn = true) (hd : (s.fnq fn).dirty = true) :
    s.pollUpdate fn = s.pollWrite fn (((s.fnq fn).gen + 1) % 2 ^ 64) := if_pos (by simp [hon, hd])

theorem State.pollUpdate_idle (hd : (s.fnq fn).dirty = false) : s.pollUpdate fn = s := if_neg (by simp [hd])

theorem State.backlogUpdate_writes (hon : s.pollOn fn = true)
    (h : ∃ m < 64, (s.roomCfg? m).isSome ∧ s.roomTenant m = fn.val ∧ s.roomWaiting m ≠ 0) :
    s.backlogUpdate fn = s.pollWrite fn (((s.fnq fn).gen + 1) % 2 ^ 64) := by
  obtain ⟨m, hm, hroom, hten, hwait⟩ := h
  refine if_pos ?_
  rw [hon, Bool.true_and]
  exact List.any_eq_true.mpr ⟨m, List.mem_range.mpr hm, by simp [hroom, hten, hwait]⟩

end

/-- Settles O48: push slots, rings and the poll page, each by its own rule. -/
theorem pushWindowRingsAndPollPage : Obligations.PushWindowRingsAndPollPage := by
  unfold Obligations.PushWindowRingsAndPollPage
  intro s fn ha
  dsimp only
  refine ⟨fun k off d hk hd hoff => ⟨fun hnone => ⟨fun hlen => ?full, fun hlen => ?held⟩, fun h hs hlen hover => ?torn⟩,
    fun k h hs => ?timeout, fun v r hr => ⟨fun hdis hon => ⟨fun hlo hhi => ?enables, fun hsize => ?badSize⟩,
      fun hen hoff huse => ?disables, fun hen hkeep => ?stays⟩, fun i v r hr => ?head, fun i v hr => ?noRing,
    fun v hv hoff => ?enable, fun hon => ⟨fun hdirty => ?update, fun hclean => ?clean, fun hwaits => ?backlog⟩⟩
  case full =>
    have he : exec (.pushWrite fn (64 * k + off) d) s = .next ((s.pushClear fn k).pushDone fn d) := by
      rw [exec_pushWrite, State.pushWrite_slot ha hk hd hoff, State.pushPart_fresh hnone, if_pos hlen]
    refine ⟨fun ho hact hmode hroom hfetch hhot hhl hdesc hdrain => ⟨_, he, ?_⟩, fun ho href => ⟨_, he, ?_⟩⟩
    · have hidle : (s.pushClear fn k).hotIdle (dQueue d) := ⟨hfetch, hhot, hhl⟩
      have hchecks : (s.pushClear fn k).checks (dQueue d) d := ⟨hdrain, hdesc⟩
      rw [State.pushDone_accepts (s := s.pushClear fn k) ho hact hmode hroom]
      obtain ⟨⟨hrest, -, hother, ws, n, m, hq, hws⟩, -⟩ := State.takes_acceptDesc hidle hchecks
      refine ⟨?_, ?_, hother, congrArg (fun x : State => { x with qm := s.qm }) hrest⟩
      · rw [hq]; exact hws
      · rw [State.keepsPush_acceptDesc hidle hchecks]; exact State.pushClear_none fn k s
    · rw [State.pushDone_refuses (s := s.pushClear fn k) ho href]
      obtain ⟨hqm, hfn⟩ := (s.pushClear fn k).pushRefused_counts fn
      rw [State.pushClear_fnq] at hfn
      exact ⟨hqm, hfn, State.keepsQueues_trans (s.keepsQueues_pushClear fn k) (State.keepsQueues_pushRefused ..)⟩
  case held =>
    refine ⟨_, exec_pushWrite fn (64 * k + off) d, ?_⟩
    rw [State.pushWrite_slot ha hk hd hoff, State.pushPart_fresh hnone, if_neg (Nat.ne_of_lt hlen)]
    exact ⟨fun i _ => State.pushSet_holds fn k off d s i, s.keepsQueues_pushSet ..⟩
  case torn =>
    obtain ⟨hqm, hfn⟩ := State.torn_counts fn s
    refine ⟨_, exec_pushWrite fn (64 * k + off) d, ?_⟩
    rw [State.pushWrite_slot ha hk hd hoff, State.pushPart_torn hs hlen hover]
    refine ⟨hqm, ?_, fun i _ => State.pushSet_holds fn k off d (s.torn fn) i,
      State.keepsQueues_trans (s.keepsQueues_torn fn) (State.keepsQueues_pushSet ..)⟩
    rw [State.pushSet, State.fnq_modFnq, if_pos rfl]
    exact hfn
  case timeout =>
    obtain ⟨hqm, hfn⟩ := (s.pushClear fn k).torn_counts fn
    rw [State.pushClear_fnq] at hfn
    refine ⟨_, exec_pushTimeout fn k, ?_⟩
    rw [State.pushTimeout_drops hs]
    refine ⟨?_, hqm, hfn, State.keepsQueues_trans (s.keepsQueues_pushClear fn k) (State.keepsQueues_torn ..)⟩
    rw [State.torn, State.fnq_modFnq, if_pos rfl]
    exact State.pushClear_none fn k s
  case enables =>
    obtain ⟨⟨n, b, hring⟩, hother⟩ := State.crcfgCtrl_enables ha hr hdis hlo hhi
    refine ⟨_, exec_crcfgCtrlWrite fn v, ?_, ?_, ?_, ?_, hother⟩
    all_goals rw [hring]
    exact hon
  case badSize => rw [exec_crcfgCtrlWrite, State.crcfgCtrl_badSize ha hr hdis hon hsize]
  case disables =>
    refine ⟨_, exec_crcfgCtrlWrite fn v, ?_⟩
    rw [State.crcfgCtrl_disables ha hr hen hoff huse]
    exact ⟨(State.ring_modRing ..).trans (if_pos rfl), fun j hj => (State.ring_modRing ..).trans (if_neg (Ne.symm hj)), rfl⟩
  case stays => rw [exec_crcfgCtrlWrite, State.crcfgCtrl_stays ha hr hen hkeep]
  case head =>
    obtain ⟨⟨n, b, hring⟩, hother⟩ := State.flushRing_modRing (r := r) (fun x => { x with head := fld v 0 32 })
      (s.ring r).backlog.length s
    refine ⟨_, exec_crHeadWrite fn i v, ?_⟩
    rw [State.crHead_sets ha hr]
    refine ⟨congrArg CRing.head hring, hother, fun hb => ?_⟩
    have he : (s.headed r v).flushRing r (s.ring r).backlog.length = s.headed r v := by rw [hb]; rfl
    rw [he]
    exact ⟨State.headed_ring r v s, rfl⟩
  case noRing =>
    refine ⟨_, exec_crHeadWrite fn i v, ?_⟩
    rw [State.crHead_unmapped ha hr]
    exact ⟨(State.b2_setB2 ..).trans (if_pos ⟨rfl, rfl⟩), rfl⟩
  case enable => exact ⟨_, exec_ppEnable fn v, State.ppCtrl_page ha hv hoff⟩
  case update =>
    refine ⟨_, exec_pollUpdate fn, ?_⟩
    rw [State.pollUpdate_writes hon hdirty]
    exact State.pollWrite_page fn _ s
  case clean => rw [exec_pollUpdate, State.pollUpdate_idle hclean]
  case backlog =>
    refine ⟨_, exec_backlogUpdate fn, ?_⟩
    rw [State.backlogUpdate_writes hon hwaits]
    exact State.pollWrite_page fn _ s

end Sys2Proof.Machine
end

section
/-! PROOFS. Descriptors that end at the head of their queue: NOP and STATE_ZERO (R113, R116, R121, R126, R306). -/

namespace Sys2Proof.Machine

open Sys2Proof

/-! ### The next head (R113) -/

theorem mem_of_firstBy {α : Type} {lt : α → α → Bool} {l : List α} {a : α} (h : firstBy lt l = some a) : a ∈ l := by
  induction l with
  | nil => cases h
  | cons b l ih =>
    cases hl : firstBy lt l with
    | none =>
      rw [firstBy, hl] at h
      exact Option.some.inj h ▸ List.mem_cons_self
    | some c =>
      rw [firstBy, hl] at h
      dsimp only at h
      split at h
      · exact List.mem_cons_of_mem b (ih (hl.trans h))
      · exact Option.some.inj h ▸ List.mem_cons_self

/-- The completion ring of a queue has a free slot, and no record waits for it. -/
def State.takesRec (s : State) (q r : Nat) : Prop := s.queueRing q = some r ∧ (s.ring r).free = true ∧ (s.ring r).backlog = []

theorem State.ringOk_iff {s : State} {q : Nat} : s.ringOk q = true ↔ ∃ r, s.takesRec q r := by
  unfold State.ringOk State.takesRec
  cases s.queueRing q with
  | none => simp
  | some r => simp

/-- The next head of a room may start, and its record has a place. -/
theorem State.nextHead_takesRec {s : State} {m q : Nat} {e : QEntry} (h : s.nextHead m = some (q, e)) : ∃ r, s.takesRec q r := by
  unfold State.nextHead at h
  split at h
  · cases h
  · obtain ⟨-, hok⟩ := List.mem_filter.mp (mem_of_firstBy h)
    exact State.ringOk_iff.mp (Bool.and_eq_true_iff.mp hok).2

/-! ### The head leaves its queue (R113, R306) -/

section
variable {s : State} {m q r st detail : Nat} {e : QEntry}

/-- The start message of a pair is sent or used; without a twin nothing is done. -/
theorem State.tellStart_eq (q : Nat) (e : QEntry) (x : Nat) (s : State) :
    ∃ p ms, s.tellStart q e x = ({ s with repro := p } : State).sendAll ms ∧ (e.twin = none → p = s.repro ∧ ms = []) := by
  have hnone : s = ({ s with repro := s.repro } : State).sendAll [] := by simp [State.sendAll]
  unfold State.tellStart
  split
  · rename_i no htwin
    have hsome : e.twin ≠ none := by rw [htwin]; exact nofun
    split
    · exact ⟨s.repro, [.twinStart q no x], rfl, fun h => absurd h hsome⟩
    · refine ⟨{ s.repro with starts := s.repro.starts.filter (fun x => !(x.1 == q && x.2.1 == no)) }, [], ?_, fun h => absurd h hsome⟩
      simp [State.sendAll, State.modRepro]
  · exact ⟨s.repro, [], hnone, fun _ => ⟨rfl, rfl⟩⟩

/-- The head of a queue has left it, and ring entries are asked for in its place. -/
def State.headOut (q : Nat) (e : QEntry) (x : Nat) (s : State) : State := ((s.tellStart q e x).dequeue q).ringAsk q

/-- Beside the start message of a pair, the queue's head has left it and reads of its owner's memory have left the device. -/
theorem State.headOut_eq (q : Nat) (e : QEntry) (x : Nat) (s : State) :
    ∃ p qs ms n, s.headOut q e x = ({ s with repro := p, qm := { s.qm with queues := qs } } : State).sendAll ms
      ∧ (∀ j, j ≠ q → NMap.getD qs j .reset = s.queue j)
      ∧ NMap.getD qs q .reset = { s.queue q with waiting := (s.queue q).waiting.drop 1, asked := n }
      ∧ (e.twin = none → p = s.repro ∧ ∀ y ∈ ms, ∃ a l, y = .hostRead ((s.queueOwner q).getD 0) a l) := by
  obtain ⟨p, ms, htell, hlone⟩ := s.tellStart_eq q e x
  obtain ⟨qs, rs, hask, hother, ⟨n, hq, -⟩, hreads⟩ := ((s.tellStart q e x).dequeue q).ringAsk_asks q
  rw [htell] at hask hother hq hreads
  refine ⟨p, qs, ms ++ rs, n, ?_, fun j hj => ?_, ?_, fun htwin => ?_⟩
  · rw [State.headOut, htell, hask, ← State.sendAll_sendAll]
    rfl
  · exact (hother j hj).trans ((State.queue_modQueue ..).trans (if_neg (Ne.symm hj)))
  · rw [hq, State.dequeue, State.queue_modQueue, if_pos rfl]
    rfl
  · obtain ⟨hp, hms⟩ := hlone htwin
    refine ⟨hp, fun y hy => ?_⟩
    rw [hms, List.nil_append] at hy
    obtain ⟨a, l, ha, -⟩ := hreads y hy
    exact ⟨a, l, ha⟩

/-! ### The record of a head that becomes no task (R116, R126) -/

/-- The record of a head that ends with a status, as it leaves the device. -/
def State.headRec (s : State) (q m r st detail : Nat) (e : QEntry) : OutMsg :=
  s.recMsg r (unpackRec (s.descRec q e.raw st detail (s.dispView m - e.accGtc)).pack)

/-- The head of a queue has ended: its record, the messages before it, and what stays. -/
def State.headEnds (q m r st detail : Nat) (e : QEntry) (pre : List OutMsg) (s t : State) : Prop :=
  (t.queue q).waiting = (s.queue q).waiting.drop 1 ∧ (t.ring r).tail = wrap1 32 (s.ring r).tail
    ∧ (e.twin = none → ∀ x ∈ pre, ∃ a l, x = .hostRead ((s.queueOwner q).getD 0) a l)
    ∧ t.out.msgs = s.out.msgs ++ pre ++ [s.headRec q m r st detail e]
    ∧ (e.twin = none → t.repro = s.repro) ∧ { t with qm := s.qm, out := s.out, repro := s.repro } = s

theorem State.endHead_ends (h : s.takesRec q r) (m st detail : Nat) (e : QEntry) :
    ∃ pre, s.headEnds q m r st detail e pre (s.endHead m q e st detail) := by
  obtain ⟨hring, hfree, hback⟩ := h
  obtain ⟨p, qs, ms, n, hout, -, hq, hlone⟩ := s.headOut_eq q e (s.lateness m q e)
  obtain ⟨p', ms', htell, -⟩ := s.tellStart_eq q e (s.lateness m q e)
  have hrec : (s.tellStart q e (s.lateness m q e)).descRec q e.raw st detail (s.dispView m - e.accGtc)
      = s.descRec q e.raw st detail (s.dispView m - e.accGtc) := by rw [htell]; rfl
  have hr : (s.tellStart q e (s.lateness m q e)).queueRing q = some r := by rw [htell]; exact hring
  have he : s.endHead m q e st detail = (s.headOut q e (s.lateness m q e)).postRec r
      (s.descRec q e.raw st detail (s.dispView m - e.accGtc)) := by
    unfold State.endHead
    dsimp only
    rw [hrec, hr]
    rfl
  obtain ⟨hmsgs, htail⟩ := State.postRec_written (s := s.headOut q e (s.lateness m q e)) (r := r)
    (rc := s.descRec q e.raw st detail (s.dispView m - e.accGtc)) (by rw [hout]; exact hfree) (by rw [hout]; exact hback)
  obtain ⟨rings, fns, o, honly⟩ := State.onlyRecs_postRec r (s.descRec q e.raw st detail (s.dispView m - e.accGtc))
    (s.headOut q e (s.lateness m q e))
  rw [he]
  refine ⟨ms, ?_, htail.trans (by rw [hout]; rfl), fun htwin => (hlone htwin).2, ?_, fun htwin => ?_, ?_⟩
  · rw [honly, hout]
    exact congrArg Queue.waiting hq
  · rw [hmsgs, hout]
    rfl
  · rw [honly, hout]
    exact (hlone htwin).1
  · rw [honly, hout]
    rfl

/-! ### NOP and STATE_ZERO (Table 6-3) -/

theorem exec_nop (q : Nat) : exec (.nop q) s = .next (s.nop q) := rfl

theorem exec_stateZero (q : Nat) : exec (.stateZero q) s = .next (s.stateZero q) := rfl

/-- Without a twin the deadline comes out by the dispatcher's view (R121). -/
theorem State.lateness_lone (h : e.twin = none) :
    s.lateness m q e = if s.startsLate m e.raw then (if dDropLate e.raw then 2 else 1) else 0 := by
  unfold State.lateness State.startMsg?
  rw [h]
  exact if_neg (by decide)

theorem State.startsLate_iff {d : Bytes} : s.startsLate m d = true ↔ dDeadline d ≠ 0 ∧ dDeadline d < s.dispView m := by
  simp [State.startsLate]

/-- A NOP at the head of its queue that may start ends with the status of its deadline. -/
theorem State.nop_ends {rest : List QEntry} (hw : (s.queue q).waiting = e :: rest) (hm : s.queueRoom q = some m) (hop : dOp e.raw = 2)
    (hheld : s.roomHeld m = false) (hready : s.headReady m q e = true) (hr : s.takesRec q r) :
    s.nop q = s.endHead m q e (if s.lateness m q e = 2 then 0x60 else s.lateness m q e) 0 := by
  unfold State.nop
  rw [hw, hm]
  exact if_pos (by simp [hop, hheld, hready, State.ringOk_iff.mpr ⟨r, hr⟩])

/-- The state block of a descriptor that uses one, zeroed for the graph's size (R336). -/
def State.blockZeroed (e : QEntry) (g : PEntry) (s : State) : State :=
  if dUsesState e.raw then s.modStore (fun st => st.wipe lineB (dState e.raw) g.stateBytes) else s

/-- Zeroing a state block changes its bytes alone. -/
theorem State.blockZeroed_cellar (e : QEntry) (g : PEntry) (s : State) :
    (∃ c, s.blockZeroed e g = { s with cellar := c })
      ∧ ∀ a, Mem.byte (s.blockZeroed e g).cellar.store.mem a
          = if dUsesState e.raw = true ∧ dState e.raw ≤ a ∧ a < dState e.raw + g.stateBytes then 0 else Mem.byte s.cellar.store.mem a := by
  unfold State.blockZeroed
  cases dUsesState e.raw with
  | true =>
    refine ⟨⟨_, rfl⟩, fun a => (Mem.byte_clear s.cellar.store.mem (dState e.raw) g.stateBytes a).trans ?_⟩
    exact if_congr (by simp) rfl rfl
  | false => exact ⟨⟨s.cellar, rfl⟩, fun a => (if_neg (by simp)).symm⟩

/-- A STATE_ZERO that starts next and passes its checks zeroes its block and ends. -/
theorem State.stateZero_goes {w i : Nat} {g : PEntry} {late : Bool} (hm : s.queueRoom q = some m) (hnext : s.nextHead m = some (q, e))
    (hop : dOp e.raw = 3) (hgo : s.startCheck m q e = .goes w i g late) :
    s.stateZero q = (s.blockZeroed e g).endHead m q e (b2n late) 0 := by
  unfold State.stateZero
  rw [hm]
  dsimp only
  rw [hnext]
  dsimp only
  rw [if_pos (by simp [hop]), hgo]
  rfl

/-- What STATE_ZERO leaves: the block, the record, and the rest as it was. -/
theorem State.headEnds_blockZeroed {pre : List OutMsg} {g : PEntry} {t : State}
    (h : (s.blockZeroed e g).headEnds q m r st detail e pre t) :
    (t.queue q).waiting = (s.queue q).waiting.drop 1 ∧ t.cellar = (s.blockZeroed e g).cellar
      ∧ (t.ring r).tail = wrap1 32 (s.ring r).tail
      ∧ (e.twin = none → ∀ x ∈ pre, ∃ a l, x = .hostRead ((s.queueOwner q).getD 0) a l)
      ∧ t.out.msgs = s.out.msgs ++ pre ++ [s.headRec q m r st detail e] ∧ (e.twin = none → t.repro = s.repro)
      ∧ { t with qm := s.qm, out := s.out, cellar := s.cellar, repro := s.repro } = s ∧ t.tasks = s.tasks := by
  obtain ⟨⟨c, hc⟩, -⟩ := s.blockZeroed_cellar e g
  obtain ⟨hwait, htail, hpre, hmsgs, hrepro, hrest⟩ := h
  rw [hc] at hwait htail hpre hmsgs hrepro hrest ⊢
  exact ⟨hwait, (congrArg State.cellar hrest :), htail, hpre, hmsgs, hrepro,
    (congrArg (fun x : State => { x with cellar := s.cellar }) hrest :), (congrArg State.tasks hrest :)⟩

end

end Sys2Proof.Machine
end

section
/-! PROOFS. What follows a start and leaves tasks, islands and queues (R123, R299, R300, R308, R380). -/

namespace Sys2Proof.Machine

open Sys2Proof

/-! ### Heads passed over (R113, R123) -/

/-- Only the counts of stalls of completion rings may differ. -/
def State.onlyStalls (s t : State) : Prop :=
  ∃ rs, t = { s with qm := { s.qm with rings := rs } } ∧ ∀ j, ∃ n, NMap.getD rs j .reset = { s.ring j with stalls := n }

section
variable {s t u : State}

theorem State.onlyStalls_refl (s : State) : s.onlyStalls s := ⟨s.qm.rings, rfl, fun j => ⟨(s.ring j).stalls, rfl⟩⟩

theorem State.onlyStalls_trans (h : s.onlyStalls t) (g : t.onlyStalls u) : s.onlyStalls u := by
  obtain ⟨rs, rfl, hrs⟩ := h
  obtain ⟨rs', rfl, hrs'⟩ := g
  refine ⟨rs', rfl, fun j => ?_⟩
  obtain ⟨n, hn⟩ := hrs j
  obtain ⟨i, hi⟩ := hrs' j
  refine ⟨i, hi.trans ?_⟩
  show { NMap.getD rs j CRing.reset with stalls := i } = _
  rw [hn]

theorem State.onlyStalls_modRing {f : CRing → CRing} (hf : ∀ x, ∃ n, f x = { x with stalls := n }) (r : Nat) (s : State) :
    s.onlyStalls (s.modRing r f) := by
  refine ⟨_, rfl, fun j => ?_⟩
  rw [NMap.getD_upd]
  split
  · rename_i h; rw [← h]; exact hf _
  · exact ⟨(s.ring j).stalls, rfl⟩

theorem State.onlyStalls_countStalls (m : Nat) (s : State) : s.onlyStalls (s.countStalls m) := by
  unfold State.countStalls
  split
  · exact s.onlyStalls_refl
  · refine foldl_relates State.onlyStalls_refl State.onlyStalls_trans (fun s x => ?_) _ s
    split
    · exact State.onlyStalls_modRing (fun x => ⟨sat1 16 x.stalls, rfl⟩) _ s
    · exact s.onlyStalls_refl

section
variable (h : s.onlyStalls t)
include h

theorem State.onlyStalls_takesRec (q r : Nat) : t.takesRec q r ↔ s.takesRec q r := by
  obtain ⟨rs, rfl, hrs⟩ := h
  obtain ⟨n, hn⟩ := hrs r
  unfold State.takesRec
  rw [show ({ s with qm := { s.qm with rings := rs } } : State).ring r = { s.ring r with stalls := n } from hn]
  exact Iff.rfl

theorem State.onlyStalls_nextHead (m : Nat) : t.nextHead m = s.nextHead m := by
  have hok (q : Nat) : t.ringOk q = s.ringOk q := by
    rw [Bool.eq_iff_iff, State.ringOk_iff, State.ringOk_iff]
    exact exists_congr (State.onlyStalls_takesRec h q)
  unfold State.nextHead
  simp only [hok]
  obtain ⟨rs, rfl, -⟩ := h
  rfl

theorem State.onlyStalls_headRec (q m r st detail : Nat) (e : QEntry) : t.headRec q m r st detail e = s.headRec q m r st detail e := by
  obtain ⟨rs, rfl, hrs⟩ := h
  obtain ⟨n, hn⟩ := hrs r
  unfold State.headRec State.recMsg
  rw [show ({ s with qm := { s.qm with rings := rs } } : State).ring r = { s.ring r with stalls := n } from hn]
  rfl

theorem State.onlyStalls_reserved (r : Nat) : (t.ring r).reserved = (s.ring r).reserved := by
  obtain ⟨rs, rfl, hrs⟩ := h
  obtain ⟨n, hn⟩ := hrs r
  exact (congrArg CRing.reserved hn :)

end

/-! ### Events, twins and clocks -/

/-- Tasks, islands, queues and the slots reserved for records stay. -/
def State.keepsTasks (s t : State) : Prop :=
  t.tasks = s.tasks ∧ t.isl = s.isl ∧ t.qm.queues = s.qm.queues ∧ ∀ j, (t.ring j).reserved = (s.ring j).reserved

theorem State.keepsTasks_trans (h : s.keepsTasks t) (g : t.keepsTasks u) : s.keepsTasks u := by
  obtain ⟨htasks, hisl, hqueues, hres⟩ := h
  obtain ⟨gtasks, gisl, gqueues, gres⟩ := g
  exact ⟨gtasks.trans htasks, gisl.trans hisl, gqueues.trans hqueues, fun j => (gres j).trans (hres j)⟩

/-- Effects on neither tasks, islands nor the queue manager. -/
theorem State.keepsTasks_of_eq (htasks : t.tasks = s.tasks) (hisl : t.isl = s.isl) (hqm : t.qm = s.qm) : s.keepsTasks t :=
  ⟨htasks, hisl, congrArg QMgr.queues hqm, fun j => congrArg (fun x : QMgr => (NMap.getD x.rings j CRing.reset).reserved) hqm⟩

theorem State.keepsTasks_of_onlySends (h : s.onlySends t) : s.keepsTasks t := by
  obtain ⟨l, o, rfl⟩ := h
  exact State.keepsTasks_of_eq rfl rfl rfl

theorem State.keepsTasks_tellStart (q : Nat) (e : QEntry) (x : Nat) (s : State) : s.keepsTasks (s.tellStart q e x) := by
  obtain ⟨p, ms, h, -⟩ := s.tellStart_eq q e x
  rw [h]
  exact State.keepsTasks_of_eq rfl rfl rfl

theorem State.keepsTasks_countStalls (m : Nat) (s : State) : s.keepsTasks (s.countStalls m) := by
  have hstalls := State.onlyStalls_countStalls m s
  have hres := State.onlyStalls_reserved hstalls
  obtain ⟨rs, hrs, -⟩ := hstalls
  refine ⟨?_, ?_, ?_, hres⟩
  all_goals rw [hrs]

/-- Tasks, islands, queues and reserved slots stay, and what has left the device stands. -/
def State.keepsStarts (s t : State) : Prop := s.keepsTasks t ∧ s.out.msgs <+: t.out.msgs

theorem State.keepsStarts_trans (h : s.keepsStarts t) (g : t.keepsStarts u) : s.keepsStarts u :=
  ⟨State.keepsTasks_trans h.1 g.1, h.2.trans g.2⟩

theorem State.keepsStarts_of_eq (htasks : t.tasks = s.tasks) (hisl : t.isl = s.isl) (hqm : t.qm = s.qm) (hout : t.out = s.out) :
    s.keepsStarts t :=
  ⟨State.keepsTasks_of_eq htasks hisl hqm, by rw [hout]⟩

theorem State.keepsStarts_refl (s : State) : s.keepsStarts s := State.keepsStarts_of_eq rfl rfl rfl rfl

theorem State.keepsStarts_foldl {α : Type} {f : State → α → State} (hf : ∀ (s : State) x, s.keepsStarts (f s x)) (l : List α) (s : State) :
    s.keepsStarts (l.foldl f s) :=
  foldl_relates State.keepsStarts_refl State.keepsStarts_trans hf l s

theorem State.keepsStarts_modRoom (m : Nat) (f : RoomRt → RoomRt) (s : State) : s.keepsStarts (s.modRoom m f) :=
  State.keepsStarts_of_eq rfl rfl rfl rfl

theorem State.keepsStarts_emit (src cls code ten sev : Nat) (words : List Nat) (s : State) :
    s.keepsStarts (s.emit src cls code ten sev words) := by
  obtain ⟨st, l, h⟩ := State.onlyEvents_emit src cls code ten sev words s
  rw [h]
  exact State.keepsStarts_of_eq rfl rfl rfl rfl

theorem State.keepsStarts_modFnq (fn : Nat) (f : FnQ → FnQ) (s : State) : s.keepsStarts (s.modFnq fn f) :=
  ⟨⟨rfl, rfl, rfl, fun _ => rfl⟩, List.prefix_rfl⟩

theorem State.keepsStarts_modTen (k : Nat) (f : TenRt → TenRt) (s : State) : s.keepsStarts (s.modTen k f) :=
  State.keepsStarts_of_eq rfl rfl rfl rfl

theorem State.keepsStarts_addrViol (src k addr : Nat) (s : State) : s.keepsStarts (s.addrViol src k addr) := by
  unfold State.addrViol State.setFault
  exact State.keepsStarts_trans (State.keepsStarts_trans (State.keepsStarts_trans (State.keepsStarts_modTen k _ s)
    (State.keepsStarts_modTen ..)) (State.keepsStarts_modFnq ..)) (State.keepsStarts_emit ..)

theorem State.keepsStarts_twinFail (q : Nat) (e : QEntry) (st detail : Nat) (s : State) : s.keepsStarts (s.twinFail q e st detail) := by
  unfold State.twinFail
  split
  · split
    · exact ⟨State.keepsTasks_of_eq rfl rfl rfl, List.prefix_append ..⟩
    · exact s.keepsStarts_refl
  · exact s.keepsStarts_refl

theorem State.keepsStarts_postRec (r : Nat) (rc : Rec) (s : State) : s.keepsStarts (s.postRec r rc) := by
  obtain ⟨⟨rs, fs, o, honly⟩, hother, ⟨n, b, hr⟩, hout⟩ := State.flushes_postRec r rc s
  refine ⟨⟨by rw [honly], by rw [honly], by rw [honly], fun j => ?_⟩, hout⟩
  by_cases hj : j = r
  · rw [hj, hr]
  · rw [hother j hj]

theorem State.keepsStarts_timingBreak (m cause : Nat) (s : State) : s.keepsStarts (s.timingBreak m cause) := by
  unfold State.timingBreak
  split
  · exact State.keepsStarts_trans (State.keepsStarts_trans (State.keepsStarts_modRoom m _ s) (State.keepsStarts_emit ..))
      (State.keepsStarts_foldl (fun s r => State.keepsStarts_postRec r _ s) _ _)
  · exact s.keepsStarts_refl

theorem State.keepsStarts_clockChanged (src : Nat) (fresh : Option Nat) (s : State) : s.keepsStarts (s.clockChanged src fresh) := by
  refine State.keepsStarts_foldl (fun s m => ?_) _ s
  dsimp only
  split
  · exact State.keepsStarts_trans (State.keepsStarts_modRoom m _ s) (State.keepsStarts_timingBreak ..)
  · exact State.keepsStarts_modRoom m _ s

theorem State.keepsStarts_retuneTo (src new : Nat) (s : State) : s.keepsStarts (s.retuneTo src new) :=
  State.keepsStarts_of_eq rfl rfl rfl rfl

theorem State.keepsStarts_syncCeilAt (fresh : Option Nat) (s : State) : s.keepsStarts (s.syncCeilAt fresh) := by
  refine State.keepsStarts_foldl (fun s src => ?_) _ s
  dsimp only
  split
  · exact s.keepsStarts_refl
  · exact State.keepsStarts_trans (State.keepsStarts_retuneTo src _ s) (State.keepsStarts_clockChanged ..)

theorem State.keepsStarts_settleTimed (m : Nat) (s : State) : s.keepsStarts (s.settleTimed m) := by
  unfold State.settleTimed State.returnTimed
  split
  · split
    · exact s.keepsStarts_refl
    · split
      · exact State.keepsStarts_modRoom ..
      · split <;> exact State.keepsStarts_modRoom ..
  · exact s.keepsStarts_refl

theorem State.keepsStarts_afterTask (m : Nat) (s : State) : s.keepsStarts (s.afterTask m) :=
  State.keepsStarts_trans (State.keepsStarts_settleTimed m s) (State.keepsStarts_syncCeilAt ..)

theorem State.onlySends_tellStarts (old m : Nat) (s : State) : s.onlySends (s.tellStarts old m) := by
  unfold State.tellStarts
  split
  · exact s.onlySends_refl
  · split
    · exact s.onlySends_refl
    · split
      · exact s.onlySends_refl
      · exact State.onlySends_foldl (fun s k => State.onlySends_sendMsg _ _ s) _ s

/-- No member is told where no task has started. -/
theorem State.tellStarts_none {old m : Nat} (h : s.tasks.next = old) : s.tellStarts old m = s := if_pos (by simp [h])

end

end Sys2Proof.Machine
end

section
/-! PROOFS. Slots taken for a task (R133, R135, R142, Table 7-2). -/

namespace Sys2Proof.Machine

open Sys2Proof

/-! ### One slot filled -/

/-- A slot as a start leaves it. -/
def State.filled (s : State) (n k tid seg copy : Nat) (g : SegInfo) (prog : Nat) : Slot :=
  { Slot.reset with
    st := .ready, task := tid
    regs := NMap.set (NMap.set (NMap.set [] 30 (BitVec.ofNat 64 (s.stackHi n k))) 1 (BitVec.ofNat 64 copy)) 2 (BitVec.ofNat 64 seg)
    pc := prog + g.entry, evec := if g.evec = 0 then 0 else BitVec.ofNat 64 (prog + g.evec), seg := seg
    pages := (s.freePages n).take g.pages, hold := g.hold }

theorem State.slot_fillSlot (n k tid seg copy : Nat) (g : SegInfo) (prog : Nat) (s : State) :
    (s.fillSlot n k tid seg copy g prog).slot n k = s.filled n k tid seg copy g prog := by
  rw [State.slot, State.fillSlot, State.island_modIsl, if_pos rfl, NMap.getD_set, if_pos rfl]
  rfl

/-- A filled slot's registers: the top of its stack, the descriptor's copy, its segment, and 0 in every other (R135). -/
theorem State.filled_regs (s : State) (n k tid seg copy : Nat) (g : SegInfo) (prog : Nat) :
    (s.filled n k tid seg copy g prog).getReg 30 = BitVec.ofNat 64 (s.stackHi n k)
      ∧ (s.filled n k tid seg copy g prog).getReg 2 = BitVec.ofNat 64 seg
      ∧ (s.filled n k tid seg copy g prog).getReg 1 = BitVec.ofNat 64 copy
      ∧ ∀ j, j ≠ 1 → j ≠ 2 → j ≠ 30 → (s.filled n k tid seg copy g prog).getReg j = 0 := by
  unfold State.filled Slot.getReg
  refine ⟨by simp, by simp, by simp, fun j h1 h2 h30 => ?_⟩
  simp [h1.symm, h2.symm, h30.symm, NMap.getD, NMap.find?]

/-! ### Slots on the islands of a room -/

/-- The Living set and island `n` stay. -/
def State.keepsIsl (n : Nat) (s t : State) : Prop := t.living = s.living ∧ t.island n = s.island n

section
variable {s t u : State} {n : Nat}

theorem State.keepsIsl_refl (n : Nat) (s : State) : s.keepsIsl n s := ⟨rfl, rfl⟩

theorem State.keepsIsl_trans (h : s.keepsIsl n t) (g : t.keepsIsl n u) : s.keepsIsl n u :=
  ⟨g.1.trans h.1, g.2.trans h.2⟩

theorem State.keepsIsl_freeSlot (h : s.keepsIsl n t) (limit : Nat) : t.freeSlot n limit = s.freeSlot n limit := by
  unfold State.freeSlot State.slot
  rw [h.2]

theorem State.keepsIsl_filled (h : s.keepsIsl n t) (k tid seg copy : Nat) (g : SegInfo) (prog : Nat) :
    t.filled n k tid seg copy g prog = s.filled n k tid seg copy g prog := by
  obtain ⟨hliving, hisl⟩ := h
  unfold State.filled State.freePages State.stackHi State.pages State.workBase State.pin State.stackB State.islCfg
  rw [hliving, hisl]

/-- A slot taken on the island of one segment, where one is free. -/
def State.takeSlot (tid limit : Nat) (copy : Nat → Nat) (e : PEntry) (a : State × List (Nat × Nat)) (x : Nat × Nat × SegInfo) :
    State × List (Nat × Nat) :=
  match a.1.freeSlot x.1 limit with
  | some k => (a.1.fillSlot x.1 k tid x.2.1 (copy k) x.2.2 (e.progOn x.1), a.2 ++ [(x.1, k)])
  | none => a

variable {tid limit : Nat} {copy : Nat → Nat} {e : PEntry}

theorem State.takeSlot_other {x : Nat × Nat × SegInfo} (hx : x.1 ≠ n) (a : State × List (Nat × Nat)) :
    a.1.keepsIsl n (State.takeSlot tid limit copy e a x).1 := by
  unfold State.takeSlot
  split
  · exact ⟨rfl, (State.island_modIsl ..).trans (if_neg hx)⟩
  · exact State.keepsIsl_refl n a.1

theorem State.takeSlots_others {l : List (Nat × Nat × SegInfo)} (h : ∀ x ∈ l, x.1 ≠ n) (a : State × List (Nat × Nat)) :
    a.1.keepsIsl n (l.foldl (State.takeSlot tid limit copy e) a).1 :=
  List.foldlRecOn (motive := fun b : State × List (Nat × Nat) => a.1.keepsIsl n b.1) l _ (State.keepsIsl_refl n a.1)
    (fun b hb x hx => State.keepsIsl_trans hb (State.takeSlot_other (h x hx) b))

/-- On segments of different islands, each has its slot filled. -/
theorem State.takeSlots_fills {l : List (Nat × Nat × SegInfo)} (hl : (l.map (·.1)).Nodup) {x : Nat × Nat × SegInfo} (hx : x ∈ l)
    {a : State × List (Nat × Nat)} {k : Nat} (hk : a.1.freeSlot x.1 limit = some k) :
    (l.foldl (State.takeSlot tid limit copy e) a).1.slot x.1 k = a.1.filled x.1 k tid x.2.1 (copy k) x.2.2 (e.progOn x.1) := by
  obtain ⟨l₁, l₂, rfl⟩ := List.append_of_mem hx
  rw [List.map_append, List.map_cons] at hl
  obtain ⟨hnot, -⟩ := List.nodup_cons.mp (List.nodup_middle.mp hl)
  have hne : ∀ y ∈ l₁ ++ l₂, y.1 ≠ x.1 := fun y hy heq => hnot (by
    rw [← List.map_append, ← heq]; exact List.mem_map_of_mem hy)
  have hbefore := State.takeSlots_others (tid := tid) (limit := limit) (copy := copy) (e := e)
    (fun y hy => hne y (List.mem_append_left l₂ hy)) a
  rw [List.foldl_append, List.foldl_cons]
  generalize l₁.foldl (State.takeSlot tid limit copy e) a = b at hbefore
  have hafter := State.takeSlots_others (tid := tid) (limit := limit) (copy := copy) (e := e)
    (fun y hy => hne y (List.mem_append_right l₁ hy)) (State.takeSlot tid limit copy e b x)
  have hfree : b.1.freeSlot x.1 limit = some k := (State.keepsIsl_freeSlot hbefore limit).trans hk
  have hstep : (State.takeSlot tid limit copy e b x).1 = b.1.fillSlot x.1 k tid x.2.1 (copy k) x.2.2 (e.progOn x.1) := by
    unfold State.takeSlot
    rw [hfree]
  rw [State.slot, hafter.2, hstep]
  exact (State.slot_fillSlot ..).trans (State.keepsIsl_filled hbefore ..)

end

/-- The islands of the segments are islands of the room, each once. -/
theorem PEntry.segOn_nodup (e : PEntry) (first : Nat) (r : RoomCfg) : ((e.segOn first r.isls).map (·.1)).Nodup := by
  have hsub (l : List (Nat × Nat)) :
      ((l.filterMap (fun x => (e.segs[first + x.2]?).map (fun g => (x.1, first + x.2, g)))).map (·.1)).Sublist (l.map (·.1)) := by
    induction l with
    | nil => exact List.Sublist.slnil
    | cons x l ih =>
      rw [List.filterMap_cons, List.map_cons]
      cases e.segs[first + x.2]? with
      | none => exact ih.cons x.1
      | some g => exact ih.cons_cons x.1
  have hisls := hsub r.isls.zipIdx
  rw [List.zipIdx_map_fst] at hisls
  exact hisls.nodup (List.nodup_range.filter _)

/-- Shelf address of the descriptor's copy for a slot of a task that starts here: the lead slot's (R135, R142). -/
def State.leadCopy (s : State) (r : RoomCfg) (k : Nat) : Nat := descCopyAt ((s.freeSlot r.dispatcher r.slots).getD k)

/-- Each segment of a task that starts here has the lowest free slot of its island. -/
theorem State.takeSlots_slot {s : State} {m : Nat} {r : RoomCfg} (hr : s.roomCfg? m = some r) (tid : Nat) (e : PEntry) (d : Bytes)
    {x : Nat × Nat × SegInfo} (hx : x ∈ e.segOn 0 r.isls) {k : Nat} (hk : s.freeSlot x.1 r.slots = some k) :
    (s.takeSlots tid m 0 e d).1.slot x.1 k = s.filled x.1 k tid x.2.1 (s.leadCopy r k) x.2.2 (e.progOn x.1) := by
  have hfold : (s.takeSlots tid m 0 e d).1.slot x.1 k
      = ((e.segOn 0 r.isls).foldl (State.takeSlot tid r.slots (s.leadCopy r) e) (s, [])).1.slot x.1 k := by
    unfold State.takeSlots
    rw [hr]
    dsimp only
    split
    · exact State.slot_modShelf ..
    · rfl
  rw [hfold]
  exact State.takeSlots_fills (e.segOn_nodup 0 r) hx hk

end Sys2Proof.Machine
end

section
/-! PROOFS. TASK_START (R113, R116, R135, R142), and O49. -/

namespace Sys2Proof.Machine

open Sys2Proof

section
variable {s t : State} {m q r : Nat} {e : QEntry}

theorem exec_taskStart (m : Room) : exec (.taskStart m) s = .next (s.startTask m) := rfl

/-! ### No start, and a start that fails -/

/-- A dispatcher with no next head starts nothing. -/
theorem State.startTask_idle (h : s.nextHead m = none) : s.keepsTasks (s.startTask m) := by
  have hcount := State.keepsTasks_countStalls m s
  have hstart : s.taskStart m = s.countStalls m := by
    unfold State.taskStart
    dsimp only
    rw [State.onlyStalls_nextHead (State.onlyStalls_countStalls m s), h]
  unfold State.startTask
  dsimp only
  rw [hstart, State.tellStarts_none (congrArg Tasks.next hcount.1)]
  exact State.keepsTasks_trans hcount (State.keepsStarts_afterTask ..).1

/-- A RUN descriptor that heads the next queue is started. -/
theorem State.taskStart_runs (h : s.nextHead m = some (q, e)) (hop : dOp e.raw = 1) :
    s.taskStart m = (s.countStalls m).startRun m q e := by
  unfold State.taskStart
  dsimp only
  rw [State.onlyStalls_nextHead (State.onlyStalls_countStalls m s), h]
  exact if_pos (by simp [hop])

theorem State.startCheck_countStalls (m q : Nat) (e : QEntry) (s : State) :
    (s.countStalls m).startCheck m q e = s.startCheck m q e := by
  obtain ⟨rs, h, -⟩ := State.onlyStalls_countStalls m s
  rw [h]
  rfl

/-- A start that fails ends its head; what follows starts nothing. -/
theorem State.startRun_fails {st detail : Nat} (h : s.startCheck m q e = .fails st detail) :
    (s.endHead m q e st detail).keepsStarts (s.startRun m q e) := by
  have htwin := State.keepsStarts_twinFail q e st detail (s.endHead m q e st detail)
  unfold State.startRun
  dsimp only
  rw [h]
  exact iteInduction (motive := (s.endHead m q e st detail).keepsStarts)
    (fun _ => State.keepsStarts_trans htwin (State.keepsStarts_addrViol ..)) (fun _ => htwin)

/-- A failing start: the descriptor has left its queue, its record has left the device, and no task has started. -/
theorem State.startTask_fails {st detail : Nat} (hnext : s.nextHead m = some (q, e)) (hop : dOp e.raw = 1)
    (hfail : s.startCheck m q e = .fails st detail) (hr : s.takesRec q r) :
    ((s.startTask m).queue q).waiting = (s.queue q).waiting.drop 1 ∧ (s.startTask m).tasks = s.tasks ∧ (s.startTask m).isl = s.isl
      ∧ ∃ pre, (e.twin = none → ∀ x ∈ pre, ∃ a l, x = .hostRead ((s.queueOwner q).getD 0) a l)
          ∧ s.out.msgs ++ pre ++ [s.headRec q m r st detail e] <+: (s.startTask m).out.msgs := by
  have hstalls := State.onlyStalls_countStalls m s
  have hrun := State.startRun_fails ((State.startCheck_countStalls m q e s).trans hfail)
  obtain ⟨pre, hwait, -, hpre, hmsgs, -, hrest⟩ :=
    State.endHead_ends ((State.onlyStalls_takesRec hstalls q r).mpr hr) m st detail e
  rw [State.onlyStalls_headRec hstalls] at hmsgs
  obtain ⟨rs, hrs, -⟩ := hstalls
  have htasks := (congrArg State.tasks hrest :)
  have hisl := (congrArg State.isl hrest :)
  have hold : (s.taskStart m).tasks.next = s.tasks.next := by
    rw [State.taskStart_runs hnext hop, hrun.1.1, htasks, hrs]
  obtain ⟨⟨rtasks, risl, rqueues, -⟩, rout⟩ := State.keepsStarts_trans hrun (State.keepsStarts_afterTask m _)
  unfold State.startTask
  dsimp only
  rw [State.tellStarts_none hold, State.taskStart_runs hnext hop]
  refine ⟨?_, ?_, ?_, pre, ?_, ?_⟩
  · rw [State.queue, rqueues]
    refine hwait.trans ?_
    rw [hrs]
    rfl
  · rw [rtasks, htasks, hrs]
  · rw [risl, hisl, hrs]
  · intro htwin
    have h := hpre htwin
    rw [hrs] at h
    exact h
  · have hout : (s.countStalls m).out = s.out := by rw [hrs]
    rw [hout] at hmsgs
    rw [← hmsgs]
    exact rout

/-! ### A start that goes -/

/-- The task of a descriptor that starts. -/
def State.runTask (s : State) (m q : Nat) (e : QEntry) (now : Nat) (slots : List (Nat × Nat)) (late : Bool) (ring w i : Nat)
    (g : PEntry) : Task :=
  { Task.new q m (s.roomTenant m) e now slots late ring w i g.stateBytes with
    broken := (s.room m).timed == 2, solo := s.roomSolo m }

/-- A new task holds the head of its queue, with a slot reserved for its record. -/
def State.begun (q ring tid : Nat) (e : QEntry) (k : Task) (s : State) : State :=
  (((s.dequeue q).modTasks (fun u => { live := NMap.set u.live tid k, next := tid + 1 })).modQueue q
    (fun r => { r with running := r.running + 1, stateBusy := dUsesState e.raw })).modRing ring
    (fun r => { r with reserved := r.reserved + 1 })

theorem State.begun_queue (q ring tid : Nat) (e : QEntry) (k : Task) (s : State) :
    ((s.begun q ring tid e k).queue q).waiting = (s.queue q).waiting.drop 1
      ∧ ((s.begun q ring tid e k).queue q).running = (s.queue q).running + 1 := by
  have hout : (s.dequeue q).queue q = { s.queue q with waiting := (s.queue q).waiting.drop 1 } :=
    (State.queue_modQueue ..).trans (if_pos rfl)
  have hq : (s.begun q ring tid e k).queue q
      = { (s.dequeue q).queue q with running := ((s.dequeue q).queue q).running + 1, stateBusy := dUsesState e.raw } :=
    (State.queue_modQueue ((s.dequeue q).modTasks (fun u => { live := NMap.set u.live tid k, next := tid + 1 })) q q
      (fun r => { r with running := r.running + 1, stateBusy := dUsesState e.raw })).trans (if_pos rfl)
  rw [hq, hout]
  exact ⟨rfl, rfl⟩

theorem State.begun_reserved (q ring tid : Nat) (e : QEntry) (k : Task) (s : State) :
    ((s.begun q ring tid e k).ring ring).reserved = (s.ring ring).reserved + 1 := by
  rw [State.begun, State.ring_modRing, if_pos rfl]
  rfl

theorem State.begun_isl (q ring tid : Nat) (e : QEntry) (k : Task) (s : State) : (s.begun q ring tid e k).isl = s.isl := by
  unfold State.begun State.modRing State.modQueue State.dequeue State.modQueue
  simp only [State.modQm_isl, State.modTasks_isl]

theorem State.begun_tasks (q ring tid : Nat) (e : QEntry) (k : Task) (s : State) :
    (s.begun q ring tid e k).tasks = { live := NMap.set s.tasks.live tid k, next := tid + 1 } := by
  unfold State.begun State.modRing State.modQueue State.dequeue State.modQueue
  simp only [State.modQm_tasks, State.modTasks_tasks]

/-- A RUN descriptor that passes its checks becomes a task on the slots that it takes. -/
theorem State.startRun_goes {w i : Nat} {g : PEntry} {late : Bool} (h : s.startCheck m q e = .goes w i g late) :
    ∃ now slots, s.startRun m q e
      = ((s.takeSlots s.tasks.next m 0 g e.raw).1.begun q ((s.queueRing q).getD 0) s.tasks.next e
          ((s.takeSlots s.tasks.next m 0 g e.raw).1.runTask m q e now slots late ((s.queueRing q).getD 0) w i g)).tellStart q e (b2n late) := by
  refine ⟨s.dispView m, (s.takeSlots s.tasks.next m 0 g e.raw).2, ?_⟩
  unfold State.startRun
  dsimp only
  rw [h]
  rfl

/-- What members and clocks learn of a start leaves its task, slots and queue. -/
theorem State.startTask_keeps (hnext : s.nextHead m = some (q, e)) (hop : dOp e.raw = 1) :
    ((s.countStalls m).startRun m q e).keepsTasks (s.startTask m) := by
  unfold State.startTask
  dsimp only
  rw [State.taskStart_runs hnext hop]
  exact State.keepsTasks_trans (State.keepsTasks_of_onlySends (State.onlySends_tellStarts ..)) (State.keepsStarts_afterTask ..).1

/-- Slots that a task takes leave tasks, queues, rings and the Living set. -/
theorem State.takeSlots_keeps {tid : Nat} {g : PEntry} {d : Bytes} {u : State × List (Nat × Nat)}
    (hu : (s.countStalls m).takeSlots tid m 0 g d = u) :
    u.1.tasks = s.tasks ∧ u.1.living = s.living ∧ u.1.queue q = s.queue q ∧ ∀ j, (u.1.ring j).reserved = (s.ring j).reserved := by
  have hstalls := State.onlyStalls_countStalls m s
  have hres := State.onlyStalls_reserved hstalls
  have honly := State.onlyIsls_takeSlots tid m 0 g d (s.countStalls m)
  rw [hu] at honly
  have hqm := (congrArg State.qm honly :)
  obtain ⟨rs, hrs, -⟩ := hstalls
  refine ⟨(congrArg State.tasks honly :).trans (by rw [hrs]), (congrArg State.living honly :).trans (by rw [hrs]), ?_, fun j => ?_⟩
  · rw [State.queue, hqm, hrs]
    rfl
  · rw [State.ring, hqm]
    exact hres j

/-- A start that goes, as far as the task, its slots, its queue and its ring are concerned. -/
theorem State.startTask_goes {w i : Nat} {g : PEntry} {late : Bool} (hnext : s.nextHead m = some (q, e)) (hop : dOp e.raw = 1)
    (hgo : s.startCheck m q e = .goes w i g late) :
    ∃ u k, (s.countStalls m).takeSlots s.tasks.next m 0 g e.raw = u
      ∧ (k.queue, k.room, k.tenant, k.ent, k.late, k.status) = (q, m, s.roomTenant m, e, late, none)
      ∧ (s.startTask m).tasks = { live := NMap.set s.tasks.live s.tasks.next k, next := s.tasks.next + 1 }
      ∧ (s.startTask m).isl = u.1.isl
      ∧ ((s.startTask m).queue q).waiting = (s.queue q).waiting.drop 1 ∧ ((s.startTask m).queue q).running = (s.queue q).running + 1
      ∧ ∀ x, s.queueRing q = some x → ((s.startTask m).ring x).reserved = (s.ring x).reserved + 1 := by
  have hkeeps := State.startTask_keeps hnext hop
  obtain ⟨now, slots, hrun⟩ := State.startRun_goes ((State.startCheck_countStalls m q e s).trans hgo)
  have htid : (s.countStalls m).tasks = s.tasks := (State.keepsTasks_countStalls m s).1
  have hring : (s.countStalls m).queueRing q = s.queueRing q := by
    obtain ⟨rs, hrs, -⟩ := State.onlyStalls_countStalls m s
    rw [hrs]
    rfl
  rw [htid, hring] at hrun
  obtain ⟨u, hu⟩ : ∃ u, (s.countStalls m).takeSlots s.tasks.next m 0 g e.raw = u := ⟨_, rfl⟩
  obtain ⟨k, hk⟩ : ∃ k, u.1.runTask m q e now slots late ((s.queueRing q).getD 0) w i g = k := ⟨_, rfl⟩
  rw [hrun, hu, hk] at hkeeps
  obtain ⟨utasks, uliving, uqueue, ures⟩ := State.takeSlots_keeps (q := q) hu
  obtain ⟨htasks, hisl, hqueues, hres⟩ := State.keepsTasks_trans (State.keepsTasks_tellStart ..) hkeeps
  obtain ⟨bwait, brunning⟩ := State.begun_queue q ((s.queueRing q).getD 0) s.tasks.next e k u.1
  rw [uqueue] at bwait brunning
  have hq : (s.startTask m).queue q = (u.1.begun q ((s.queueRing q).getD 0) s.tasks.next e k).queue q :=
    congrArg (fun x => NMap.getD x q Queue.reset) hqueues
  refine ⟨u, k, hu, ?_, ?_, hisl.trans (State.begun_isl ..), ?_, ?_, fun x hx => ?_⟩
  · have hten : u.1.roomTenant m = s.roomTenant m := by
      unfold State.roomTenant State.roomCfg?
      rw [uliving]
    rw [← hk, ← hten]
    rfl
  · rw [htasks, State.begun_tasks, utasks]
  · rw [hq]; exact bwait
  · rw [hq]; exact brunning
  · rw [hres, hx, ← ures x]
    exact State.begun_reserved q x s.tasks.next e k u.1

/-- The slots of a task that starts, one on each island of its segments. -/
theorem State.startTask_slot {u : State × List (Nat × Nat)} {g : PEntry} {c : RoomCfg} {tid : Nat}
    (hu : (s.countStalls m).takeSlots tid m 0 g e.raw = u) (ht : t.isl = u.1.isl) (hc : s.roomCfg? m = some c)
    {x : Nat × Nat × SegInfo} (hx : x ∈ g.segOn 0 c.isls) {k : Nat} (hk : s.freeSlot x.1 c.slots = some k) :
    t.slot x.1 k = s.filled x.1 k tid x.2.1 (s.leadCopy c k) x.2.2 (g.progOn x.1) := by
  obtain ⟨rs, hrs, -⟩ := State.onlyStalls_countStalls m s
  have ht' : t.slot x.1 k = u.1.slot x.1 k := by
    unfold State.slot State.island
    rw [ht]
  rw [ht', ← hu, hrs]
  exact State.takeSlots_slot (s := { s with qm := { s.qm with rings := rs } }) hc tid g e.raw hx hk

end

/-- Settles O49: TASK_START by its next head and the checks, then NOP and STATE_ZERO. -/
theorem tasksStartAndShortDescriptorsComplete : Obligations.TasksStartAndShortDescriptorsComplete := by
  unfold Obligations.TasksStartAndShortDescriptorsComplete
  intro s
  dsimp only
  refine ⟨fun m q e hnext hop => ⟨fun st detail hfail => ?fails, fun w i g late c hgo hc => ?goes⟩, fun m hnone => ?idle,
    fun q m r e rest hw hm hop hheld hready hring hfree hback => ?nop, fun q m w i e g late hm hnext hop hgo => ?stateZero⟩
  case fails =>
    obtain ⟨r, hr⟩ := State.nextHead_takesRec hnext
    obtain ⟨hwait, htasks, hisl, pre, hpre, hmsgs⟩ := State.startTask_fails hnext hop hfail hr
    refine ⟨_, exec_taskStart m, hwait, htasks, hisl, fun r' hr' => ⟨pre, hpre, ?_⟩⟩
    obtain rfl : r = r' := Option.some.inj (hr.1.symm.trans hr')
    exact hmsgs
  case goes =>
    obtain ⟨u, k, hu, hk, htasks, hisl, hwait, hrun, hres⟩ := State.startTask_goes hnext hop hgo
    have htask (j : Nat) : (s.startTask m).task? j = if s.tasks.next = j then some k else s.task? j := by
      rw [State.task?, htasks]
      exact NMap.find?_set ..
    refine ⟨_, exec_taskStart m, by rw [htasks], ?_, fun j hj => (htask j).trans (if_neg (Ne.symm hj)), hwait, hrun, hres,
      fun x hx n hn => ?_⟩
    · rw [htask, if_pos rfl]
      exact congrArg some hk
    · obtain ⟨hsp, hseg, hcopy, hzero⟩ := s.filled_regs x.1 n s.tasks.next x.2.1 (s.leadCopy c n) x.2.2 (g.progOn x.1)
      rw [State.startTask_slot hu hisl hc hx hn]
      refine ⟨rfl, rfl, rfl, rfl, rfl, hsp, hseg, fun lead hlead => ?_, hzero⟩
      rw [hcopy, State.leadCopy, hlead]
      rfl
  case idle =>
    obtain ⟨htasks, hisl, hqueues, -⟩ := State.startTask_idle hnone
    exact ⟨_, exec_taskStart m, htasks, hisl, hqueues⟩
  case nop =>
    have hr : s.takesRec q r := ⟨hring, hfree, hback⟩
    obtain ⟨pre, hwait, htail, hpre, hmsgs, hrepro, hrest⟩ :=
      State.endHead_ends hr m (if s.lateness m q e = 2 then 0x60 else s.lateness m q e) 0 e
    rw [hw] at hwait
    refine ⟨fun htwin => ?_, _, pre, ?_, hwait, htail, hpre, hmsgs, hrepro, hrest⟩
    · rw [State.lateness_lone htwin]
      exact if_congr State.startsLate_iff rfl rfl
    · rw [exec_nop, State.nop_ends hw hm hop hheld hready hr]
  case stateZero =>
    obtain ⟨r, hr⟩ := State.nextHead_takesRec hnext
    obtain ⟨⟨c, hcellar⟩, hbytes⟩ := s.blockZeroed_cellar e g
    have hr' : (s.blockZeroed e g).takesRec q r := by rw [hcellar]; exact hr
    obtain ⟨pre, hends⟩ := State.endHead_ends hr' m (b2n late) 0 e
    obtain ⟨hwait, hcell, htail, hpre, hmsgs, hrepro, hrest, htasks⟩ := State.headEnds_blockZeroed hends
    refine ⟨_, exec_stateZero q, ?_⟩
    rw [State.stateZero_goes hm hnext hop hgo]
    refine ⟨hwait, fun a => ?_, fun r' hq => ?_, hrepro, hrest, htasks⟩
    · rw [hcell]; exact hbytes a
    · obtain rfl : r = r' := Option.some.inj (hr.1.symm.trans hq)
      exact ⟨htail, pre, hpre, hmsgs⟩

end Sys2Proof.Machine
end
